-- ==== Sys2Proof/Word.lean ====
section
/-! DEFINITION. Word and register types of the Quobel Q7 (R3, R4, R85), and their plainest arithmetic. -/
namespace Sys2Proof

/-- One byte of memory (R3). -/
abbrev Byte := BitVec 8
/-- A scalar, address or control register (R85). -/
abbrev Word := BitVec 64
/-- A vector register or micro temporary: 384 raw bytes, byte 0 least significant (R3, R85). -/
abbrev Vec := BitVec 3072
/-- A moment register: 768 bytes, 96 pairs of F32 mean and F32 variance (R85, R133). -/
abbrev Mom := BitVec 6144
/-- A bundle of 512 bits (R70). -/
abbrev BundleBits := BitVec 512
/-- A slot, widened to the 80 bits of the widest slots (R70). -/
abbrev SlotBits := BitVec 80
/-- A 128-bit control-store word (R162). -/
abbrev StitchBits := BitVec 128
/-- The bits of an F32 value (R130). -/
abbrev F32 := BitVec 32

/-- wrap(a + b, 64) of R13. -/
def addW (a b : Word) : Word := a + b
/-- wrap(a − b, 64) of R13. -/
def subW (a b : Word) : Word := a - b

end Sys2Proof
end

