-- ==== Sys2Proof/Config.lean ====
section
/-! DEFINITION. What the spec leaves open, as uninterpreted constants: no proof can see a value of any of them.
Each is applied to plain data of the state or of an instruction (log entries 1, 5 to 11). -/
namespace Sys2Proof.Config

/-- Which of the steps that may come next comes next, where the spec fixes no order (R30, R219, R226); drawn with the
oracle counter of the state (log entry 1). -/
opaque choice : Nat → Nat

/-- The firmware image of a boot-flash slot and its signature, by boot number and slot (R352; log entry 5). -/
opaque firmware : Nat → Nat → List Byte
opaque firmwareSig : Nat → Nat → Nat × Nat
/-- The public key that a slot's signature comes with, and the fused SHA-256 hash of the right one (R32, R352; log entry 5). -/
opaque firmwareKey : Nat → Nat → Nat × Nat
opaque keyFuse : List Byte
/-- The blocks that fail self-test, in the layout of MBFAIL, by boot number (R353, R355; log entry 5). -/
opaque selfTestFail : Nat → BitVec 46

/-- The fused device root key, and the salt and info of the derivation from it (R340; log entry 6). -/
opaque deviceRoot : BitVec 256
opaque blobSalt : List Byte
opaque blobInfo : List Byte
/-- IV, additional data, ciphertext and tag of a world key's blob (R340; log entry 6). -/
opaque blobParts : List Byte → List Byte × List Byte × List Byte × List Byte
/-- The device attestation key, and the nonce that a signature is drawn with, by draw (R340; log entry 6). -/
opaque attestKey : Nat
opaque attestNonce : Nat → Nat

/-- Salt and info of the key of a sealed control-store image, and its IV, additional data and tag, by image hash and context
(R32, R178; log entry 55). -/
opaque storeSalt : List Byte
opaque storeInfo : List Byte
opaque storeSeal : BitVec 256 → Nat → List Byte × List Byte × List Byte
/-- The SHA-256 measurement of the opened words of a context's control store, by image hash and context (R178; log entry 55). -/
opaque storeMeasure : BitVec 256 → Nat → List Byte

/-- The place of the suspended cycles within a throttling period (R357; log entry 7). -/
opaque throttlePhase : Nat → Nat

/-- A byte a member on another package contributes to a collective, by draw and position (R300; log entry 8). -/
opaque fabricByte : Nat → Nat → Byte

/-- The part of the collective buffers that is a program's area, by partition and program: first byte and size (R301; log
entry 87). -/
opaque collArea : Nat → Nat → Nat × Nat

/-- What a virtual function's configuration space answers, from the firmware tables of the hypervisor core, by
function and offset (R332; log entry 9). -/
opaque configSpace : Nat → Nat → BitVec 32

/-- The offset of the SR-IOV capability's word of the numbers of virtual functions in the physical function's configuration space
(R331, R352; log entry 9). -/
opaque sriov : Nat

/-- The IV with which a line of a protected page is sealed, by line and write counter: R343 gives none (log entry 10). -/
opaque pageIv : Nat → Nat → BitVec 96

/-- The fault value of a stitch's RAISE, by code and micro address, for the codes other than FRES and STEPS: R303's table
gives those two their values (the micro address, the bound) and no sequencer's value for the others (log entry 11). -/
opaque raiseValue : Nat → Nat → BitVec 64
/-- The fault value of MICRO for a micro address that holds no stitch, where no field offends (R179, R303; log entry 11). -/
opaque noFieldValue : Nat → BitVec 64

end Sys2Proof.Config
end

