-- ==== Sys2Proof/Machine/Bits.lean ====
section
/-! DEFINITION. Bit fields, byte order and sparse maps: the helpers that every other file of the machine uses. -/
namespace Sys2Proof.Machine

/-! ## Sparse maps: lists of keys and values, keys strictly rising, no value equal to the default -/

/-- A sparse map from numbers to values. -/
abbrev SMap (α : Type) := List (Nat × α)

/-- The value at a key, the default where none is listed. -/
def SMap.get {α : Type} (d : α) (m : SMap α) (k : Nat) : α :=
  match m with
  | [] => d
  | (j, v) :: t => if k = j then v else SMap.get d t k

/-- The map with an entry put in its place in the order. -/
def SMap.insert {α : Type} (m : SMap α) (k : Nat) (v : α) : SMap α :=
  match m with
  | [] => [(k, v)]
  | (j, w) :: t => if k < j then (k, v) :: (j, w) :: t else (j, w) :: SMap.insert t k v

/-- The map with a value at a key; the default value is not listed. -/
def SMap.set {α : Type} [DecidableEq α] (d : α) (m : SMap α) (k : Nat) (v : α) : SMap α :=
  let rest := m.filter (fun p => p.1 != k)
  if v = d then rest else SMap.insert rest k v

/-- Every key of the map is above k. -/
def SMap.above {α : Type} (k : Nat) (m : SMap α) : Bool :=
  match m with
  | [] => true
  | (j, _) :: _ => k < j

/-- The canonical form: keys strictly rising, no default value listed. -/
def SMap.wf {α : Type} [DecidableEq α] (d : α) (m : SMap α) : Bool :=
  match m with
  | [] => true
  | (j, v) :: t => decide (v ≠ d) && SMap.above j t && SMap.wf d t

/-- The entry at a key of a map without a default. -/
def SMap.find {α : Type} (m : SMap α) (k : Nat) : Option α :=
  match m with
  | [] => none
  | (j, v) :: t => if k < j then none else if k = j then some v else SMap.find t k

/-- The map with an entry put at a key. -/
def SMap.put {α : Type} (m : SMap α) (k : Nat) (v : α) : SMap α :=
  match m with
  | [] => [(k, v)]
  | (j, w) :: t =>
    if k < j then (k, v) :: (j, w) :: t else if k = j then (k, v) :: t else (j, w) :: SMap.put t k v

/-- The map without the entry at a key. -/
def SMap.del {α : Type} (m : SMap α) (k : Nat) : SMap α :=
  match m with
  | [] => []
  | (j, w) :: t => if k < j then (j, w) :: t else if k = j then t else (j, w) :: SMap.del t k

/-! ## Sets of numbers as rising lists -/

/-- The set with a number put in. -/
def insertNat (l : List Nat) (k : Nat) : List Nat :=
  match l with
  | [] => [k]
  | j :: t => if k < j then k :: j :: t else if k = j then j :: t else j :: insertNat t k

/-- The set without a number. -/
def eraseNat (l : List Nat) (k : Nat) : List Nat :=
  match l with
  | [] => []
  | j :: t => if k < j then j :: t else if k = j then t else j :: eraseNat t k

/-- The numbers strictly rise. -/
def risingNat : List Nat → Bool
  | [] => true
  | [_] => true
  | a :: b :: t => decide (a < b) && risingNat (b :: t)

/-! ## Fields and bytes -/

/-- Field [hi:lo] of a number, unsigned (R4). -/
def field (v hi lo : Nat) : Nat := (v >>> lo) % 2 ^ (hi + 1 - lo)

/-- v read as an n-bit two's-complement value (R13, sext). -/
def sext (v n : Nat) : Int := if v.testBit (n - 1) then (v % 2 ^ n : Nat) - (2 ^ n : Nat) else (v % 2 ^ n : Nat)

/-- x modulo 2^n, read as an n-bit value (R13, wrap). -/
def wrap (x : Int) (n : Nat) : Nat := (x % (2 ^ n : Nat)).toNat

/-- lo if x < lo, hi if x > hi, else x (R13, sat). -/
def clamp (x lo hi : Int) : Int := if x < lo then lo else if hi < x then hi else x

/-- The bytes of a number, lowest first (R3). -/
def toBytes (n v : Nat) : List Byte :=
  match n with
  | 0 => []
  | k + 1 => BitVec.ofNat 8 v :: toBytes k (v >>> 8)

/-- The number whose bytes these are, lowest first (R3). -/
def ofBytes : List Byte → Nat
  | [] => 0
  | b :: t => b.toNat + 256 * ofBytes t

/-- Element i of width w bits (R13, lane). -/
def lane (v i w : Nat) : Nat := (v >>> (i * w)) % 2 ^ w

/-- The number made of elements of width w bits, element 0 lowest. -/
def packLanes (w : Nat) (l : List Nat) : Nat :=
  match l with
  | [] => 0
  | x :: t => x % 2 ^ w + (packLanes w t) <<< w

/-- Elements 0 to c − 1 of width w bits. -/
def lanes (c w v : Nat) : List Nat :=
  match c with
  | 0 => []
  | k + 1 => v % 2 ^ w :: lanes k w (v >>> w)

/-- Replace item i of a list. -/
def setAt {α : Type} (l : List α) (i : Nat) (v : α) : List α :=
  match l, i with
  | [], _ => []
  | _ :: t, 0 => v :: t
  | x :: t, k + 1 => x :: setAt t k v

/-- Take the items of a list n at a time, at most `fuel` pieces. -/
def chunks {α : Type} (fuel n : Nat) (l : List α) : List (List α) :=
  match fuel, l with
  | 0, _ => []
  | _, [] => []
  | f + 1, l => l.take n :: chunks f n (l.drop n)

/-- The quotient of naturals rounded up. -/
def ceilDiv (a b : Nat) : Nat := if b = 0 then 0 else (a + b - 1) / b

end Sys2Proof.Machine
end

