-- ==== Sys2Proof/Machine/Crypto.lean ====
section
/-! DEFINITION. The ciphers and hashes the spec names: ChaCha with 8 rounds (R148), SHA-256 and HKDF-SHA-256 (R320,
R340), AES-256-GCM (R320, R340, R341, R343). -/
namespace Sys2Proof.Machine

/-! ## ChaCha8 (R148) -/

def rotl (x : BitVec 32) (n : Nat) : BitVec 32 := x.rotateLeft n

/-- One quarter round of RFC 8439 on words a, b, c, d. -/
def quarter (a b c d : BitVec 32) : BitVec 32 × BitVec 32 × BitVec 32 × BitVec 32 :=
  let a := a + b; let d := rotl (d ^^^ a) 16
  let c := c + d; let b := rotl (b ^^^ c) 12
  let a := a + b; let d := rotl (d ^^^ a) 8
  let c := c + d; let b := rotl (b ^^^ c) 7
  (a, b, c, d)

/-- One double round: four column rounds, then four diagonal rounds. -/
def doubleRound : List (BitVec 32) → List (BitVec 32)
  | [x0, x1, x2, x3, x4, x5, x6, x7, x8, x9, x10, x11, x12, x13, x14, x15] =>
    let (x0, x4, x8, x12) := quarter x0 x4 x8 x12
    let (x1, x5, x9, x13) := quarter x1 x5 x9 x13
    let (x2, x6, x10, x14) := quarter x2 x6 x10 x14
    let (x3, x7, x11, x15) := quarter x3 x7 x11 x15
    let (x0, x5, x10, x15) := quarter x0 x5 x10 x15
    let (x1, x6, x11, x12) := quarter x1 x6 x11 x12
    let (x2, x7, x8, x13) := quarter x2 x7 x8 x13
    let (x3, x4, x9, x14) := quarter x3 x4 x9 x14
    [x0, x1, x2, x3, x4, x5, x6, x7, x8, x9, x10, x11, x12, x13, x14, x15]
  | l => l

/-- Words of a number, low word first. -/
def words32 (n v : Nat) : List (BitVec 32) :=
  match n with
  | 0 => []
  | k + 1 => BitVec.ofNat 32 v :: words32 k (v >>> 32)

/-- The input state of R148. -/
def chachaState (key : BitVec 256) (counter : Word) (stream : Nat) : List (BitVec 32) :=
  [0x61707865#32, 0x3320646E#32, 0x79622D32#32, 0x6B206574#32] ++ words32 8 key.toNat ++ words32 2 counter.toNat ++
    [BitVec.ofNat 32 stream, 0#32]

/-- The 64 bytes of one ChaCha8 block (R148). -/
def chachaBlock (key : BitVec 256) (counter : Word) (stream : Nat) : List Byte :=
  let s := chachaState key counter stream
  let f := doubleRound (doubleRound (doubleRound (doubleRound s)))
  (s.zipWith (· + ·) f).flatMap (fun w => toBytes 4 w.toNat)

/-- A 384-byte unit: six blocks at consecutive counters (R148). -/
def chachaUnit (key : BitVec 256) (counter : Word) (stream : Nat) : List Byte :=
  (List.range 6).flatMap (fun i => chachaBlock key (counter + BitVec.ofNat 64 i) stream)

/-- Byte j of a stream: block j/64 of its counters, byte j mod 64 (R146, R148). -/
def streamByte (key : BitVec 256) (stream j : Nat) : Byte :=
  (chachaBlock key (BitVec.ofNat 64 (j / 64)) stream).getD (j % 64) 0

/-! ## SHA-256 -/

def shaK0 : List Nat := [0x428A2F98, 0x71374491, 0xB5C0FBCF, 0xE9B5DBA5, 0x3956C25B, 0x59F111F1, 0x923F82A4, 0xAB1C5ED5]
def shaK1 : List Nat := [0xD807AA98, 0x12835B01, 0x243185BE, 0x550C7DC3, 0x72BE5D74, 0x80DEB1FE, 0x9BDC06A7, 0xC19BF174]
def shaK2 : List Nat := [0xE49B69C1, 0xEFBE4786, 0x0FC19DC6, 0x240CA1CC, 0x2DE92C6F, 0x4A7484AA, 0x5CB0A9DC, 0x76F988DA]
def shaK3 : List Nat := [0x983E5152, 0xA831C66D, 0xB00327C8, 0xBF597FC7, 0xC6E00BF3, 0xD5A79147, 0x06CA6351, 0x14292967]
def shaK4 : List Nat := [0x27B70A85, 0x2E1B2138, 0x4D2C6DFC, 0x53380D13, 0x650A7354, 0x766A0ABB, 0x81C2C92E, 0x92722C85]
def shaK5 : List Nat := [0xA2BFE8A1, 0xA81A664B, 0xC24B8B70, 0xC76C51A3, 0xD192E819, 0xD6990624, 0xF40E3585, 0x106AA070]
def shaK6 : List Nat := [0x19A4C116, 0x1E376C08, 0x2748774C, 0x34B0BCB5, 0x391C0CB3, 0x4ED8AA4A, 0x5B9CCA4F, 0x682E6FF3]
def shaK7 : List Nat := [0x748F82EE, 0x78A5636F, 0x84C87814, 0x8CC70208, 0x90BEFFFA, 0xA4506CEB, 0xBEF9A3F7, 0xC67178F2]

def shaK : List (BitVec 32) :=
  (shaK0 ++ shaK1 ++ shaK2 ++ shaK3 ++ shaK4 ++ shaK5 ++ shaK6 ++ shaK7).map (BitVec.ofNat 32)

def shaH : List (BitVec 32) :=
  [0x6A09E667, 0xBB67AE85, 0x3C6EF372, 0xA54FF53A, 0x510E527F, 0x9B05688C, 0x1F83D9AB, 0x5BE0CD19].map (BitVec.ofNat 32)

def rotr (x : BitVec 32) (n : Nat) : BitVec 32 := x.rotateRight n

/-- The number whose bytes these are, highest first. -/
def ofBytesBE (l : List Byte) : Nat := l.foldl (fun a b => a * 256 + b.toNat) 0

def toBytesBE (n v : Nat) : List Byte := (toBytes n v).reverse

/-- The message schedule, newest word first. -/
def shaSchedule : Nat → List (BitVec 32) → List (BitVec 32)
  | 0, w => w
  | n + 1, w =>
    let w15 := w.getD 14 0; let w2 := w.getD 1 0
    let s0 := rotr w15 7 ^^^ rotr w15 18 ^^^ (w15 >>> 3)
    let s1 := rotr w2 17 ^^^ rotr w2 19 ^^^ (w2 >>> 10)
    shaSchedule n ((w.getD 15 0 + s0 + w.getD 6 0 + s1) :: w)

def shaRound (st : List (BitVec 32)) (kw : BitVec 32 × BitVec 32) : List (BitVec 32) :=
  match st with
  | [a, b, c, d, e, f, g, h] =>
    let s1 := rotr e 6 ^^^ rotr e 11 ^^^ rotr e 25
    let ch := (e &&& f) ^^^ (~~~e &&& g)
    let t1 := h + s1 + ch + kw.1 + kw.2
    let s0 := rotr a 2 ^^^ rotr a 13 ^^^ rotr a 22
    let mj := (a &&& b) ^^^ (a &&& c) ^^^ (b &&& c)
    [t1 + s0 + mj, a, b, c, d + t1, e, f, g]
  | l => l

def shaBlock (h : List (BitVec 32)) (blk : List Byte) : List (BitVec 32) :=
  let w0 := (chunks 16 4 blk).map (fun b => BitVec.ofNat 32 (ofBytesBE b))
  let w := (shaSchedule 48 w0.reverse).reverse
  h.zipWith (· + ·) ((shaK.zip w).foldl shaRound h)

def shaPad (msg : List Byte) : List Byte :=
  let z := (119 - msg.length % 64) % 64
  msg ++ [0x80#8] ++ List.replicate z 0#8 ++ toBytesBE 8 (8 * msg.length)

/-- SHA-256 of a list of bytes. -/
def sha256 (msg : List Byte) : List Byte :=
  ((chunks (msg.length / 64 + 2) 64 (shaPad msg)).foldl shaBlock shaH).flatMap (fun w => toBytesBE 4 w.toNat)

def xorBytes (a b : List Byte) : List Byte := a.zipWith (· ^^^ ·) b

def hmacSha256 (key msg : List Byte) : List Byte :=
  let k0 := if key.length ≤ 64 then key else sha256 key
  let k := k0 ++ List.replicate (64 - k0.length) 0#8
  sha256 (xorBytes k (List.replicate 64 0x5C#8) ++ sha256 (xorBytes k (List.replicate 64 0x36#8) ++ msg))

/-- HKDF-SHA-256 with an output of 32 bytes. -/
def hkdf (ikm salt info : List Byte) : List Byte := hmacSha256 (hmacSha256 salt ikm) (info ++ [1#8])

/-! ## AES-256-GCM -/

def sboxRow0 : List Nat := [0x63, 0x7C, 0x77, 0x7B, 0xF2, 0x6B, 0x6F, 0xC5, 0x30, 0x01, 0x67, 0x2B, 0xFE, 0xD7, 0xAB, 0x76]
def sboxRow1 : List Nat := [0xCA, 0x82, 0xC9, 0x7D, 0xFA, 0x59, 0x47, 0xF0, 0xAD, 0xD4, 0xA2, 0xAF, 0x9C, 0xA4, 0x72, 0xC0]
def sboxRow2 : List Nat := [0xB7, 0xFD, 0x93, 0x26, 0x36, 0x3F, 0xF7, 0xCC, 0x34, 0xA5, 0xE5, 0xF1, 0x71, 0xD8, 0x31, 0x15]
def sboxRow3 : List Nat := [0x04, 0xC7, 0x23, 0xC3, 0x18, 0x96, 0x05, 0x9A, 0x07, 0x12, 0x80, 0xE2, 0xEB, 0x27, 0xB2, 0x75]
def sboxRow4 : List Nat := [0x09, 0x83, 0x2C, 0x1A, 0x1B, 0x6E, 0x5A, 0xA0, 0x52, 0x3B, 0xD6, 0xB3, 0x29, 0xE3, 0x2F, 0x84]
def sboxRow5 : List Nat := [0x53, 0xD1, 0x00, 0xED, 0x20, 0xFC, 0xB1, 0x5B, 0x6A, 0xCB, 0xBE, 0x39, 0x4A, 0x4C, 0x58, 0xCF]
def sboxRow6 : List Nat := [0xD0, 0xEF, 0xAA, 0xFB, 0x43, 0x4D, 0x33, 0x85, 0x45, 0xF9, 0x02, 0x7F, 0x50, 0x3C, 0x9F, 0xA8]
def sboxRow7 : List Nat := [0x51, 0xA3, 0x40, 0x8F, 0x92, 0x9D, 0x38, 0xF5, 0xBC, 0xB6, 0xDA, 0x21, 0x10, 0xFF, 0xF3, 0xD2]
def sboxRow8 : List Nat := [0xCD, 0x0C, 0x13, 0xEC, 0x5F, 0x97, 0x44, 0x17, 0xC4, 0xA7, 0x7E, 0x3D, 0x64, 0x5D, 0x19, 0x73]
def sboxRow9 : List Nat := [0x60, 0x81, 0x4F, 0xDC, 0x22, 0x2A, 0x90, 0x88, 0x46, 0xEE, 0xB8, 0x14, 0xDE, 0x5E, 0x0B, 0xDB]
def sboxRow10 : List Nat := [0xE0, 0x32, 0x3A, 0x0A, 0x49, 0x06, 0x24, 0x5C, 0xC2, 0xD3, 0xAC, 0x62, 0x91, 0x95, 0xE4, 0x79]
def sboxRow11 : List Nat := [0xE7, 0xC8, 0x37, 0x6D, 0x8D, 0xD5, 0x4E, 0xA9, 0x6C, 0x56, 0xF4, 0xEA, 0x65, 0x7A, 0xAE, 0x08]
def sboxRow12 : List Nat := [0xBA, 0x78, 0x25, 0x2E, 0x1C, 0xA6, 0xB4, 0xC6, 0xE8, 0xDD, 0x74, 0x1F, 0x4B, 0xBD, 0x8B, 0x8A]
def sboxRow13 : List Nat := [0x70, 0x3E, 0xB5, 0x66, 0x48, 0x03, 0xF6, 0x0E, 0x61, 0x35, 0x57, 0xB9, 0x86, 0xC1, 0x1D, 0x9E]
def sboxRow14 : List Nat := [0xE1, 0xF8, 0x98, 0x11, 0x69, 0xD9, 0x8E, 0x94, 0x9B, 0x1E, 0x87, 0xE9, 0xCE, 0x55, 0x28, 0xDF]
def sboxRow15 : List Nat := [0x8C, 0xA1, 0x89, 0x0D, 0xBF, 0xE6, 0x42, 0x68, 0x41, 0x99, 0x2D, 0x0F, 0xB0, 0x54, 0xBB, 0x16]

def sboxTable : List Nat :=
  sboxRow0 ++ sboxRow1 ++ sboxRow2 ++ sboxRow3 ++ sboxRow4 ++ sboxRow5 ++ sboxRow6 ++ sboxRow7 ++
  sboxRow8 ++ sboxRow9 ++ sboxRow10 ++ sboxRow11 ++ sboxRow12 ++ sboxRow13 ++ sboxRow14 ++ sboxRow15

def sbox (b : Byte) : Byte := BitVec.ofNat 8 (sboxTable.getD b.toNat 0)

def xtime (b : Byte) : Byte := if b.msb then (b <<< 1) ^^^ 0x1B#8 else b <<< 1

/-- The key schedule's words, newest first, from word number i on. -/
def keyWords (fuel i : Nat) (rcon : Byte) (w : List (List Byte)) : List (List Byte) :=
  match fuel with
  | 0 => w
  | f + 1 =>
    let prev := w.getD 0 []
    let back := w.getD 7 []
    if i % 8 = 0 then
      let rot := (prev.drop 1 ++ prev.take 1).map sbox
      let t := match rot with
        | x :: r => (x ^^^ rcon) :: r
        | [] => []
      keyWords f (i + 1) (xtime rcon) (xorBytes back t :: w)
    else if i % 8 = 4 then keyWords f (i + 1) rcon (xorBytes back (prev.map sbox) :: w)
    else keyWords f (i + 1) rcon (xorBytes back prev :: w)

/-- The fifteen round keys of AES-256. -/
def roundKeys (key : List Byte) : List (List Byte) :=
  chunks 15 16 ((keyWords 52 8 1#8 (chunks 8 4 key).reverse).reverse.flatten)

def shiftRows (s : List Byte) : List Byte :=
  (List.range 16).map (fun i => s.getD ((i + 4 * (i % 4)) % 16) 0)

def mixColumn : List Byte → List Byte
  | [a, b, c, d] =>
    [xtime a ^^^ xtime b ^^^ b ^^^ c ^^^ d, a ^^^ xtime b ^^^ xtime c ^^^ c ^^^ d,
     a ^^^ b ^^^ xtime c ^^^ xtime d ^^^ d, xtime a ^^^ a ^^^ b ^^^ c ^^^ xtime d]
  | l => l

/-- AES-256 of one block under its round keys. -/
def aesBlock (rk : List (List Byte)) (blk : List Byte) : List Byte :=
  let s0 := xorBytes blk (rk.getD 0 [])
  let s := ((rk.drop 1).take 13).foldl
    (fun s k => xorBytes ((chunks 4 4 (shiftRows (s.map sbox))).flatMap mixColumn) k) s0
  xorBytes (shiftRows (s.map sbox)) (rk.getD 14 [])

/-- Multiplication in the field of GHASH, bits counted from the most significant. -/
def gfMul (x y : BitVec 128) : BitVec 128 :=
  ((List.range 128).foldl (fun (p : BitVec 128 × BitVec 128) i =>
    (if x.getMsbD i then p.1 ^^^ p.2 else p.1,
     if p.2.getLsbD 0 then (p.2 >>> 1) ^^^ (0xE1#128 <<< 120) else p.2 >>> 1)) (0#128, y)).1

def padBlock (l : List Byte) : List Byte := l ++ List.replicate ((16 - l.length % 16) % 16) 0#8

def ghash (h : BitVec 128) (l : List Byte) : BitVec 128 :=
  (chunks (l.length / 16 + 1) 16 l).foldl
    (fun y b => gfMul (y ^^^ BitVec.ofNat 128 (ofBytesBE b)) h) 0#128

/-- The counter block of a 96-bit IV. -/
def gcmCounter (iv : List Byte) (n : Nat) : List Byte := iv ++ toBytesBE 4 n

/-- The data enciphered or deciphered in counter mode from counter 2 on. -/
def gcmCrypt (rk : List (List Byte)) (iv data : List Byte) : List Byte :=
  ((chunks (data.length / 16 + 1) 16 data).zipIdx 2).flatMap (fun p => xorBytes p.1 (aesBlock rk (gcmCounter iv p.2)))

/-- The tag of a ciphertext and its additional data. -/
def gcmTag (rk : List (List Byte)) (iv aad ct : List Byte) : List Byte :=
  let h := BitVec.ofNat 128 (ofBytesBE (aesBlock rk (List.replicate 16 0#8)))
  let s := ghash h (padBlock aad ++ padBlock ct ++ toBytesBE 8 (8 * aad.length) ++ toBytesBE 8 (8 * ct.length))
  xorBytes (toBytesBE 16 s.toNat) (aesBlock rk (gcmCounter iv 1))

/-- AES-256-GCM: ciphertext and tag. -/
def gcmSeal (key iv aad pt : List Byte) : List Byte × List Byte :=
  let rk := roundKeys key
  let ct := gcmCrypt rk iv pt
  (ct, gcmTag rk iv aad ct)

/-- AES-256-GCM: the plaintext where the tag passes. -/
def gcmOpen (key iv aad ct tag : List Byte) : Option (List Byte) :=
  let rk := roundKeys key
  if gcmTag rk iv aad ct = tag then some (gcmCrypt rk iv ct) else none

/-! ## ECDSA on P-256 (R32, R340; FIPS 186, log entry 6) -/

/-- Prime and group order of P-256, and its generator. -/
def p256 : Nat := 2 ^ 256 - 2 ^ 224 + 2 ^ 192 + 2 ^ 96 - 1
def p256Order : Nat := 0xFFFFFFFF00000000FFFFFFFFFFFFFFFFBCE6FAADA7179E84F3B9CAC2FC632551
def p256Gen : Nat × Nat :=
  (0x6B17D1F2E12C4247F8BCE6E563A440F277037D812DEB33A0F4A13945D898C296,
   0x4FE342E2FE1A7F9B8EE7EB4A7C0F9E162BCE33576B315ECECBB6406837BF51F5)

/-- a to the e modulo m, over the bits of e from bit k - 1 down. -/
def powMod (m a e : Nat) : Nat → Nat
  | 0 => 1 % m
  | k + 1 => (List.range (k + 1)).reverse.foldl (fun r i => if e.testBit i then r * r % m * a % m else r * r % m) (1 % m)

/-- The inverse modulo a prime of at most 256 bits. -/
def invMod (m a : Nat) : Nat := powMod m a (m - 2) 256

/-- The sum of two points of the curve; none is the point at infinity. -/
def p256Add : Option (Nat × Nat) → Option (Nat × Nat) → Option (Nat × Nat)
  | none, q => q
  | q, none => q
  | some (x1, y1), some (x2, y2) =>
    if x1 = x2 && (y1 + y2) % p256 = 0 then none
    else
      let l := if x1 = x2 then (3 * x1 * x1 + (p256 - 3)) * invMod p256 (2 * y1 % p256) % p256
        else (y2 + p256 - y1) * invMod p256 ((x2 + p256 - x1) % p256) % p256
      let x3 := (l * l + 2 * p256 - x1 - x2) % p256
      some (x3, (l * (x1 + p256 - x3) + p256 - y1) % p256)

/-- k times a point. -/
def p256Times (g : Nat × Nat) (k : Nat) : Option (Nat × Nat) :=
  (List.range 256).reverse.foldl (fun r i =>
    let d := p256Add r r
    if k.testBit i then p256Add d (some g) else d) none

/-- k times the generator. -/
def p256Mul (k : Nat) : Option (Nat × Nat) := p256Times p256Gen k

/-- The ECDSA signature of a digest under a key with a nonce: r, then s. -/
def ecdsaSign (key nonce digest : Nat) : Nat × Nat :=
  let k := nonce % (p256Order - 1) + 1
  let r := ((p256Mul k).map (fun p => p.1 % p256Order)).getD 0
  (r, invMod p256Order k * (digest + r * key) % p256Order)

/-- A point lies on the curve y² = x³ − 3x + b. -/
def onP256 (q : Nat × Nat) : Bool :=
  q.1 < p256 && q.2 < p256 && q.2 * q.2 % p256 = (q.1 * q.1 * q.1 + (p256 - 3) * q.1 +
    0x5AC635D8AA3A93E7B3EBBD55769886BC651D06B0CC53B0F63BCE3C3E27D2604B) % p256

/-- A signature (r, s) of a digest verifies under a public key. -/
def ecdsaVerify (pub : Nat × Nat) (digest : Nat) (sig : Nat × Nat) : Bool :=
  let n := p256Order
  let w := invMod n sig.2
  onP256 pub && 0 < sig.1 && sig.1 < n && 0 < sig.2 && sig.2 < n &&
    (match p256Add (p256Mul (digest * w % n)) (p256Times pub (sig.1 * w % n)) with
     | some p => p.1 % n = sig.1
     | none => false)

end Sys2Proof.Machine
end

