-- ==== Sys2Proof/Syntax.lean ====
section
/-! DEFINITION. The instructions and steps of spec/opcode_table.json: one constructor per row.
Slot instructions carry their decoded operands (R79 to R84), stitch operations their decoded unit fields (R162), and the
device's own steps the names of what they act on. -/
namespace Sys2Proof

/-- The guard of a slot instruction: p[pg] XOR pn (R77). -/
structure Guard where
  pg : BitVec 4
  pn : Bool
  deriving DecidableEq, Repr, Inhabited

/-- Element formats of the V class, codes 0 to 7 (R111, R448). -/
inductive Fmt where
  | f32 | bf16 | f16 | i32 | i16 | i8 | f8a | f8b
  deriving DecidableEq, Repr, Inhabited

/-- Rounding selection rm, codes 0 to 3 (R111, R449). -/
inductive Rm where
  | rne | rtz | sr | dyn
  deriving DecidableEq, Repr, Inhabited

/-- Plane selection pl, codes 0 to 2 (R111). -/
inductive Plane where
  | z0 | z1 | z01
  deriving DecidableEq, Repr, Inhabited

/-- Observer scopes, codes 0 to 5 (R212). -/
inductive Scope where
  | core | cluster | die | package | fabric | system
  deriving DecidableEq, Repr, Inhabited

/-- Access sizes: 1, 2, 4 and 8 bytes (R81). -/
inductive Sz where
  | b | h | w | d
  deriving DecidableEq, Repr, Inhabited

/-- A set of the access classes R, W, A and E (R79). -/
structure ClassSet where
  r : Bool
  w : Bool
  a : Bool
  e : Bool
  deriving DecidableEq, Repr, Inhabited

/-- The slot classes with bound space (R78). -/
inductive BoundClass where
  | a | v | t
  deriving DecidableEq, Repr, Inhabited

/-- Drain epilogues, codes 0 to 3 (R247). -/
inductive Epilogue where
  | none | bias | brelu | sbias
  deriving DecidableEq, Repr, Inhabited

/-- Moment collapse modes (R263). -/
inductive CollMode where
  | mv | msd | sample
  deriving DecidableEq, Repr, Inhabited

/-- Lane formats of a stitch, codes 0 to 7 (R165). -/
inductive LaneFmt where
  | f32 | bf16 | f16 | i32 | i16 | i8 | f8a | pair
  deriving DecidableEq, Repr, Inhabited

/-- Operand selectors of a stitch (R164). -/
inductive Sel where
  | h (n : BitVec 4)
  | p (n : BitVec 2)
  | pm (n : BitVec 2)
  | pv (n : BitVec 2)
  | k | lane | zero | lit
  | px (n : BitVec 2)
  | one | neg1
  /-- a code of 0x26 to 0x3F: MICRO wherever it is read or written -/
  | bad (code : BitVec 6)
  deriving DecidableEq, Repr, Inhabited

/-- The LANE field of a stitch (R162, R165, R166): operands, format, saturation bit and the stitch's literal. -/
structure LaneArgs where
  fmt : LaneFmt
  sat : Bool
  d : Sel
  a : Sel
  b : Sel
  lit : Option (BitVec 32)
  deriving DecidableEq, Repr, Inhabited

/-- The AGU field of a stitch with the BANK field and the lane format that govern it (R162, R171). -/
structure AguArgs where
  fmt : LaneFmt
  reg : Sel
  base : BitVec 3
  ix : Bool
  ixn : BitVec 2
  stride : BitVec 6
  off : BitVec 10
  ovr : Option (BitVec 4)
  gen : BitVec 4
  deriving DecidableEq, Repr, Inhabited

/-- The TILE field of a stitch with the lane format that governs it (R162, R172). -/
structure TileArgs where
  fmt : LaneFmt
  acc : Bool
  a : Sel
  b : Sel
  row : BitVec 7
  plane : Bool
  deriving DecidableEq, Repr, Inhabited

/-- Conditions of the micro sequencer (R163). -/
inductive Cond where
  | always | any | all | none
  | zero (n : BitVec 2)
  | nvf
  | reserved (code : BitVec 4)
  deriving DecidableEq, Repr, Inhabited

/-- A command packet of a host queue (R335). -/
structure Packet where
  op : BitVec 8
  flags : BitVec 8
  zero2 : BitVec 16
  pasid : BitVec 32
  tag : Word
  w0 : Word
  w1 : Word
  w2 : Word
  w3 : Word
  w4 : Word
  w5 : Word
  deriving DecidableEq, Repr, Inhabited

/-- Device registers that have no table row of their own (R15, R201, R329, R345, R346), the management window (R355), and the
tables and the memory of the hypervisor core, which only it writes (R201, R332, R333, R338). -/
inductive HubReg where
  | pfq (part : Nat)
  | xl2base (part : Nat)
  | xl2len (part : Nat)
  | hzframe
  | hzcount
  | alarmcfg
  /-- an offset of the management window -/
  | window (offset : Nat)
  /-- the partition that holds a virtual function (log entry 9) -/
  | function (fn : Nat)
  /-- 8 bytes of the 32-byte entry of a queue interface (R333) -/
  | queue (fn q i : Nat)
  /-- 8 bytes of an entry of the remapping table (R338) -/
  | remap (fn vec i : Nat)
  /-- an aligned word of hypervisor memory -/
  | memory (addr : Nat)
  /-- the number of members of a collective group of a partition (0), or a member by its rank from 1 on (R299) -/
  | group (part g i : Nat)
  /-- 8 bytes of the steps of a program of the step store (R301) -/
  | program (part n i : Nat)
  /-- 8 bytes of an entry of the filter table (R339) -/
  | filter (n i : Nat)
  /-- the queue of a bounce channel (0), or the copy channel that is to copy its next slot (1) (R351) -/
  | bounce (fn n i : Nat)
  /-- an aligned word of host memory, which the host writes (R235) -/
  | host (addr : Nat)
  deriving DecidableEq, Repr, Inhabited

/-- What the host, the hypervisor core or the service core may read: the configuration space of a function (R332), the notify
page of a function with the rest of its BAR0 (R331, R334), and the device registers (R15, R329, R344 to R346, R355). -/
inductive OutsideRead where
  | config (fn offset : Nat)
  | bar0 (fn offset : Nat)
  | hub (r : HubReg)
  | phc (part : Nat)
  | ps3r (part n : Nat)
  | pqos (part : Nat)
  | tagbase (stack : Nat)
  | hzctl
  deriving DecidableEq, Repr, Inhabited

/-- A register named by a REGISTER_WRITE: one of the hub, or a control register of the focus context (R15, R435). -/
inductive RegTarget where
  | hub (r : HubReg)
  | ctx (creg : BitVec 12)
  deriving DecidableEq, Repr, Inhabited

/-- The engines that advance rings (R230, R289, R291). -/
inductive EngineId where
  /-- the copy channel of a platform -/
  | copy (core plat : Nat)
  /-- the marshalling engine of a cluster -/
  | marshal (cluster : Nat)
  /-- a member of a collective operation -/
  | collective (op rank : Nat)
  /-- the cipher engine of a core -/
  | cipher (core : Nat)
  deriving DecidableEq, Repr, Inhabited

/-- The queues of the deadlock rules (R325). -/
inductive QueueId where
  | cmd (core plat : Nat)
  | arrival (core plat : Nat)
  /-- the input queue of a cluster's copy engine, of its marshalling engine, of a core's cipher engine, of the collective
  engine or of a die's fitting engine: 0 to 4, with the engine's own number -/
  | engine (kind number : Nat)
  deriving DecidableEq, Repr, Inhabited

/-- A message for an interchange queue (R339). -/
structure Message where
  src : Nat
  dst : Nat
  srcAddr : Nat
  dstAddr : Nat
  size : Nat
  /-- the message is bound for another world than its plaintext lines' (R342) -/
  otherWorld : Bool
  /-- the sender's command: its function, queue and packet -/
  fn : Nat
  q : Nat
  packet : Packet
  deriving DecidableEq, Repr, Inhabited

/-- One constructor per row of spec/opcode_table.json. -/
inductive Instr where
  -- C slot (R79, R101)
  | nop
  | br (g : Guard) (off : BitVec 24)
  | brx (g : Guard) (xa : BitVec 6)
  | call (g : Guard) (off : BitVec 24)
  | callx (g : Guard) (xa : BitVec 6)
  | ret (g : Guard)
  | halt (g : Guard)
  | yield (g : Guard)
  | park (g : Guard)
  | tret (g : Guard)
  | axleave (g : Guard)
  | loop (g : Guard) (xa : BitVec 6) (off : BitVec 16)
  | loopi (g : Guard) (count : BitVec 16) (off : BitVec 16)
  | trap (g : Guard) (imm : BitVec 16)
  | svc (g : Guard) (imm : BitVec 16)
  | fence (g : Guard) (pred succ : ClassSet) (scope : Scope)
  | drain (g : Guard) (scope : Scope)
  | barc (g : Guard) (xa : BitVec 6)
  | axenter (g : Guard) (id : BitVec 6) (off : BitVec 16)
  | getc (g : Guard) (xd : BitVec 6) (creg : BitVec 12)
  | setc (g : Guard) (creg : BitVec 12) (xa : BitVec 6)
  | setci (g : Guard) (creg : BitVec 12) (imm : BitVec 16)
  -- X slot (R80, R102)
  | add (g : Guard) (xd xa xb : BitVec 6)
  | sub (g : Guard) (xd xa xb : BitVec 6)
  | addi (g : Guard) (xd xa : BitVec 6) (imm : BitVec 16)
  | mul (g : Guard) (xd xa xb : BitVec 6)
  | mulh (g : Guard) (xd xa xb : BitVec 6)
  | mulhu (g : Guard) (xd xa xb : BitVec 6)
  | div (g : Guard) (xd xa xb : BitVec 6)
  | divu (g : Guard) (xd xa xb : BitVec 6)
  | rem (g : Guard) (xd xa xb : BitVec 6)
  | remu (g : Guard) (xd xa xb : BitVec 6)
  | and (g : Guard) (xd xa xb : BitVec 6)
  | or (g : Guard) (xd xa xb : BitVec 6)
  | xor (g : Guard) (xd xa xb : BitVec 6)
  | andi (g : Guard) (xd xa : BitVec 6) (imm : BitVec 16)
  | ori (g : Guard) (xd xa : BitVec 6) (imm : BitVec 16)
  | xori (g : Guard) (xd xa : BitVec 6) (imm : BitVec 16)
  | shl (g : Guard) (xd xa xb : BitVec 6)
  | shr (g : Guard) (xd xa xb : BitVec 6)
  | sra (g : Guard) (xd xa xb : BitVec 6)
  | shli (g : Guard) (xd xa : BitVec 6) (imm : BitVec 6)
  | shri (g : Guard) (xd xa : BitVec 6) (imm : BitVec 6)
  | srai (g : Guard) (xd xa : BitVec 6) (imm : BitVec 6)
  | min (g : Guard) (xd xa xb : BitVec 6)
  | max (g : Guard) (xd xa xb : BitVec 6)
  | minu (g : Guard) (xd xa xb : BitVec 6)
  | maxu (g : Guard) (xd xa xb : BitVec 6)
  | clz (g : Guard) (xd xa : BitVec 6)
  | popc (g : Guard) (xd xa : BitVec 6)
  | li (g : Guard) (xd : BitVec 6) (imm : BitVec 28)
  | lih (g : Guard) (xd : BitVec 6) (imm : BitVec 28)
  | sel (g : Guard) (xd : BitVec 6) (pa : BitVec 4) (xa xb : BitVec 6)
  | cmpeq (g : Guard) (pd : BitVec 4) (xa xb : BitVec 6)
  | cmpne (g : Guard) (pd : BitVec 4) (xa xb : BitVec 6)
  | cmplt (g : Guard) (pd : BitVec 4) (xa xb : BitVec 6)
  | cmpltu (g : Guard) (pd : BitVec 4) (xa xb : BitVec 6)
  | cmple (g : Guard) (pd : BitVec 4) (xa xb : BitVec 6)
  | cmpleu (g : Guard) (pd : BitVec 4) (xa xb : BitVec 6)
  | cmpeqi (g : Guard) (pd : BitVec 4) (xa : BitVec 6) (imm : BitVec 16)
  | cmplti (g : Guard) (pd : BitVec 4) (xa : BitVec 6) (imm : BitVec 16)
  | pand (g : Guard) (pd pa pb : BitVec 4)
  | por (g : Guard) (pd pa pb : BitVec 4)
  | pxor (g : Guard) (pd pa pb : BitVec 4)
  | pnot (g : Guard) (pd pa : BitVec 4)
  | movxa (g : Guard) (ad : BitVec 5) (xa : BitVec 6)
  | movax (g : Guard) (xd : BitVec 6) (aa : BitVec 5)
  -- A slot (R81, R103)
  | aadd (g : Guard) (ad ab : BitVec 5) (xa : BitVec 6)
  | aaddi (g : Guard) (ad ab : BitVec 5) (imm : BitVec 29)
  | ali (g : Guard) (ad : BitVec 5) (imm : BitVec 45)
  | vld (g : Guard) (vd : BitVec 11) (aa : BitVec 5) (off : BitVec 10)
  | vst (g : Guard) (va : BitVec 11) (aa : BitVec 5) (off : BitVec 10)
  | vlds (g : Guard) (vd : BitVec 11) (aa : BitVec 5) (off : BitVec 10)
  | vsts (g : Guard) (va : BitVec 11) (aa : BitVec 5) (off : BitVec 10)
  | vldr (g : Guard) (vd : BitVec 11) (aa : BitVec 5) (off : BitVec 10)
  | vstr (g : Guard) (va : BitVec 11) (aa : BitVec 5) (off : BitVec 10)
  | vgath (g : Guard) (sz : Sz) (vd : BitVec 11) (aa : BitVec 5) (vi : BitVec 11)
  | vscat (g : Guard) (sz : Sz) (va : BitVec 11) (aa : BitVec 5) (vi : BitVec 11)
  | ldx (g : Guard) (sz : Sz) (xd : BitVec 6) (aa : BitVec 5) (off : BitVec 10)
  | stx (g : Guard) (sz : Sz) (xa : BitVec 6) (aa : BitVec 5) (off : BitVec 10)
  | mld (g : Guard) (md : BitVec 8) (aa : BitVec 5) (off : BitVec 10)
  | mst (g : Guard) (ma : BitVec 8) (aa : BitVec 5) (off : BitVec 10)
  | tld (g : Guard) (ad ab : BitVec 5) (xa : BitVec 6)
  | tst (g : Guard) (ad ab : BitVec 5) (xa : BitVec 6)
  | scopy (g : Guard) (ad ab : BitVec 5) (xa : BitVec 6)
  | winset (g : Guard) (aa : BitVec 5) (va : BitVec 11)
  | amoadd (g : Guard) (dbl : Bool) (xd : BitVec 6) (aa : BitVec 5) (xn : BitVec 6)
  | amoand (g : Guard) (dbl : Bool) (xd : BitVec 6) (aa : BitVec 5) (xn : BitVec 6)
  | amoor (g : Guard) (dbl : Bool) (xd : BitVec 6) (aa : BitVec 5) (xn : BitVec 6)
  | amomin (g : Guard) (dbl : Bool) (xd : BitVec 6) (aa : BitVec 5) (xn : BitVec 6)
  | amomax (g : Guard) (dbl : Bool) (xd : BitVec 6) (aa : BitVec 5) (xn : BitVec 6)
  | amoswap (g : Guard) (dbl : Bool) (xd : BitVec 6) (aa : BitVec 5) (xn : BitVec 6)
  | amocas (g : Guard) (dbl : Bool) (xd : BitVec 6) (aa : BitVec 5) (xn : BitVec 6)
  -- V slots (R82, R104)
  | vadd (g : Guard) (f : Fmt) (rm : Rm) (sat : Bool) (vd va vb : BitVec 11)
  | vsub (g : Guard) (f : Fmt) (rm : Rm) (sat : Bool) (vd va vb : BitVec 11)
  | vmul (g : Guard) (f : Fmt) (rm : Rm) (sat : Bool) (vd va vb : BitVec 11)
  | vfma (g : Guard) (f : Fmt) (rm : Rm) (sat : Bool) (vd va vb vc : BitVec 11)
  | vfms (g : Guard) (f : Fmt) (rm : Rm) (sat : Bool) (vd va vb vc : BitVec 11)
  | vmin (g : Guard) (f : Fmt) (vd va vb : BitVec 11)
  | vmax (g : Guard) (f : Fmt) (vd va vb : BitVec 11)
  | vcmpeq (g : Guard) (f : Fmt) (vd va vb : BitVec 11)
  | vcmplt (g : Guard) (f : Fmt) (vd va vb : BitVec 11)
  | vcmple (g : Guard) (f : Fmt) (vd va vb : BitVec 11)
  | vperm (g : Guard) (f : Fmt) (vd va vb : BitVec 11)
  | vrot (g : Guard) (f : Fmt) (vd va : BitVec 11) (imm : BitVec 16)
  | vshl (g : Guard) (f : Fmt) (vd va vb : BitVec 11)
  | vshr (g : Guard) (f : Fmt) (vd va vb : BitVec 11)
  | vsra (g : Guard) (f : Fmt) (vd va vb : BitVec 11)
  | vand (g : Guard) (vd va vb : BitVec 11)
  | vor (g : Guard) (vd va vb : BitVec 11)
  | vxor (g : Guard) (vd va vb : BitVec 11)
  | vnot (g : Guard) (vd va : BitVec 11)
  | vmov (g : Guard) (vd va : BitVec 11)
  | vsel (g : Guard) (vd va vb vc : BitVec 11)
  | vabs (g : Guard) (f : Fmt) (sat : Bool) (vd va : BitVec 11)
  | vneg (g : Guard) (f : Fmt) (sat : Bool) (vd va : BitVec 11)
  | vcvt (g : Guard) (fs ft : Fmt) (rm : Rm) (sat : Bool) (vd va : BitVec 11)
  | vbcst (g : Guard) (f : Fmt) (vd : BitVec 11) (xa : BitVec 6)
  | vinsx (g : Guard) (f : Fmt) (vd va : BitVec 11) (xa : BitVec 6) (lane : BitVec 7)
  | vextx (g : Guard) (f : Fmt) (xd : BitVec 6) (va : BitVec 11) (lane : BitVec 7)
  | viota (g : Guard) (f : Fmt) (vd : BitVec 11) (imm : BitVec 16)
  | vradd (g : Guard) (f : Fmt) (rm : Rm) (vd va : BitVec 11)
  | vrmax (g : Guard) (f : Fmt) (rm : Rm) (vd va : BitVec 11)
  | vrmin (g : Guard) (f : Fmt) (rm : Rm) (vd va : BitVec 11)
  | vscan (g : Guard) (f : Fmt) (rm : Rm) (vd va : BitVec 11)
  | vexp (g : Guard) (vd va : BitVec 11)
  | vlog (g : Guard) (vd va : BitVec 11)
  | vrcp (g : Guard) (vd va : BitVec 11)
  | vrsq (g : Guard) (vd va : BitVec 11)
  | vtanh (g : Guard) (vd va : BitVec 11)
  | vsigm (g : Guard) (vd va : BitVec 11)
  | madd (g : Guard) (md ma mb : BitVec 8)
  | msub (g : Guard) (md ma mb : BitVec 8)
  | mmul (g : Guard) (md ma mb : BitVec 8)
  | maff (g : Guard) (md ma : BitVec 8) (vb vc : BitVec 11)
  | msqr (g : Guard) (md ma : BitVec 8)
  | mmov (g : Guard) (md ma : BitVec 8)
  | mrelu (g : Guard) (md ma : BitVec 8)
  | mexp (g : Guard) (md ma : BitVec 8)
  | mform (g : Guard) (md : BitVec 8) (va vb : BitVec 11)
  | mcoll (g : Guard) (mode : CollMode) (vd : BitVec 11) (ma : BitVec 8)
  -- T slot (R83, R105)
  | tmma (g : Guard) (pl : Plane) (aA aB : BitVec 5) (xs : BitVec 6) (kcl : BitVec 4) (acc : Bool) (win : Option (BitVec 2))
  | tmmb (g : Guard) (pl : Plane) (aA aB : BitVec 5) (xs : BitVec 6) (kcl : BitVec 4) (acc : Bool)
  | tmmm (g : Guard) (aA aB : BitVec 5) (xs : BitVec 6) (kcl : BitVec 4) (acc : Bool)
  | tzero (g : Guard) (pl : Plane) (xs : BitVec 6)
  | tdrain (g : Guard) (pl : Plane) (aA : BitVec 5) (ep : Epilogue) (vb : BitVec 11)
  | tfill (g : Guard) (plane : Bool) (aA : BitVec 5)
  -- E slot (R84, R106)
  | chstart (g : Guard) (ch : BitVec 6) (aa : BitVec 5)
  | chstop (g : Guard) (ch : BitVec 6)
  | ringcfg (g : Guard) (ring : BitVec 6) (xa : BitVec 6)
  | awaitf (g : Guard) (ring : BitVec 6) (thr : BitVec 16)
  | rels (g : Guard) (ring : BitVec 6) (cnt : BitVec 16)
  | ringrd (g : Guard) (xd : BitVec 6) (ring : BitVec 6)
  | ysort (g : Guard) (aa : BitVec 5) (ring : BitVec 6) (inc : BitVec 16)
  | ygath (g : Guard) (aa : BitVec 5) (ring : BitVec 6) (inc : BitVec 16)
  | ycomb (g : Guard) (aa : BitVec 5) (ring : BitVec 6) (inc : BitVec 16)
  | xa2av (g : Guard) (aa : BitVec 5) (ring : BitVec 6) (inc : BitVec 16)
  | xar (g : Guard) (aa : BitVec 5) (ring : BitVec 6) (inc : BitVec 16)
  | xag (g : Guard) (aa : BitVec 5) (ring : BitVec 6) (inc : BitVec 16)
  | xrun (g : Guard) (aa : BitVec 5) (xa : BitVec 6) (ring : BitVec 6) (inc : BitVec 16)
  | sendh (g : Guard) (va : BitVec 11) (aa : BitVec 5) (xa : BitVec 6) (handler : BitVec 16)
  | sealL (g : Guard) (aa : BitVec 5) (xa : BitVec 6) (ring : BitVec 6) (inc : BitVec 16)
  | openL (g : Guard) (aa : BitVec 5) (xa : BitVec 6) (ring : BitVec 6) (inc : BitVec 16)
  | rqseed (g : Guard) (va : BitVec 11) (xa : BitVec 6)
  | axinv (g : Guard) (id : BitVec 6)
  | axinvAccept (core plat : Nat)
  | axqry (g : Guard) (xd : BitVec 6) (id : BitVec 6)
  | axqryReply (core plat id : Nat)
  /-- a bound-space code: class, code less 0xC0, and slot bits [79:14] as encoded (R78, R127) -/
  | boundInstruction (g : Guard) (cls : BoundClass) (code : BitVec 6) (raw : BitVec 66)
  -- device steps of the core (R525, R54, R61, R89, R92, R90, R160, R305, R304, R315, R149, R63, R65)
  | bundleIssue (core : Nat)
  | quantumExpiry (core plat : Nat)
  | timeshareHoldExpiry (core plat rank : Nat)
  | unblock (core plat : Nat)
  | fixedResultLanding (core plat : Nat)
  | loadResultArrival (core plat id : Nat)
  | routineSuspensionEnd (core : Nat)
  | microStallEnd (core : Nat)
  | asyncFault (core plat : Nat)
  | faultDelivery (core plat : Nat)
  | faultQueuePost (part : Nat)
  | stokerTurn (core : Nat)
  | arrivalDelivery (id : Nat)
  | barrierOpen (cluster b : Nat)
  -- gangs (R46 to R49), platforms leaving (R391, R62), save and restore (R60, R322)
  | launchAdmit (id : Nat)
  | contextLoad (core plat : Nat)
  | gangRelease (gang : Nat)
  | launchComplete (gang : Nat)
  | haltZeroing (core plat : Nat)
  | killZeroing (core plat : Nat)
  | contextSave (core plat : Nat)
  | restoreComplete (core plat : Nat)
  -- tile engine (R244, R247, R248, R251)
  | accumulatorSpill (core half : Nat)
  | tileBusyEnd (core half : Nat)
  | tileResultReady (core half : Nat)
  | tdrainWrite (core half : Nat)
  | tfillLoad (core half : Nat)
  -- memory (R363, R221, R429, R207)
  | amoHomePerform (core plat id : Nat)
  | remoteAccessPerform (core plat id word : Nat)
  | moveTransfer (core plat id word : Nat)
  | eccWriteback (word : Nat)
  -- engines (R292, R293, R289, R230, R423, R425, R296 to R301, R412, R326)
  | chstartAccept (core plat : Nat)
  | waybillProcess (core plat word : Nat)
  | chstopAccept (core plat : Nat)
  | ringSpaceAvailable (e : EngineId)
  | ringAdvance (e : EngineId)
  | ringcfgAccept (core plat : Nat)
  | rqseedAccept (core plat : Nat)
  | ysortExec (cluster word : Nat)
  | ygathExec (cluster word : Nat)
  | ycombExec (cluster word : Nat)
  | xa2avExec (op word : Nat)
  | xarExec (op word : Nat)
  | xagExec (op word : Nat)
  | xrunExec (op word : Nat)
  | collectiveTimeout (op : Nat)
  | sealExec (core : Nat)
  | openExec (core : Nat)
  | tabletEmit (q : QueueId)
  | tabletHop (n : Nat)
  -- fitting engine (R267, R274, R275, R281, R283)
  | regionAllocate (die n : Nat)
  | pairAccept (die : Nat)
  | trainingStep (die region : Nat)
  | evalWeightsComplete (core plat region : Nat)
  | statePush (core plat region : Nat)
  -- host commands (R334 to R351)
  | notifyTailWrite (fn offset size : Nat) (value : BitVec 32)
  | launch (fn q : Nat) (k : Packet)
  | preempt (fn q : Nat) (k : Packet)
  | resume (fn q : Nat) (k : Packet)
  | resumeskip (fn q : Nat) (k : Packet)
  | refill (fn q : Nat) (k : Packet)
  | save (fn q : Nat) (k : Packet)
  | restore (fn q : Nat) (k : Packet)
  | kill (fn q : Nat) (k : Packet)
  | revoke (fn q : Nat) (k : Packet)
  | revokeComplete (n : Nat)
  | claim (fn q : Nat) (k : Packet)
  | resync (fn q : Nat) (k : Packet)
  | attest (fn q : Nat) (k : Packet)
  | completionRecord (fn q : Nat)
  | interruptRequest (fn vec : Nat)
  | powerOn (ok0 ok1 : Bool) (digest0 digest1 : BitVec 256) (fail : BitVec 46)
  | zeroComplete
  | configRequest (r : OutsideRead)
  | functionLevelReset (fn : Nat)
  | interchangeMessage (m : Message)
  | refusedAccess (requester : Nat) (write : Bool)
  | linkRetryExhausted
  | sensorAlarm
  | deviceReset
  | powerLoopTick (input : BitVec 16)
  | overpowerTrip
  -- device and control register writes (R329, R344, R345, R355, R15, R138, R256, R147, R279, R323)
  | phcWrite (part : Nat) (v : Word)
  | ps3rWrite (part n : Nat) (v : Word)
  | pqosWrite (part : Nat) (v : Word)
  | tagbaseWrite (stack : Nat) (v : Word)
  | zero (v : Word)
  | pwrlimWrite (v : Word)
  | registerWrite (r : RegTarget) (v : Word)
  | bfmtWrite (n : BitVec 6) (v : Word)
  | mcfgWrite (v : Word)
  | rmodeWrite (v : Word)
  | axcfgWrite (v : Word)
  | axwinWrite (v : Word)
  | spareaWrite (v : Word)
  | splimWrite (v : Word)
  -- stitch: sequencer (R163)
  | seqJump (target : BitVec 13)
  | seqBrif (c : Cond) (target : BitVec 13)
  | seqLoop (n : BitVec 2) (target : BitVec 13)
  | seqCallrom (target : BitVec 13)
  | seqRetrom
  | seqEnd
  | seqRaise (c : Cond) (code : BitVec 13)
  -- stitch: lane operations (R166 to R170)
  | laneMov (l : LaneArgs)
  | laneAdd (l : LaneArgs)
  | laneSub (l : LaneArgs)
  | laneMul (l : LaneArgs)
  | laneFma (l : LaneArgs)
  | laneFnma (l : LaneArgs)
  | laneHorn (l : LaneArgs)
  | laneMin (l : LaneArgs)
  | laneMax (l : LaneArgs)
  | laneAbs (l : LaneArgs)
  | laneNeg (l : LaneArgs)
  | laneClmps (l : LaneArgs)
  | laneAnd (l : LaneArgs)
  | laneOr (l : LaneArgs)
  | laneXor (l : LaneArgs)
  | laneShl (l : LaneArgs)
  | laneShr (l : LaneArgs)
  | laneSra (l : LaneArgs)
  | laneCmplt (l : LaneArgs)
  | laneCmple (l : LaneArgs)
  | laneCmpeq (l : LaneArgs)
  | laneSel (l : LaneArgs)
  | laneSelz (l : LaneArgs)
  | laneRndi (l : LaneArgs)
  | laneCvt (l : LaneArgs)
  | laneScalb (l : LaneArgs)
  | laneMantc (l : LaneArgs)
  | laneExpc (l : LaneArgs)
  | laneRcpe (l : LaneArgs)
  | laneRsqe (l : LaneArgs)
  | laneRecs (l : LaneArgs)
  | laneRsqs (l : LaneArgs)
  | laneResd (l : LaneArgs)
  | laneFixrcp (l : LaneArgs)
  | laneFixrsq (l : LaneArgs)
  | laneFixlog (l : LaneArgs)
  | laneNcdf (l : LaneArgs)
  | laneNpdf (l : LaneArgs)
  | laneNscl (l : LaneArgs)
  | laneRadd (l : LaneArgs)
  | laneRmax (l : LaneArgs)
  | laneBce (l : LaneArgs)
  | laneNetu (l : LaneArgs)
  | laneFmab (l : LaneArgs)
  -- stitch: address generator, tile and miscellaneous fields (R171 to R173)
  | aguLd (u : AguArgs)
  | aguSt (u : AguArgs)
  | aguLdc (u : AguArgs)
  | aguStc (u : AguArgs)
  | tileFeed (t : TileArgs)
  | tileDrow (t : TileArgs)
  | tileFrow (t : TileArgs)
  | miscCld (n : BitVec 2) (lit : Option (BitVec 16))
  | miscRpop
  | miscNegin (l : LaneArgs)
  | miscNegchk (l : LaneArgs)
  -- hub (R338, R348)
  | interruptUnmask (fn vec : Nat)
  | adapterSlotRelease (part slot : Nat)
  deriving DecidableEq, Repr, Inhabited

/-- The slots of a bundle, in the order C, X, A, V0, V1, T, E (R99); `toNat` gives the record's SLOT (R308). -/
inductive SlotId where
  | c | x | a | v0 | v1 | t | e
  deriving DecidableEq, Repr, Inhabited

/-- The header of a bundle (R72). -/
structure Header where
  pe : Nat
  pt : Nat
  pa : Nat
  pv1 : Nat
  pv0 : Nat
  rq : Bool
  sp : Bool
  deriving DecidableEq, Repr, Inhabited

/-- A decoded bundle: its header and what each slot holds, `none` for an all-zero slot (R70, R71). -/
structure Bundle where
  hdr : Header
  slots : List (SlotId × Instr)
  deriving DecidableEq, Repr, Inhabited

/-- The sequencing of a stitch (R163); `none` stands for no condition or target read. -/
inductive Seq where
  | next
  | jump (target : BitVec 13)
  | brif (c : Cond) (target : BitVec 13)
  | loop (n : BitVec 2) (target : BitVec 13)
  | callrom (target : BitVec 13)
  | retrom
  | stop
  | raise (c : Cond) (code : BitVec 13)
  deriving DecidableEq, Repr, Inhabited

/-- A decoded stitch (R162): the operations of its units, each with its code of R166, R171 or R172. -/
structure Stitch where
  seq : Seq
  lane : Option (Nat × LaneArgs)
  agu : Option (Nat × AguArgs)
  tile : Option (Nat × TileArgs)
  /-- CLD and its counter (R173) -/
  cld : Option (BitVec 2)
  rpop : Bool
  negin : Bool
  negchk : Bool
  /-- source A of the LANE field, with its format, for NEGIN and NEGCHK -/
  neg : LaneArgs
  /-- the 32-bit literal, where LIT = 1 -/
  lit : Option (BitVec 32)
  deriving DecidableEq, Repr, Inhabited

end Sys2Proof
end

