-- ==== Sys2Proof/WellFormed.lean ====
section
/-! DEFINITION. Which instructions are well formed: the field rules of R79 to R84, R162 to R173 and of the instruction
entries that the core's encoding check (R99) or a stitch's MICRO check (R175) enforces, and the ranges of the numbers a
device step names (R21, R65, R266, R302, R333). -/
namespace Sys2Proof

/-! ## Fields of slot instructions -/

/-- The format is one of the integer formats (R448). -/
def Fmt.isInt : Fmt → Bool
  | .i32 | .i16 | .i8 => true
  | .f32 | .bf16 | .f16 | .f8a | .f8b => false

/-- The control registers of the core side, less BFMT0 to BFMT63 (R387, R389). -/
def coreCregs : List Nat :=
  [0x000, 0x001, 0x002, 0x003, 0x004, 0x010, 0x011, 0x020, 0x021, 0x022, 0x030, 0x031, 0x040, 0x041, 0x050, 0x051,
   0x052, 0x053, 0x060, 0x061, 0x062, 0x063, 0x070, 0x080, 0x081, 0x090, 0x091]

/-- The number is that of BFMT0 to BFMT63 (R137). -/
def isBfmt (n : Nat) : Bool := 0x100 ≤ n && n ≤ 0x13F

/-- The control-register number is assigned (R387, R390). -/
def cregAssigned (n : Nat) : Bool := coreCregs.contains n || isBfmt n || n == 0x800

/-- The registers of which every field is RO, and the windows of R190 (R435). -/
def readOnlyCregs : List Nat :=
  [0x000, 0x001, 0x002, 0x003, 0x004, 0x010, 0x011, 0x020, 0x021, 0x022, 0x050, 0x051, 0x052, 0x053, 0x061, 0x063,
   0x070, 0x800]

/-- SETC and SETCI may name the register (R435). -/
def cregWritable (n : Nat) : Bool := cregAssigned n && !readOnlyCregs.contains n

/-- The rounding field is zero where the format is an integer format (R449). -/
def rmOk (f : Fmt) (rm : Rm) : Bool := !f.isInt || rm == .rne

/-- The registers an epilogue names from vb on: none, bias of two, bias and scale of four (R247). -/
def Epilogue.regs : Epilogue → Nat
  | .none => 0
  | .bias => 2
  | .brelu => 2
  | .sbias => 4

/-- vb is zero without an epilogue, and names registers the bank has with one (R247, R443). -/
def drainVbOk (ep : Epilogue) (vb : BitVec 11) : Bool :=
  match ep with
  | .none => vb == 0#11
  | _ => vb.toNat + ep.regs ≤ 2048

/-! ## Fields of stitches -/

/-- The lane format is a float format (R165). -/
def LaneFmt.isFloat : LaneFmt → Bool
  | .f32 | .bf16 | .f16 | .f8a | .pair => true
  | .i32 | .i16 | .i8 => false

/-- The 6-bit code of a selector (R164). -/
def Sel.code : Sel → BitVec 6
  | .h n => n.setWidth 6
  | .p n => 0x10#6 + n.setWidth 6
  | .pm n => 0x14#6 + n.setWidth 6
  | .pv n => 0x18#6 + n.setWidth 6
  | .k => 0x1C#6
  | .lane => 0x1D#6
  | .zero => 0x1E#6
  | .lit => 0x1F#6
  | .px n => 0x20#6 + n.setWidth 6
  | .one => 0x24#6
  | .neg1 => 0x25#6
  | .bad c => c

/-- The selector of a 6-bit code (R164). -/
def Sel.ofCode (c : BitVec 6) : Sel :=
  if c.toNat < 0x10 then .h (c.setWidth 4)
  else if c.toNat < 0x14 then .p (c.setWidth 2)
  else if c.toNat < 0x18 then .pm (c.setWidth 2)
  else if c.toNat < 0x1C then .pv (c.setWidth 2)
  else if c = 0x1C#6 then .k
  else if c = 0x1D#6 then .lane
  else if c = 0x1E#6 then .zero
  else if c = 0x1F#6 then .lit
  else if c.toNat < 0x24 then .px (c.setWidth 2)
  else if c = 0x24#6 then .one
  else if c = 0x25#6 then .neg1
  else .bad c

/-- A selector that may be read in the lane format: a literal needs LIT, an h operand of PAIR is even, Pn.V is not read
in PAIR (R164, R165). -/
def Sel.readable (f : LaneFmt) (litSet : Bool) : Sel → Bool
  | .h n => f != .pair || n.toNat % 2 == 0
  | .p _ | .pm _ | .k | .lane | .zero | .px _ | .one | .neg1 => true
  | .pv _ => f != .pair
  | .lit => litSet
  | .bad _ => false

/-- A selector that may be written in the lane format (R164, R165). -/
def Sel.writable (f : LaneFmt) : Sel → Bool
  | .h n => f != .pair || n.toNat % 2 == 0
  | .p _ | .pm _ | .zero => true
  | .pv _ => f != .pair
  | .k | .lane | .lit | .px _ | .one | .neg1 | .bad _ => false

/-- How an operation uses its source B field (R166). -/
inductive BUse where
  | absent | sel | raw
  deriving DecidableEq, Repr

/-- What R166 says of one lane operation: its code, the formats it admits, whether it honours bit [6], how it uses
source B, and whether its destination must be ZERO. -/
structure LaneRule where
  code : Nat
  fmts : LaneFmt → Bool
  sat : Bool
  b : BUse
  cmp : Bool

def fmtAll : LaneFmt → Bool := fun _ => true
def fmtFloat : LaneFmt → Bool := LaneFmt.isFloat
def fmtInt : LaneFmt → Bool := fun f => !f.isFloat
def fmtF32Pair : LaneFmt → Bool := fun f => f == .f32 || f == .pair
def fmtF32 : LaneFmt → Bool := fun f => f == .f32
def fmtNotPair : LaneFmt → Bool := fun f => f != .pair

/-- The rule of R166 for a lane operation code; none for 0 and the reserved codes. -/
def laneRule (code : Nat) : Option LaneRule :=
  match code with
  | 0x01 => some ⟨0x01, fmtAll, false, .absent, false⟩
  | 0x02 => some ⟨0x02, fmtAll, true, .sel, false⟩
  | 0x03 => some ⟨0x03, fmtAll, true, .sel, false⟩
  | 0x04 => some ⟨0x04, fmtAll, true, .sel, false⟩
  | 0x05 => some ⟨0x05, fmtFloat, false, .sel, false⟩
  | 0x06 => some ⟨0x06, fmtFloat, false, .sel, false⟩
  | 0x07 => some ⟨0x07, fmtFloat, false, .sel, false⟩
  | 0x08 => some ⟨0x08, fmtAll, false, .sel, false⟩
  | 0x09 => some ⟨0x09, fmtAll, false, .sel, false⟩
  | 0x0A => some ⟨0x0A, fmtAll, true, .absent, false⟩
  | 0x0B => some ⟨0x0B, fmtAll, true, .absent, false⟩
  | 0x0C => some ⟨0x0C, fmtFloat, false, .sel, false⟩
  | 0x0D => some ⟨0x0D, fmtInt, false, .sel, false⟩
  | 0x0E => some ⟨0x0E, fmtInt, false, .sel, false⟩
  | 0x0F => some ⟨0x0F, fmtInt, false, .sel, false⟩
  | 0x10 => some ⟨0x10, fmtInt, false, .sel, false⟩
  | 0x11 => some ⟨0x11, fmtInt, false, .sel, false⟩
  | 0x12 => some ⟨0x12, fmtInt, false, .sel, false⟩
  | 0x13 => some ⟨0x13, fmtAll, false, .sel, true⟩
  | 0x14 => some ⟨0x14, fmtAll, false, .sel, true⟩
  | 0x15 => some ⟨0x15, fmtAll, false, .sel, true⟩
  | 0x16 => some ⟨0x16, fmtAll, false, .sel, false⟩
  | 0x17 => some ⟨0x17, fmtAll, false, .sel, false⟩
  | 0x18 => some ⟨0x18, fmtF32Pair, false, .absent, false⟩
  | 0x19 => some ⟨0x19, fmtNotPair, true, .raw, false⟩
  | 0x1A => some ⟨0x1A, fmtF32Pair, false, .sel, false⟩
  | 0x1B => some ⟨0x1B, fmtF32, false, .absent, false⟩
  | 0x1C => some ⟨0x1C, fmtF32, false, .sel, false⟩
  | 0x1D => some ⟨0x1D, fmtF32Pair, false, .absent, false⟩
  | 0x1E => some ⟨0x1E, fmtF32Pair, false, .absent, false⟩
  | 0x1F => some ⟨0x1F, fmtF32Pair, false, .sel, false⟩
  | 0x20 => some ⟨0x20, fmtF32Pair, false, .sel, false⟩
  | 0x21 => some ⟨0x21, fmtF32Pair, false, .sel, false⟩
  | 0x22 => some ⟨0x22, fmtF32, false, .sel, false⟩
  | 0x23 => some ⟨0x23, fmtF32, false, .sel, false⟩
  | 0x24 => some ⟨0x24, fmtF32, false, .sel, false⟩
  | 0x25 => some ⟨0x25, fmtF32Pair, false, .absent, false⟩
  | 0x26 => some ⟨0x26, fmtF32Pair, false, .absent, false⟩
  | 0x27 => some ⟨0x27, fmtF32, false, .absent, false⟩
  | 0x28 => some ⟨0x28, fmtAll, false, .absent, false⟩
  | 0x29 => some ⟨0x29, fmtAll, false, .absent, false⟩
  | 0x2A => some ⟨0x2A, fmtAll, false, .raw, false⟩
  | 0x2B => some ⟨0x2B, fmtF32, false, .raw, false⟩
  | 0x2C => some ⟨0x2C, fmtF32Pair, false, .raw, false⟩
  | _ => none

/-- The lane operation an instruction is, by its code of R166, and its fields; none for any other instruction. -/
def laneParts : Instr → Option (Nat × LaneArgs)
  | .laneMov l => some (0x01, l)
  | .laneAdd l => some (0x02, l)
  | .laneSub l => some (0x03, l)
  | .laneMul l => some (0x04, l)
  | .laneFma l => some (0x05, l)
  | .laneFnma l => some (0x06, l)
  | .laneHorn l => some (0x07, l)
  | .laneMin l => some (0x08, l)
  | .laneMax l => some (0x09, l)
  | .laneAbs l => some (0x0A, l)
  | .laneNeg l => some (0x0B, l)
  | .laneClmps l => some (0x0C, l)
  | .laneAnd l => some (0x0D, l)
  | .laneOr l => some (0x0E, l)
  | .laneXor l => some (0x0F, l)
  | .laneShl l => some (0x10, l)
  | .laneShr l => some (0x11, l)
  | .laneSra l => some (0x12, l)
  | .laneCmplt l => some (0x13, l)
  | .laneCmple l => some (0x14, l)
  | .laneCmpeq l => some (0x15, l)
  | .laneSel l => some (0x16, l)
  | .laneSelz l => some (0x17, l)
  | .laneRndi l => some (0x18, l)
  | .laneCvt l => some (0x19, l)
  | .laneScalb l => some (0x1A, l)
  | .laneMantc l => some (0x1B, l)
  | .laneExpc l => some (0x1C, l)
  | .laneRcpe l => some (0x1D, l)
  | .laneRsqe l => some (0x1E, l)
  | .laneRecs l => some (0x1F, l)
  | .laneRsqs l => some (0x20, l)
  | .laneResd l => some (0x21, l)
  | .laneFixrcp l => some (0x22, l)
  | .laneFixrsq l => some (0x23, l)
  | .laneFixlog l => some (0x24, l)
  | .laneNcdf l => some (0x25, l)
  | .laneNpdf l => some (0x26, l)
  | .laneNscl l => some (0x27, l)
  | .laneRadd l => some (0x28, l)
  | .laneRmax l => some (0x29, l)
  | .laneBce l => some (0x2A, l)
  | .laneNetu l => some (0x2B, l)
  | .laneFmab l => some (0x2C, l)
  | _ => none

/-- Width in bits of an element of a lane format (R165). -/
def LaneFmt.width : LaneFmt → Nat
  | .f32 | .i32 | .pair => 32
  | .bf16 | .f16 | .i16 => 16
  | .i8 | .f8a => 8

/-- The lane format of codes 0 to 7 (R165). -/
def LaneFmt.ofCode (c : Nat) : LaneFmt :=
  match c with
  | 0 => .f32 | 1 => .bf16 | 2 => .f16 | 3 => .i32 | 4 => .i16 | 5 => .i8 | 6 => .f8a | _ => .pair

def LaneFmt.code : LaneFmt → Nat
  | .f32 => 0 | .bf16 => 1 | .f16 => 2 | .i32 => 3 | .i16 => 4 | .i8 => 5 | .f8a => 6 | .pair => 7

/-- The raw source B of CVT names a target of 0 to 6 with an admitted ratio and bits [5:4] zero; that of NETU is 0 to 15
(R167, R170). -/
def rawBOk (code : Nat) (f : LaneFmt) (b : BitVec 6) : Bool :=
  if code == 0x19 then
    let t := b.toNat % 8
    let wt := (LaneFmt.ofCode t).width
    t < 7 && b.toNat < 16 && (f.width == wt || f.width == 2 * wt || wt == 2 * f.width)
  else if code == 0x2B then b.toNat < 16
  else true

/-- The LANE field breaks no rule of R164 to R170 that its own bits decide; each item is the position of a field that
does (R175, step 2). A reserved selector in a source field that the operation does not take is not looked at (log entry 102). -/
def laneBad (r : LaneRule) (l : LaneArgs) : List Nat :=
  (if l.sat && !r.sat then [26] else []) ++
  (if r.cmp then (if l.d == .zero then [] else [27]) else if l.d.writable l.fmt then [] else [27]) ++
  (if l.a.readable l.fmt l.lit.isSome then [] else [33]) ++
  (match r.b with
    | .absent => []
    | .sel => if l.b.readable l.fmt l.lit.isSome then [] else [39]
    | .raw => if rawBOk r.code l.fmt l.b.code then [] else [39]) ++
  (if r.fmts l.fmt then [] else [45])

/-- The AGU field breaks no rule its own bits decide (R171): base 0 to 4, an OFMT other than 15, a writable register for
a load, a register, zero or constant for a store. -/
def aguBad (load lit : Bool) (u : AguArgs) : List Nat :=
  (if load then (if u.reg.writable u.fmt then [] else [52])
    else if u.reg.readable u.fmt lit then [] else [52]) ++
  (if u.base.toNat < 5 then [] else [58]) ++
  (match u.ovr with
    | some f => if f.toNat == 15 then [112] else []
    | none => [])

/-- A selector that can be the pair of a TILE field: an even h, or Pn (R172). -/
def Sel.pairOk : Sel → Bool
  | .h n => n.toNat % 2 == 0
  | .p _ => true
  | .pm _ | .pv _ | .k | .lane | .zero | .lit | .px _ | .one | .neg1 | .bad _ => false

/-- FEED takes operands in BF16, F16, F8A or I8 (R172). -/
def LaneFmt.feeds : LaneFmt → Bool
  | .bf16 | .f16 | .f8a | .i8 => true
  | .f32 | .i32 | .i16 | .pair => false

/-- The TILE field breaks no rule its own bits decide (R172); op is 1 FEED, 2 DROW, 3 FROW. -/
def tileBad (op : Nat) (t : TileArgs) : List Nat :=
  (if op == 1 && !t.fmt.feeds then [45] else []) ++
  (if op == 1 && !(t.a.readable t.fmt false) then [90] else []) ++
  (if t.b.pairOk then [] else [96])

/-- Conditions 9 to 15 are reserved (R163). -/
def Cond.ok : Cond → Bool
  | .reserved _ => false
  | .always | .any | .all | .none | .zero _ | .nvf => true

/-- A RAISE code is of the fault-code table and not 0x01 to 0x06 (R163, R303). -/
def raiseCodeOk (c : Nat) : Bool :=
  [0x07, 0x08, 0x09, 0x0A, 0x10, 0x11, 0x12, 0x13, 0x14, 0x18, 0x19, 0x1A, 0x20, 0x28, 0x30, 0x31, 0x32, 0x40].contains c

/-- The micro address lies in the control-store bank or in the ROM (R163). -/
def microRegionOk (t : Nat) : Bool := t < 0x0C00 || 0x1000 ≤ t

/-! ## Numbers of device steps -/

/-- The numbers name a core and a platform of it (R21). -/
def cpOk (core plat : Nat) : Bool := core < 384 && plat < 4

def EngineId.ok : EngineId → Bool
  | .copy c p => cpOk c p
  | .marshal cl => cl < 24
  | .collective _ _ => true
  | .cipher c => c < 384

def QueueId.ok : QueueId → Bool
  | .cmd c p | .arrival c p => cpOk c p
  | .engine k _ => k < 5

/-- A host queue is one of the 8 of a function (R333, R334). -/
def fnqOk (fn q : Nat) : Bool := fn ≤ 256 && q < 8

def HubReg.ok : HubReg → Bool
  | .pfq p | .xl2base p | .xl2len p => p < 48
  | .hzframe | .hzcount | .alarmcfg => true
  | .window off => off < 4096 && off % 8 = 0
  | .function fn => fn < 256
  | .queue fn q i => fnqOk fn q && i < 4
  | .remap fn vec i => fn ≤ 256 && vec < 64 && i < 2
  | .memory a | .host a => a % 8 = 0
  | .group p g i => p < 48 && g < 64 && i ≤ 1024
  | .program p n i => p < 48 && 16 ≤ n && n < 64 && i < 512
  | .filter n i => n < 4096 && i < 2
  | .bounce fn n i => fn ≤ 256 && n < 65536 && i < 2

/-- A read from outside names something that is there. -/
def OutsideRead.ok : OutsideRead → Bool
  | .config fn off => fn ≤ 256 && off < 4096
  | .bar0 fn off => fn ≤ 256 && off < 32768
  | .hub r => r.ok
  | .phc p | .pqos p => p < 48
  | .ps3r p n => p < 48 && n < 4
  | .tagbase st => st < 8
  | .hzctl => true

/-- The instruction breaks no rule that its own fields decide. -/
def Instr.wf : Instr → Bool
  | .bundleIssue c | .routineSuspensionEnd c | .microStallEnd c | .stokerTurn c | .sealExec c | .openExec c => c < 384
  | .quantumExpiry c p | .unblock c p | .fixedResultLanding c p | .asyncFault c p | .faultDelivery c p
  | .contextLoad c p | .haltZeroing c p | .killZeroing c p | .contextSave c p | .restoreComplete c p
  | .chstartAccept c p | .waybillProcess c p _ | .chstopAccept c p | .ringcfgAccept c p | .rqseedAccept c p
  | .axinvAccept c p => cpOk c p
  | .timeshareHoldExpiry c p _ | .loadResultArrival c p _ | .amoHomePerform c p _ | .moveTransfer c p _ _
  | .evalWeightsComplete c p _ | .statePush c p _ | .axqryReply c p _ => cpOk c p
  | .remoteAccessPerform c p _ _ => cpOk c p
  | .faultQueuePost part => part < 48
  | .arrivalDelivery _ => true
  | .barrierOpen cl b => cl < 24 && b < 32
  | .launchAdmit _ | .gangRelease _ | .launchComplete _ => true
  | .accumulatorSpill c h | .tileBusyEnd c h | .tileResultReady c h | .tdrainWrite c h | .tfillLoad c h =>
    c < 384 && h < 2
  | .eccWriteback _ => true
  | .ringSpaceAvailable e | .ringAdvance e => e.ok
  | .ysortExec cl _ | .ygathExec cl _ | .ycombExec cl _ => cl < 24
  | .xa2avExec .. | .xarExec .. | .xagExec .. | .xrunExec .. | .collectiveTimeout _ => true
  | .tabletEmit q => q.ok
  | .tabletHop _ => true
  | .regionAllocate d _ => d < 4
  | .pairAccept d => d < 4
  | .trainingStep d r => d < 4 && r < 1024
  | .notifyTailWrite fn off size _ => fn ≤ 256 && off < 4096 && size ≤ 8
  | .launch fn q _ | .preempt fn q _ | .resume fn q _ | .resumeskip fn q _ | .refill fn q _ | .save fn q _
  | .restore fn q _ | .kill fn q _ | .revoke fn q _ | .claim fn q _ | .resync fn q _ | .attest fn q _ => fnqOk fn q
  | .revokeComplete _ => true
  | .completionRecord fn q => fnqOk fn q
  | .interruptRequest fn vec | .interruptUnmask fn vec => fn ≤ 256 && vec < 64
  | .configRequest r => r.ok
  | .functionLevelReset fn => fn ≤ 256
  | .interchangeMessage _ | .refusedAccess _ _ | .linkRetryExhausted | .sensorAlarm | .powerOn .. | .deviceReset
  | .powerLoopTick _ | .overpowerTrip => true
  | .phcWrite part _ => part < 48
  | .ps3rWrite part n _ => part < 48 && n < 4
  | .pqosWrite part _ => part < 48
  | .tagbaseWrite st _ => st < 8
  | .zero _ | .zeroComplete | .pwrlimWrite _ => true
  | .registerWrite t _ => match t with
    | .hub r => r.ok
    | .ctx n => cregWritable n.toNat
  | .bfmtWrite .. | .mcfgWrite _ | .rmodeWrite _ | .axcfgWrite _ | .axwinWrite _ | .spareaWrite _ | .splimWrite _ => true
  | .nop | .br .. | .brx .. | .call .. | .callx .. | .ret _ | .halt _ | .yield _ | .park _ | .tret _ | .axleave _ => true
  | .loop _ _ off => 1 ≤ off.toInt
  | .loopi _ _ off => 1 ≤ off.toInt
  | .trap .. | .svc .. | .fence .. | .drain .. | .barc .. | .axenter .. => true
  | .getc _ _ creg => cregAssigned creg.toNat
  | .setc _ creg _ => cregWritable creg.toNat
  | .setci _ creg _ => cregWritable creg.toNat
  | .add .. | .sub .. | .addi .. | .mul .. | .mulh .. | .mulhu .. | .div .. | .divu .. | .rem .. | .remu .. | .and ..
  | .or .. | .xor .. | .andi .. | .ori .. | .xori .. | .shl .. | .shr .. | .sra .. | .shli .. | .shri .. | .srai ..
  | .min .. | .max .. | .minu .. | .maxu .. | .clz .. | .popc .. | .li .. | .lih .. | .sel .. | .cmpeq .. | .cmpne ..
  | .cmplt .. | .cmpltu .. | .cmple .. | .cmpleu .. | .cmpeqi .. | .cmplti .. | .pand .. | .por .. | .pxor .. | .pnot ..
  | .movxa .. | .movax .. => true
  | .aadd .. | .aaddi .. | .ali .. | .vld .. | .vst .. | .vlds .. | .vsts .. | .vldr .. | .vstr .. | .vgath .. | .vscat ..
  | .ldx .. | .stx .. | .mld .. | .mst .. | .tld .. | .tst .. | .scopy .. | .winset .. | .amoadd .. | .amoand ..
  | .amoor .. | .amomin .. | .amomax .. | .amoswap .. | .amocas .. => true
  | .vadd _ f rm .. | .vsub _ f rm .. | .vmul _ f rm .. | .vfma _ f rm .. | .vfms _ f rm .. => rmOk f rm
  | .vmin .. | .vmax .. | .vcmpeq .. | .vcmplt .. | .vcmple .. | .vperm .. | .vrot .. => true
  | .vshl _ f .. | .vshr _ f .. | .vsra _ f .. => f.isInt
  | .vand .. | .vor .. | .vxor .. | .vnot .. | .vmov .. | .vsel .. => true
  | .vabs _ f sat _ _ | .vneg _ f sat _ _ => f.isInt || !sat
  | .vcvt _ fs ft rm _ _ _ => !(fs.isInt && ft.isInt) || rm == .rne
  | .vbcst .. | .viota .. => true
  | .vinsx _ _ _ _ _ lane | .vextx _ _ _ _ lane => lane.toNat < 96
  | .vradd _ f rm _ _ | .vscan _ f rm _ _ => rmOk f rm
  | .vrmax _ _ rm _ _ | .vrmin _ _ rm _ _ => rm == .rne
  | .vexp .. | .vlog .. | .vrcp .. | .vrsq .. | .vtanh .. | .vsigm .. => true
  | .madd .. | .msub .. | .mmul .. | .maff .. | .msqr .. | .mmov .. | .mrelu .. | .mexp .. | .mform .. => true
  | .mcoll _ mode vd _ => mode == .sample || vd.toNat < 2047
  | .tmma _ _ _ _ _ kcl _ _ => kcl.toNat < 11
  | .tmmb _ pl _ _ _ kcl _ => kcl.toNat < 11 && pl != .z01
  | .tmmm _ _ _ _ kcl _ => kcl.toNat < 11
  | .tzero .. | .tfill .. => true
  | .tdrain _ _ _ ep vb => drainVbOk ep vb
  | .chstart .. | .chstop .. | .ringcfg .. | .awaitf .. | .rels .. | .ringrd .. | .ysort .. | .ygath .. | .ycomb ..
  | .xa2av .. | .xar .. | .xag .. | .xrun .. | .sendh .. | .sealL .. | .openL .. | .rqseed .. | .axinv .. | .axqry .. => true
  | .boundInstruction _ cls _ raw => cls != .a || raw.toNat < 2 ^ 50
  | .seqJump t => microRegionOk t.toNat
  | .seqBrif c t => c.ok && microRegionOk t.toNat
  | .seqLoop _ t => microRegionOk t.toNat
  | .seqCallrom t => 0x1000 ≤ t.toNat
  | .seqRetrom | .seqEnd => true
  | .seqRaise c code => c.ok && raiseCodeOk (code.toNat % 256)
  | i@(.laneMov _) | i@(.laneAdd _) | i@(.laneSub _) | i@(.laneMul _) | i@(.laneFma _) | i@(.laneFnma _)
  | i@(.laneHorn _) | i@(.laneMin _) | i@(.laneMax _) | i@(.laneAbs _) | i@(.laneNeg _) | i@(.laneClmps _)
  | i@(.laneAnd _) | i@(.laneOr _) | i@(.laneXor _) | i@(.laneShl _) | i@(.laneShr _) | i@(.laneSra _)
  | i@(.laneCmplt _) | i@(.laneCmple _) | i@(.laneCmpeq _) | i@(.laneSel _) | i@(.laneSelz _) | i@(.laneRndi _)
  | i@(.laneCvt _) | i@(.laneScalb _) | i@(.laneMantc _) | i@(.laneExpc _) | i@(.laneRcpe _) | i@(.laneRsqe _)
  | i@(.laneRecs _) | i@(.laneRsqs _) | i@(.laneResd _) | i@(.laneFixrcp _) | i@(.laneFixrsq _) | i@(.laneFixlog _)
  | i@(.laneNcdf _) | i@(.laneNpdf _) | i@(.laneNscl _) | i@(.laneRadd _) | i@(.laneRmax _) | i@(.laneBce _)
  | i@(.laneNetu _) | i@(.laneFmab _) =>
    match laneParts i with
    | some (code, l) =>
      match laneRule code with
      | some r => (laneBad r l).isEmpty
      | none => false
    | none => false
  | .aguLd u | .aguLdc u => (aguBad true true u).isEmpty
  | .aguSt u | .aguStc u => (aguBad false true u).isEmpty
  | .tileFeed t => (tileBad 1 t).isEmpty
  | .tileDrow t => (tileBad 2 t).isEmpty
  | .tileFrow t => (tileBad 3 t).isEmpty
  | .miscCld .. | .miscRpop => true
  | .miscNegin l | .miscNegchk l => l.a.readable l.fmt l.lit.isSome
  | .adapterSlotRelease part slot => part < 48 && slot < 4096

end Sys2Proof
end

