-- ==== Sys2Proof/Decode.lean ====
section
/-! DEFINITION. Decoding bundles and stitches, total on any bits, and encoding instructions, both from the encoding
tables R70 to R84, R100 to R107, R127, R162 to R173 and the instruction entries. -/
namespace Sys2Proof

/-- The field of width n at position lo of a slot (R4, R17). -/
def fld (raw : SlotBits) (lo n : Nat) : BitVec n := raw.extractLsb' lo n

/-- A field placed at position lo of a slot. -/
def put {n : Nat} (lo : Nat) (v : BitVec n) : SlotBits := v.setWidth 80 <<< lo

/-- A one-bit field. -/
def putB (lo : Nat) (b : Bool) : SlotBits := put lo (BitVec.ofBool b)
def fldB (raw : SlotBits) (lo : Nat) : Bool := raw.getLsbD lo

/-- The position of the lowest set bit of a non-zero value. -/
def lowBit (v : Nat) : Nat :=
  ((List.range 512).find? (fun i => v.testBit i)).getD 0

/-! ## Codes of operand fields -/

def Fmt.code : Fmt → BitVec 3
  | .f32 => 0 | .bf16 => 1 | .f16 => 2 | .i32 => 3 | .i16 => 4 | .i8 => 5 | .f8a => 6 | .f8b => 7
def Fmt.ofCode (c : BitVec 3) : Fmt :=
  match c.toNat with
  | 0 => .f32 | 1 => .bf16 | 2 => .f16 | 3 => .i32 | 4 => .i16 | 5 => .i8 | 6 => .f8a | _ => .f8b
def Rm.code : Rm → BitVec 2
  | .rne => 0 | .rtz => 1 | .sr => 2 | .dyn => 3
def Rm.ofCode (c : BitVec 2) : Rm :=
  match c.toNat with
  | 0 => .rne | 1 => .rtz | 2 => .sr | _ => .dyn
def Plane.code : Plane → BitVec 2
  | .z0 => 0 | .z1 => 1 | .z01 => 2
/-- pl 3 is ILLEGAL (R83); the decoder lists it and reads z0 in its place. -/
def Plane.ofCode (c : BitVec 2) : Plane :=
  match c.toNat with
  | 1 => .z1 | 2 => .z01 | _ => .z0
def Scope.code : Scope → BitVec 3
  | .core => 0 | .cluster => 1 | .die => 2 | .package => 3 | .fabric => 4 | .system => 5
def Scope.ofCode (c : BitVec 3) : Scope :=
  match c.toNat with
  | 1 => .cluster | 2 => .die | 3 => .package | 4 => .fabric | 5 => .system | _ => .core
def Sz.code : Sz → BitVec 2
  | .b => 0 | .h => 1 | .w => 2 | .d => 3
def Sz.ofCode (c : BitVec 2) : Sz :=
  match c.toNat with
  | 0 => .b | 1 => .h | 2 => .w | _ => .d
def ClassSet.code (c : ClassSet) : BitVec 4 :=
  BitVec.ofBool c.e ++ BitVec.ofBool c.a ++ BitVec.ofBool c.w ++ BitVec.ofBool c.r
def ClassSet.ofCode (c : BitVec 4) : ClassSet := ⟨c.getLsbD 0, c.getLsbD 1, c.getLsbD 2, c.getLsbD 3⟩
def Epilogue.code : Epilogue → BitVec 4
  | .none => 0 | .bias => 1 | .brelu => 2 | .sbias => 3
def Epilogue.ofCode (c : BitVec 4) : Epilogue :=
  match c.toNat with
  | 1 => .bias | 2 => .brelu | 3 => .sbias | _ => .none
def CollMode.code : CollMode → BitVec 16
  | .mv => 0 | .msd => 1 | .sample => 2
def CollMode.ofCode (c : BitVec 16) : CollMode :=
  match c.toNat with
  | 1 => .msd | 2 => .sample | _ => .mv

/-- sz of an AMO: 3 for .D, 2 for .W (R81). -/
def amoSz (dbl : Bool) : BitVec 2 := if dbl then 3 else 2

/-- win and wd of a TMMA, [39:37] (R83). -/
def winCode (w : Option (BitVec 2)) : BitVec 3 :=
  match w with
  | none => 0
  | some d => d ++ 1#1
def winOfCode (c : BitVec 3) : Option (BitVec 2) :=
  if c.getLsbD 0 then some (c.extractLsb' 1 2) else none

/-! ## Slots -/

/-- Opcode and guard, [12:0] of every slot (R77). -/
def head (op : BitVec 8) (g : Guard) : SlotBits := put 0 op ||| put 8 g.pg ||| putB 12 g.pn

def readGuard (raw : SlotBits) : Guard := ⟨fld raw 8 4, fldB raw 12⟩

/-- The slot class of an instruction, V0 for the V class; none for an instruction that stands in no slot (R101 to R106). -/
def Instr.slot : Instr → Option SlotId

  | .nop | .ret _ | .halt _ | .yield _ | .park _ | .tret _ | .axleave _ | .br .. | .call .. | .brx .. | .callx ..
  | .barc .. | .loop .. | .loopi .. | .trap .. | .svc .. | .fence .. | .drain .. | .axenter .. | .getc ..
  | .setc .. | .setci .. => some .c
  | .add .. | .sub .. | .mul .. | .mulh .. | .mulhu .. | .div .. | .divu .. | .rem .. | .remu .. | .and .. | .or ..
  | .xor .. | .shl .. | .shr .. | .sra .. | .min .. | .max .. | .minu .. | .maxu .. | .addi .. | .andi .. | .ori ..
  | .xori .. | .shli .. | .shri .. | .srai .. | .clz .. | .popc .. | .li .. | .lih .. | .sel .. | .cmpeq ..
  | .cmpne .. | .cmplt .. | .cmpltu .. | .cmple .. | .cmpleu .. | .cmpeqi .. | .cmplti .. | .pand .. | .por ..
  | .pxor .. | .pnot .. | .movxa .. | .movax .. => some .x
  | .aadd .. | .aaddi .. | .ali .. | .vld .. | .vst .. | .vlds .. | .vsts .. | .vldr .. | .vstr .. | .vgath ..
  | .vscat .. | .ldx .. | .stx .. | .mld .. | .mst .. | .tld .. | .tst .. | .scopy .. | .winset .. | .amoadd ..
  | .amoand .. | .amoor .. | .amomin .. | .amomax .. | .amoswap .. | .amocas .. => some .a
  | .vadd .. | .vsub .. | .vmul .. | .vfma .. | .vfms .. | .vmin .. | .vmax .. | .vcmpeq .. | .vcmplt ..
  | .vcmple .. | .vperm .. | .vshl .. | .vshr .. | .vsra .. | .vrot .. | .vand .. | .vor .. | .vxor .. | .vnot ..
  | .vmov .. | .vsel .. | .vabs .. | .vneg .. | .vcvt .. | .vbcst .. | .vinsx .. | .vextx .. | .viota ..
  | .vradd .. | .vscan .. | .vrmax .. | .vrmin .. | .vexp .. | .vlog .. | .vrcp .. | .vrsq .. | .vtanh ..
  | .vsigm .. | .madd .. | .msub .. | .mmul .. | .maff .. | .msqr .. | .mmov .. | .mrelu .. | .mexp .. | .mform ..
  | .mcoll .. => some .v0
  | .tmma .. | .tmmb .. | .tmmm .. | .tzero .. | .tdrain .. | .tfill .. => some .t
  | .chstart .. | .chstop .. | .ringcfg .. | .awaitf .. | .rels .. | .ringrd .. | .ysort .. | .ygath .. | .ycomb ..
  | .xa2av .. | .xar .. | .xag .. | .xrun .. | .sendh .. | .sealL .. | .openL .. | .rqseed .. | .axinv ..
  | .axqry .. => some .e
  | .boundInstruction _ .a .. => some .a
  | .boundInstruction _ .v .. => some .v0
  | .boundInstruction _ .t .. => some .t
  | _ => none

/-- Bits of a slot of an instruction, from R79 to R84, R101 to R106 and the instruction entries; zero for an instruction
that stands in no slot. -/
def encode : Instr → SlotBits
  | .nop => 0
  | .ret g => head 0x05 g
  | .halt g => head 0x08 g
  | .yield g => head 0x09 g
  | .park g => head 0x0A g
  | .tret g => head 0x0C g
  | .axleave g => head 0x12 g
  | .br g off => head 0x01 g ||| put 14 off
  | .call g off => head 0x03 g ||| put 14 off
  | .brx g xa => head 0x02 g ||| put 14 xa
  | .callx g xa => head 0x04 g ||| put 14 xa
  | .barc g xa => head 0x10 g ||| put 14 xa
  | .loop g xa off => head 0x06 g ||| put 14 xa ||| put 32 off
  | .loopi g count off => head 0x07 g ||| put 14 count ||| put 32 off
  | .trap g imm => head 0x0B g ||| put 32 imm
  | .svc g imm => head 0x0D g ||| put 32 imm
  | .fence g pred succ scope => head 0x0E g ||| put 14 pred.code ||| put 18 succ.code ||| put 22 scope.code
  | .drain g scope => head 0x0F g ||| put 22 scope.code
  | .axenter g id off => head 0x11 g ||| put 14 id ||| put 32 off
  | .getc g xd creg => head 0x13 g ||| put 14 xd ||| put 20 creg
  | .setc g creg xa => head 0x14 g ||| put 20 creg ||| put 14 xa
  | .setci g creg imm => head 0x15 g ||| put 20 creg ||| put 32 imm
  | .add g xd xa xb => head 0x01 g ||| put 14 xd ||| put 20 xa ||| put 26 xb
  | .sub g xd xa xb => head 0x02 g ||| put 14 xd ||| put 20 xa ||| put 26 xb
  | .mul g xd xa xb => head 0x04 g ||| put 14 xd ||| put 20 xa ||| put 26 xb
  | .mulh g xd xa xb => head 0x05 g ||| put 14 xd ||| put 20 xa ||| put 26 xb
  | .mulhu g xd xa xb => head 0x06 g ||| put 14 xd ||| put 20 xa ||| put 26 xb
  | .div g xd xa xb => head 0x07 g ||| put 14 xd ||| put 20 xa ||| put 26 xb
  | .divu g xd xa xb => head 0x08 g ||| put 14 xd ||| put 20 xa ||| put 26 xb
  | .rem g xd xa xb => head 0x09 g ||| put 14 xd ||| put 20 xa ||| put 26 xb
  | .remu g xd xa xb => head 0x0A g ||| put 14 xd ||| put 20 xa ||| put 26 xb
  | .and g xd xa xb => head 0x0B g ||| put 14 xd ||| put 20 xa ||| put 26 xb
  | .or g xd xa xb => head 0x0C g ||| put 14 xd ||| put 20 xa ||| put 26 xb
  | .xor g xd xa xb => head 0x0D g ||| put 14 xd ||| put 20 xa ||| put 26 xb
  | .shl g xd xa xb => head 0x11 g ||| put 14 xd ||| put 20 xa ||| put 26 xb
  | .shr g xd xa xb => head 0x12 g ||| put 14 xd ||| put 20 xa ||| put 26 xb
  | .sra g xd xa xb => head 0x13 g ||| put 14 xd ||| put 20 xa ||| put 26 xb
  | .min g xd xa xb => head 0x17 g ||| put 14 xd ||| put 20 xa ||| put 26 xb
  | .max g xd xa xb => head 0x18 g ||| put 14 xd ||| put 20 xa ||| put 26 xb
  | .minu g xd xa xb => head 0x19 g ||| put 14 xd ||| put 20 xa ||| put 26 xb
  | .maxu g xd xa xb => head 0x1A g ||| put 14 xd ||| put 20 xa ||| put 26 xb
  | .addi g xd xa imm => head 0x03 g ||| put 14 xd ||| put 20 xa ||| put 32 imm
  | .andi g xd xa imm => head 0x0E g ||| put 14 xd ||| put 20 xa ||| put 32 imm
  | .ori g xd xa imm => head 0x0F g ||| put 14 xd ||| put 20 xa ||| put 32 imm
  | .xori g xd xa imm => head 0x10 g ||| put 14 xd ||| put 20 xa ||| put 32 imm
  | .shli g xd xa imm => head 0x14 g ||| put 14 xd ||| put 20 xa ||| put 32 imm
  | .shri g xd xa imm => head 0x15 g ||| put 14 xd ||| put 20 xa ||| put 32 imm
  | .srai g xd xa imm => head 0x16 g ||| put 14 xd ||| put 20 xa ||| put 32 imm
  | .clz g xd xa => head 0x1B g ||| put 14 xd ||| put 20 xa
  | .popc g xd xa => head 0x1C g ||| put 14 xd ||| put 20 xa
  | .li g xd imm => head 0x1D g ||| put 14 xd ||| put 20 imm
  | .lih g xd imm => head 0x1E g ||| put 14 xd ||| put 20 imm
  | .sel g xd pa xa xb => head 0x1F g ||| put 14 xd ||| put 32 pa ||| put 20 xa ||| put 26 xb
  | .cmpeq g pd xa xb => head 0x20 g ||| put 14 pd ||| put 20 xa ||| put 26 xb
  | .cmpne g pd xa xb => head 0x21 g ||| put 14 pd ||| put 20 xa ||| put 26 xb
  | .cmplt g pd xa xb => head 0x22 g ||| put 14 pd ||| put 20 xa ||| put 26 xb
  | .cmpltu g pd xa xb => head 0x23 g ||| put 14 pd ||| put 20 xa ||| put 26 xb
  | .cmple g pd xa xb => head 0x24 g ||| put 14 pd ||| put 20 xa ||| put 26 xb
  | .cmpleu g pd xa xb => head 0x25 g ||| put 14 pd ||| put 20 xa ||| put 26 xb
  | .cmpeqi g pd xa imm => head 0x26 g ||| put 14 pd ||| put 20 xa ||| put 32 imm
  | .cmplti g pd xa imm => head 0x27 g ||| put 14 pd ||| put 20 xa ||| put 32 imm
  | .pand g pd pa pb => head 0x28 g ||| put 14 pd ||| put 20 pa ||| put 26 pb
  | .por g pd pa pb => head 0x29 g ||| put 14 pd ||| put 20 pa ||| put 26 pb
  | .pxor g pd pa pb => head 0x2A g ||| put 14 pd ||| put 20 pa ||| put 26 pb
  | .pnot g pd pa => head 0x2B g ||| put 14 pd ||| put 20 pa
  | .movxa g ad xa => head 0x2C g ||| put 14 ad ||| put 20 xa
  | .movax g xd aa => head 0x2D g ||| put 14 xd ||| put 20 aa
  | .aadd g ad ab xa => head 0x01 g ||| put 14 ad ||| put 19 ab ||| put 46 xa
  | .aaddi g ad ab imm => head 0x02 g ||| put 14 ad ||| put 19 ab ||| put 35 imm
  | .ali g ad imm => head 0x03 g ||| put 14 ad ||| put 19 imm
  | .vld g vd aa off => head 0x04 g ||| put 24 vd ||| put 14 aa ||| put 54 off
  | .vst g va aa off => head 0x05 g ||| put 24 va ||| put 14 aa ||| put 54 off
  | .vlds g vd aa off => head 0x06 g ||| put 24 vd ||| put 14 aa ||| put 54 off
  | .vsts g va aa off => head 0x07 g ||| put 24 va ||| put 14 aa ||| put 54 off
  | .vldr g vd aa off => head 0x0C g ||| put 24 vd ||| put 14 aa ||| put 54 off
  | .vstr g va aa off => head 0x0D g ||| put 24 va ||| put 14 aa ||| put 54 off
  | .vgath g sz vd aa vi => head 0x08 g ||| put 52 sz.code ||| put 24 vd ||| put 14 aa ||| put 35 vi
  | .vscat g sz va aa vi => head 0x09 g ||| put 52 sz.code ||| put 24 va ||| put 14 aa ||| put 35 vi
  | .ldx g sz xd aa off => head 0x0A g ||| put 52 sz.code ||| put 46 xd ||| put 14 aa ||| put 54 off
  | .stx g sz xa aa off => head 0x0B g ||| put 52 sz.code ||| put 46 xa ||| put 14 aa ||| put 54 off
  | .mld g md aa off => head 0x0E g ||| put 24 md ||| put 14 aa ||| put 54 off
  | .mst g ma aa off => head 0x0F g ||| put 24 ma ||| put 14 aa ||| put 54 off
  | .tld g ad ab xa => head 0x10 g ||| put 14 ad ||| put 19 ab ||| put 46 xa
  | .tst g ad ab xa => head 0x11 g ||| put 14 ad ||| put 19 ab ||| put 46 xa
  | .scopy g ad ab xa => head 0x12 g ||| put 14 ad ||| put 19 ab ||| put 46 xa
  | .winset g aa va => head 0x13 g ||| put 14 aa ||| put 24 va
  | .amoadd g dbl xd aa xn => head 0x18 g ||| put 52 (amoSz dbl) ||| put 46 xd ||| put 14 aa ||| put 54 xn
  | .amoand g dbl xd aa xn => head 0x19 g ||| put 52 (amoSz dbl) ||| put 46 xd ||| put 14 aa ||| put 54 xn
  | .amoor g dbl xd aa xn => head 0x1A g ||| put 52 (amoSz dbl) ||| put 46 xd ||| put 14 aa ||| put 54 xn
  | .amomin g dbl xd aa xn => head 0x1B g ||| put 52 (amoSz dbl) ||| put 46 xd ||| put 14 aa ||| put 54 xn
  | .amomax g dbl xd aa xn => head 0x1C g ||| put 52 (amoSz dbl) ||| put 46 xd ||| put 14 aa ||| put 54 xn
  | .amoswap g dbl xd aa xn => head 0x1D g ||| put 52 (amoSz dbl) ||| put 46 xd ||| put 14 aa ||| put 54 xn
  | .amocas g dbl xd aa xn => head 0x1E g ||| put 52 (amoSz dbl) ||| put 46 xd ||| put 14 aa ||| put 54 xn
  | .vadd g f rm sat vd va vb =>
    head 0x01 g ||| put 14 f.code ||| put 61 rm.code ||| putB 63 sat ||| put 17 vd ||| put 28 va ||| put 39 vb
  | .vsub g f rm sat vd va vb =>
    head 0x02 g ||| put 14 f.code ||| put 61 rm.code ||| putB 63 sat ||| put 17 vd ||| put 28 va ||| put 39 vb
  | .vmul g f rm sat vd va vb =>
    head 0x03 g ||| put 14 f.code ||| put 61 rm.code ||| putB 63 sat ||| put 17 vd ||| put 28 va ||| put 39 vb
  | .vfma g f rm sat vd va vb vc =>
    head 0x04 g ||| put 14 f.code ||| put 61 rm.code ||| putB 63 sat ||| put 17 vd ||| put 28 va ||| put 39 vb
      ||| put 50 vc
  | .vfms g f rm sat vd va vb vc =>
    head 0x05 g ||| put 14 f.code ||| put 61 rm.code ||| putB 63 sat ||| put 17 vd ||| put 28 va ||| put 39 vb
      ||| put 50 vc
  | .vmin g f vd va vb => head 0x06 g ||| put 14 f.code ||| put 17 vd ||| put 28 va ||| put 39 vb
  | .vmax g f vd va vb => head 0x07 g ||| put 14 f.code ||| put 17 vd ||| put 28 va ||| put 39 vb
  | .vcmpeq g f vd va vb => head 0x11 g ||| put 14 f.code ||| put 17 vd ||| put 28 va ||| put 39 vb
  | .vcmplt g f vd va vb => head 0x12 g ||| put 14 f.code ||| put 17 vd ||| put 28 va ||| put 39 vb
  | .vcmple g f vd va vb => head 0x13 g ||| put 14 f.code ||| put 17 vd ||| put 28 va ||| put 39 vb
  | .vperm g f vd va vb => head 0x1A g ||| put 14 f.code ||| put 17 vd ||| put 28 va ||| put 39 vb
  | .vshl g f vd va vb => head 0x0E g ||| put 14 f.code ||| put 17 vd ||| put 28 va ||| put 39 vb
  | .vshr g f vd va vb => head 0x0F g ||| put 14 f.code ||| put 17 vd ||| put 28 va ||| put 39 vb
  | .vsra g f vd va vb => head 0x10 g ||| put 14 f.code ||| put 17 vd ||| put 28 va ||| put 39 vb
  | .vrot g f vd va imm => head 0x1B g ||| put 14 f.code ||| put 17 vd ||| put 28 va ||| put 64 imm
  | .vand g vd va vb => head 0x0A g ||| put 17 vd ||| put 28 va ||| put 39 vb
  | .vor g vd va vb => head 0x0B g ||| put 17 vd ||| put 28 va ||| put 39 vb
  | .vxor g vd va vb => head 0x0C g ||| put 17 vd ||| put 28 va ||| put 39 vb
  | .vnot g vd va => head 0x0D g ||| put 17 vd ||| put 28 va
  | .vmov g vd va => head 0x16 g ||| put 17 vd ||| put 28 va
  | .vsel g vd va vb vc => head 0x14 g ||| put 17 vd ||| put 28 va ||| put 39 vb ||| put 50 vc
  | .vabs g f sat vd va => head 0x08 g ||| put 14 f.code ||| putB 63 sat ||| put 17 vd ||| put 28 va
  | .vneg g f sat vd va => head 0x09 g ||| put 14 f.code ||| putB 63 sat ||| put 17 vd ||| put 28 va
  | .vcvt g fs ft rm sat vd va =>
    head 0x15 g ||| put 14 fs.code ||| put 64 ft.code ||| put 61 rm.code ||| putB 63 sat ||| put 17 vd
      ||| put 28 va
  | .vbcst g f vd xa => head 0x17 g ||| put 14 f.code ||| put 17 vd ||| put 64 xa
  | .vinsx g f vd va xa lane =>
    head 0x18 g ||| put 14 f.code ||| put 17 vd ||| put 28 va ||| put 64 xa ||| put 70 lane
  | .vextx g f xd va lane => head 0x19 g ||| put 14 f.code ||| put 64 xd ||| put 28 va ||| put 70 lane
  | .viota g f vd imm => head 0x20 g ||| put 14 f.code ||| put 17 vd ||| put 64 imm
  | .vradd g f rm vd va => head 0x1C g ||| put 14 f.code ||| put 61 rm.code ||| put 17 vd ||| put 28 va
  | .vscan g f rm vd va => head 0x1F g ||| put 14 f.code ||| put 61 rm.code ||| put 17 vd ||| put 28 va
  | .vrmax g f rm vd va => head 0x1D g ||| put 14 f.code ||| put 61 rm.code ||| put 17 vd ||| put 28 va
  | .vrmin g f rm vd va => head 0x1E g ||| put 14 f.code ||| put 61 rm.code ||| put 17 vd ||| put 28 va
  | .vexp g vd va => head 0x30 g ||| put 17 vd ||| put 28 va
  | .vlog g vd va => head 0x31 g ||| put 17 vd ||| put 28 va
  | .vrcp g vd va => head 0x32 g ||| put 17 vd ||| put 28 va
  | .vrsq g vd va => head 0x33 g ||| put 17 vd ||| put 28 va
  | .vtanh g vd va => head 0x34 g ||| put 17 vd ||| put 28 va
  | .vsigm g vd va => head 0x35 g ||| put 17 vd ||| put 28 va
  | .madd g md ma mb => head 0x40 g ||| put 17 md ||| put 28 ma ||| put 39 mb
  | .msub g md ma mb => head 0x41 g ||| put 17 md ||| put 28 ma ||| put 39 mb
  | .mmul g md ma mb => head 0x42 g ||| put 17 md ||| put 28 ma ||| put 39 mb
  | .maff g md ma vb vc => head 0x43 g ||| put 17 md ||| put 28 ma ||| put 39 vb ||| put 50 vc
  | .msqr g md ma => head 0x44 g ||| put 17 md ||| put 28 ma
  | .mmov g md ma => head 0x47 g ||| put 17 md ||| put 28 ma
  | .mrelu g md ma => head 0x48 g ||| put 17 md ||| put 28 ma
  | .mexp g md ma => head 0x49 g ||| put 17 md ||| put 28 ma
  | .mform g md va vb => head 0x45 g ||| put 17 md ||| put 28 va ||| put 39 vb
  | .mcoll g mode vd ma => head 0x46 g ||| put 64 mode.code ||| put 17 vd ||| put 28 ma
  | .tmma g pl aA aB xs kcl acc win =>
    head 0x01 g ||| put 14 pl.code ||| put 16 aA ||| put 21 aB ||| put 26 xs ||| put 32 kcl ||| putB 36 acc
      ||| put 37 (winCode win)
  | .tmmb g pl aA aB xs kcl acc =>
    head 0x02 g ||| put 14 pl.code ||| put 16 aA ||| put 21 aB ||| put 26 xs ||| put 32 kcl ||| putB 36 acc
  | .tmmm g aA aB xs kcl acc =>
    head 0x03 g ||| put 16 aA ||| put 21 aB ||| put 26 xs ||| put 32 kcl ||| putB 36 acc ||| put 14 (2 : BitVec 2)
  | .tzero g pl xs => head 0x04 g ||| put 14 pl.code ||| put 26 xs
  | .tdrain g pl aA ep vb => head 0x05 g ||| put 14 pl.code ||| put 16 aA ||| put 51 ep.code ||| put 40 vb
  | .tfill g plane aA => head 0x06 g ||| putB 14 plane ||| put 16 aA
  | .chstart g ch aa => head 0x01 g ||| put 14 ch ||| put 20 aa
  | .chstop g ch => head 0x02 g ||| put 14 ch
  | .ringcfg g ring xa => head 0x03 g ||| put 14 ring ||| put 30 xa
  | .awaitf g ring thr => head 0x04 g ||| put 14 ring ||| put 64 thr
  | .rels g ring cnt => head 0x05 g ||| put 14 ring ||| put 64 cnt
  | .ringrd g xd ring => head 0x06 g ||| put 30 xd ||| put 14 ring
  | .ysort g aa ring inc => head 0x08 g ||| put 20 aa ||| put 14 ring ||| put 64 inc
  | .ygath g aa ring inc => head 0x09 g ||| put 20 aa ||| put 14 ring ||| put 64 inc
  | .ycomb g aa ring inc => head 0x0A g ||| put 20 aa ||| put 14 ring ||| put 64 inc
  | .xa2av g aa ring inc => head 0x10 g ||| put 20 aa ||| put 14 ring ||| put 64 inc
  | .xar g aa ring inc => head 0x11 g ||| put 20 aa ||| put 14 ring ||| put 64 inc
  | .xag g aa ring inc => head 0x12 g ||| put 20 aa ||| put 14 ring ||| put 64 inc
  | .xrun g aa xa ring inc => head 0x13 g ||| put 20 aa ||| put 30 xa ||| put 14 ring ||| put 64 inc
  | .sendh g va aa xa handler => head 0x18 g ||| put 42 va ||| put 20 aa ||| put 30 xa ||| put 64 handler
  | .sealL g aa xa ring inc => head 0x20 g ||| put 20 aa ||| put 30 xa ||| put 14 ring ||| put 64 inc
  | .openL g aa xa ring inc => head 0x21 g ||| put 20 aa ||| put 30 xa ||| put 14 ring ||| put 64 inc
  | .rqseed g va xa => head 0x28 g ||| put 42 va ||| put 30 xa
  | .axinv g id => head 0x30 g ||| put 14 id
  | .axqry g xd id => head 0x31 g ||| put 30 xd ||| put 14 id
  | .boundInstruction g _ code raw => put 0 (0b11#2 ++ code) ||| put 8 g.pg ||| putB 12 g.pn ||| put 14 raw
  | _ => 0

/-- The instruction whose opcode and fields the bits of a slot hold, for the opcodes of R101 to R106; none for a reserved
code (R100). A field value outside its range reads as another value and is listed by `slotBad`. -/
def readSlot (s : SlotId) (raw : SlotBits) : Option Instr :=
  let g := readGuard raw
  let op := (fld raw 0 8).toNat
  match s with
  | .c =>
    match op with
    | 0x01 => some (.br g (fld raw 14 24))
    | 0x02 => some (.brx g (fld raw 14 6))
    | 0x03 => some (.call g (fld raw 14 24))
    | 0x04 => some (.callx g (fld raw 14 6))
    | 0x05 => some (.ret g)
    | 0x06 => some (.loop g (fld raw 14 6) (fld raw 32 16))
    | 0x07 => some (.loopi g (fld raw 14 16) (fld raw 32 16))
    | 0x08 => some (.halt g)
    | 0x09 => some (.yield g)
    | 0x0A => some (.park g)
    | 0x0B => some (.trap g (fld raw 32 16))
    | 0x0C => some (.tret g)
    | 0x0D => some (.svc g (fld raw 32 16))
    | 0x0E => some (.fence g (ClassSet.ofCode (fld raw 14 4)) (ClassSet.ofCode (fld raw 18 4)) (Scope.ofCode
        (fld raw 22 3)))
    | 0x0F => some (.drain g (Scope.ofCode (fld raw 22 3)))
    | 0x10 => some (.barc g (fld raw 14 6))
    | 0x11 => some (.axenter g (fld raw 14 6) (fld raw 32 16))
    | 0x12 => some (.axleave g)
    | 0x13 => some (.getc g (fld raw 14 6) (fld raw 20 12))
    | 0x14 => some (.setc g (fld raw 20 12) (fld raw 14 6))
    | 0x15 => some (.setci g (fld raw 20 12) (fld raw 32 16))
    | _ => none
  | .x =>
    match op with
    | 0x01 => some (.add g (fld raw 14 6) (fld raw 20 6) (fld raw 26 6))
    | 0x02 => some (.sub g (fld raw 14 6) (fld raw 20 6) (fld raw 26 6))
    | 0x03 => some (.addi g (fld raw 14 6) (fld raw 20 6) (fld raw 32 16))
    | 0x04 => some (.mul g (fld raw 14 6) (fld raw 20 6) (fld raw 26 6))
    | 0x05 => some (.mulh g (fld raw 14 6) (fld raw 20 6) (fld raw 26 6))
    | 0x06 => some (.mulhu g (fld raw 14 6) (fld raw 20 6) (fld raw 26 6))
    | 0x07 => some (.div g (fld raw 14 6) (fld raw 20 6) (fld raw 26 6))
    | 0x08 => some (.divu g (fld raw 14 6) (fld raw 20 6) (fld raw 26 6))
    | 0x09 => some (.rem g (fld raw 14 6) (fld raw 20 6) (fld raw 26 6))
    | 0x0A => some (.remu g (fld raw 14 6) (fld raw 20 6) (fld raw 26 6))
    | 0x0B => some (.and g (fld raw 14 6) (fld raw 20 6) (fld raw 26 6))
    | 0x0C => some (.or g (fld raw 14 6) (fld raw 20 6) (fld raw 26 6))
    | 0x0D => some (.xor g (fld raw 14 6) (fld raw 20 6) (fld raw 26 6))
    | 0x0E => some (.andi g (fld raw 14 6) (fld raw 20 6) (fld raw 32 16))
    | 0x0F => some (.ori g (fld raw 14 6) (fld raw 20 6) (fld raw 32 16))
    | 0x10 => some (.xori g (fld raw 14 6) (fld raw 20 6) (fld raw 32 16))
    | 0x11 => some (.shl g (fld raw 14 6) (fld raw 20 6) (fld raw 26 6))
    | 0x12 => some (.shr g (fld raw 14 6) (fld raw 20 6) (fld raw 26 6))
    | 0x13 => some (.sra g (fld raw 14 6) (fld raw 20 6) (fld raw 26 6))
    | 0x14 => some (.shli g (fld raw 14 6) (fld raw 20 6) (fld raw 32 6))
    | 0x15 => some (.shri g (fld raw 14 6) (fld raw 20 6) (fld raw 32 6))
    | 0x16 => some (.srai g (fld raw 14 6) (fld raw 20 6) (fld raw 32 6))
    | 0x17 => some (.min g (fld raw 14 6) (fld raw 20 6) (fld raw 26 6))
    | 0x18 => some (.max g (fld raw 14 6) (fld raw 20 6) (fld raw 26 6))
    | 0x19 => some (.minu g (fld raw 14 6) (fld raw 20 6) (fld raw 26 6))
    | 0x1A => some (.maxu g (fld raw 14 6) (fld raw 20 6) (fld raw 26 6))
    | 0x1B => some (.clz g (fld raw 14 6) (fld raw 20 6))
    | 0x1C => some (.popc g (fld raw 14 6) (fld raw 20 6))
    | 0x1D => some (.li g (fld raw 14 6) (fld raw 20 28))
    | 0x1E => some (.lih g (fld raw 14 6) (fld raw 20 28))
    | 0x1F => some (.sel g (fld raw 14 6) (fld raw 32 4) (fld raw 20 6) (fld raw 26 6))
    | 0x20 => some (.cmpeq g (fld raw 14 4) (fld raw 20 6) (fld raw 26 6))
    | 0x21 => some (.cmpne g (fld raw 14 4) (fld raw 20 6) (fld raw 26 6))
    | 0x22 => some (.cmplt g (fld raw 14 4) (fld raw 20 6) (fld raw 26 6))
    | 0x23 => some (.cmpltu g (fld raw 14 4) (fld raw 20 6) (fld raw 26 6))
    | 0x24 => some (.cmple g (fld raw 14 4) (fld raw 20 6) (fld raw 26 6))
    | 0x25 => some (.cmpleu g (fld raw 14 4) (fld raw 20 6) (fld raw 26 6))
    | 0x26 => some (.cmpeqi g (fld raw 14 4) (fld raw 20 6) (fld raw 32 16))
    | 0x27 => some (.cmplti g (fld raw 14 4) (fld raw 20 6) (fld raw 32 16))
    | 0x28 => some (.pand g (fld raw 14 4) (fld raw 20 4) (fld raw 26 4))
    | 0x29 => some (.por g (fld raw 14 4) (fld raw 20 4) (fld raw 26 4))
    | 0x2A => some (.pxor g (fld raw 14 4) (fld raw 20 4) (fld raw 26 4))
    | 0x2B => some (.pnot g (fld raw 14 4) (fld raw 20 4))
    | 0x2C => some (.movxa g (fld raw 14 5) (fld raw 20 6))
    | 0x2D => some (.movax g (fld raw 14 6) (fld raw 20 5))
    | _ => none
  | .a =>
    match op with
    | 0x01 => some (.aadd g (fld raw 14 5) (fld raw 19 5) (fld raw 46 6))
    | 0x02 => some (.aaddi g (fld raw 14 5) (fld raw 19 5) (fld raw 35 29))
    | 0x03 => some (.ali g (fld raw 14 5) (fld raw 19 45))
    | 0x04 => some (.vld g (fld raw 24 11) (fld raw 14 5) (fld raw 54 10))
    | 0x05 => some (.vst g (fld raw 24 11) (fld raw 14 5) (fld raw 54 10))
    | 0x06 => some (.vlds g (fld raw 24 11) (fld raw 14 5) (fld raw 54 10))
    | 0x07 => some (.vsts g (fld raw 24 11) (fld raw 14 5) (fld raw 54 10))
    | 0x08 => some (.vgath g (Sz.ofCode (fld raw 52 2)) (fld raw 24 11) (fld raw 14 5) (fld raw 35 11))
    | 0x09 => some (.vscat g (Sz.ofCode (fld raw 52 2)) (fld raw 24 11) (fld raw 14 5) (fld raw 35 11))
    | 0x0A => some (.ldx g (Sz.ofCode (fld raw 52 2)) (fld raw 46 6) (fld raw 14 5) (fld raw 54 10))
    | 0x0B => some (.stx g (Sz.ofCode (fld raw 52 2)) (fld raw 46 6) (fld raw 14 5) (fld raw 54 10))
    | 0x0C => some (.vldr g (fld raw 24 11) (fld raw 14 5) (fld raw 54 10))
    | 0x0D => some (.vstr g (fld raw 24 11) (fld raw 14 5) (fld raw 54 10))
    | 0x0E => some (.mld g (fld raw 24 8) (fld raw 14 5) (fld raw 54 10))
    | 0x0F => some (.mst g (fld raw 24 8) (fld raw 14 5) (fld raw 54 10))
    | 0x10 => some (.tld g (fld raw 14 5) (fld raw 19 5) (fld raw 46 6))
    | 0x11 => some (.tst g (fld raw 14 5) (fld raw 19 5) (fld raw 46 6))
    | 0x12 => some (.scopy g (fld raw 14 5) (fld raw 19 5) (fld raw 46 6))
    | 0x13 => some (.winset g (fld raw 14 5) (fld raw 24 11))
    | 0x18 => some (.amoadd g (fldB raw 52) (fld raw 46 6) (fld raw 14 5) (fld raw 54 6))
    | 0x19 => some (.amoand g (fldB raw 52) (fld raw 46 6) (fld raw 14 5) (fld raw 54 6))
    | 0x1A => some (.amoor g (fldB raw 52) (fld raw 46 6) (fld raw 14 5) (fld raw 54 6))
    | 0x1B => some (.amomin g (fldB raw 52) (fld raw 46 6) (fld raw 14 5) (fld raw 54 6))
    | 0x1C => some (.amomax g (fldB raw 52) (fld raw 46 6) (fld raw 14 5) (fld raw 54 6))
    | 0x1D => some (.amoswap g (fldB raw 52) (fld raw 46 6) (fld raw 14 5) (fld raw 54 6))
    | 0x1E => some (.amocas g (fldB raw 52) (fld raw 46 6) (fld raw 14 5) (fld raw 54 6))
    | _ => if 0xC0 ≤ op then some (.boundInstruction g .a (fld raw 0 6) (fld raw 14 66)) else none
  | .v0 | .v1 =>
    match op with
    | 0x01 => some (.vadd g (Fmt.ofCode (fld raw 14 3)) (Rm.ofCode (fld raw 61 2)) (fldB raw 63)
        (fld raw 17 11) (fld raw 28 11) (fld raw 39 11))
    | 0x02 => some (.vsub g (Fmt.ofCode (fld raw 14 3)) (Rm.ofCode (fld raw 61 2)) (fldB raw 63)
        (fld raw 17 11) (fld raw 28 11) (fld raw 39 11))
    | 0x03 => some (.vmul g (Fmt.ofCode (fld raw 14 3)) (Rm.ofCode (fld raw 61 2)) (fldB raw 63)
        (fld raw 17 11) (fld raw 28 11) (fld raw 39 11))
    | 0x04 => some (.vfma g (Fmt.ofCode (fld raw 14 3)) (Rm.ofCode (fld raw 61 2)) (fldB raw 63)
        (fld raw 17 11) (fld raw 28 11) (fld raw 39 11) (fld raw 50 11))
    | 0x05 => some (.vfms g (Fmt.ofCode (fld raw 14 3)) (Rm.ofCode (fld raw 61 2)) (fldB raw 63)
        (fld raw 17 11) (fld raw 28 11) (fld raw 39 11) (fld raw 50 11))
    | 0x06 => some (.vmin g (Fmt.ofCode (fld raw 14 3)) (fld raw 17 11) (fld raw 28 11) (fld raw 39 11))
    | 0x07 => some (.vmax g (Fmt.ofCode (fld raw 14 3)) (fld raw 17 11) (fld raw 28 11) (fld raw 39 11))
    | 0x08 => some (.vabs g (Fmt.ofCode (fld raw 14 3)) (fldB raw 63) (fld raw 17 11) (fld raw 28 11))
    | 0x09 => some (.vneg g (Fmt.ofCode (fld raw 14 3)) (fldB raw 63) (fld raw 17 11) (fld raw 28 11))
    | 0x0A => some (.vand g (fld raw 17 11) (fld raw 28 11) (fld raw 39 11))
    | 0x0B => some (.vor g (fld raw 17 11) (fld raw 28 11) (fld raw 39 11))
    | 0x0C => some (.vxor g (fld raw 17 11) (fld raw 28 11) (fld raw 39 11))
    | 0x0D => some (.vnot g (fld raw 17 11) (fld raw 28 11))
    | 0x0E => some (.vshl g (Fmt.ofCode (fld raw 14 3)) (fld raw 17 11) (fld raw 28 11) (fld raw 39 11))
    | 0x0F => some (.vshr g (Fmt.ofCode (fld raw 14 3)) (fld raw 17 11) (fld raw 28 11) (fld raw 39 11))
    | 0x10 => some (.vsra g (Fmt.ofCode (fld raw 14 3)) (fld raw 17 11) (fld raw 28 11) (fld raw 39 11))
    | 0x11 => some (.vcmpeq g (Fmt.ofCode (fld raw 14 3)) (fld raw 17 11) (fld raw 28 11) (fld raw 39 11))
    | 0x12 => some (.vcmplt g (Fmt.ofCode (fld raw 14 3)) (fld raw 17 11) (fld raw 28 11) (fld raw 39 11))
    | 0x13 => some (.vcmple g (Fmt.ofCode (fld raw 14 3)) (fld raw 17 11) (fld raw 28 11) (fld raw 39 11))
    | 0x14 => some (.vsel g (fld raw 17 11) (fld raw 28 11) (fld raw 39 11) (fld raw 50 11))
    | 0x15 => some (.vcvt g (Fmt.ofCode (fld raw 14 3)) (Fmt.ofCode (fld raw 64 3)) (Rm.ofCode (fld raw 61 2))
        (fldB raw 63) (fld raw 17 11) (fld raw 28 11))
    | 0x16 => some (.vmov g (fld raw 17 11) (fld raw 28 11))
    | 0x17 => some (.vbcst g (Fmt.ofCode (fld raw 14 3)) (fld raw 17 11) (fld raw 64 6))
    | 0x18 => some (.vinsx g (Fmt.ofCode (fld raw 14 3)) (fld raw 17 11) (fld raw 28 11) (fld raw 64 6)
        (fld raw 70 7))
    | 0x19 => some (.vextx g (Fmt.ofCode (fld raw 14 3)) (fld raw 64 6) (fld raw 28 11) (fld raw 70 7))
    | 0x1A => some (.vperm g (Fmt.ofCode (fld raw 14 3)) (fld raw 17 11) (fld raw 28 11) (fld raw 39 11))
    | 0x1B => some (.vrot g (Fmt.ofCode (fld raw 14 3)) (fld raw 17 11) (fld raw 28 11) (fld raw 64 16))
    | 0x1C => some (.vradd g (Fmt.ofCode (fld raw 14 3)) (Rm.ofCode (fld raw 61 2)) (fld raw 17 11) (fld raw 28 11))
    | 0x1D => some (.vrmax g (Fmt.ofCode (fld raw 14 3)) (Rm.ofCode (fld raw 61 2)) (fld raw 17 11) (fld raw 28 11))
    | 0x1E => some (.vrmin g (Fmt.ofCode (fld raw 14 3)) (Rm.ofCode (fld raw 61 2)) (fld raw 17 11) (fld raw 28 11))
    | 0x1F => some (.vscan g (Fmt.ofCode (fld raw 14 3)) (Rm.ofCode (fld raw 61 2)) (fld raw 17 11) (fld raw 28 11))
    | 0x20 => some (.viota g (Fmt.ofCode (fld raw 14 3)) (fld raw 17 11) (fld raw 64 16))
    | 0x30 => some (.vexp g (fld raw 17 11) (fld raw 28 11))
    | 0x31 => some (.vlog g (fld raw 17 11) (fld raw 28 11))
    | 0x32 => some (.vrcp g (fld raw 17 11) (fld raw 28 11))
    | 0x33 => some (.vrsq g (fld raw 17 11) (fld raw 28 11))
    | 0x34 => some (.vtanh g (fld raw 17 11) (fld raw 28 11))
    | 0x35 => some (.vsigm g (fld raw 17 11) (fld raw 28 11))
    | 0x40 => some (.madd g (fld raw 17 8) (fld raw 28 8) (fld raw 39 8))
    | 0x41 => some (.msub g (fld raw 17 8) (fld raw 28 8) (fld raw 39 8))
    | 0x42 => some (.mmul g (fld raw 17 8) (fld raw 28 8) (fld raw 39 8))
    | 0x43 => some (.maff g (fld raw 17 8) (fld raw 28 8) (fld raw 39 11) (fld raw 50 11))
    | 0x44 => some (.msqr g (fld raw 17 8) (fld raw 28 8))
    | 0x45 => some (.mform g (fld raw 17 8) (fld raw 28 11) (fld raw 39 11))
    | 0x46 => some (.mcoll g (CollMode.ofCode (fld raw 64 16)) (fld raw 17 11) (fld raw 28 8))
    | 0x47 => some (.mmov g (fld raw 17 8) (fld raw 28 8))
    | 0x48 => some (.mrelu g (fld raw 17 8) (fld raw 28 8))
    | 0x49 => some (.mexp g (fld raw 17 8) (fld raw 28 8))
    | _ => if 0xC0 ≤ op then some (.boundInstruction g .v (fld raw 0 6) (fld raw 14 66)) else none
  | .t =>
    match op with
    | 0x01 => some (.tmma g (Plane.ofCode (fld raw 14 2)) (fld raw 16 5) (fld raw 21 5) (fld raw 26 6)
        (fld raw 32 4) (fldB raw 36) (winOfCode (fld raw 37 3)))
    | 0x02 => some (.tmmb g (Plane.ofCode (fld raw 14 2)) (fld raw 16 5) (fld raw 21 5) (fld raw 26 6)
        (fld raw 32 4) (fldB raw 36))
    | 0x03 => some (.tmmm g (fld raw 16 5) (fld raw 21 5) (fld raw 26 6) (fld raw 32 4) (fldB raw 36))
    | 0x04 => some (.tzero g (Plane.ofCode (fld raw 14 2)) (fld raw 26 6))
    | 0x05 => some (.tdrain g (Plane.ofCode (fld raw 14 2)) (fld raw 16 5) (Epilogue.ofCode (fld raw 51 4))
        (fld raw 40 11))
    | 0x06 => some (.tfill g (fldB raw 14) (fld raw 16 5))
    | _ => if 0xC0 ≤ op then some (.boundInstruction g .t (fld raw 0 6) (fld raw 14 66)) else none
  | .e =>
    match op with
    | 0x01 => some (.chstart g (fld raw 14 6) (fld raw 20 5))
    | 0x02 => some (.chstop g (fld raw 14 6))
    | 0x03 => some (.ringcfg g (fld raw 14 6) (fld raw 30 6))
    | 0x04 => some (.awaitf g (fld raw 14 6) (fld raw 64 16))
    | 0x05 => some (.rels g (fld raw 14 6) (fld raw 64 16))
    | 0x06 => some (.ringrd g (fld raw 30 6) (fld raw 14 6))
    | 0x08 => some (.ysort g (fld raw 20 5) (fld raw 14 6) (fld raw 64 16))
    | 0x09 => some (.ygath g (fld raw 20 5) (fld raw 14 6) (fld raw 64 16))
    | 0x0A => some (.ycomb g (fld raw 20 5) (fld raw 14 6) (fld raw 64 16))
    | 0x10 => some (.xa2av g (fld raw 20 5) (fld raw 14 6) (fld raw 64 16))
    | 0x11 => some (.xar g (fld raw 20 5) (fld raw 14 6) (fld raw 64 16))
    | 0x12 => some (.xag g (fld raw 20 5) (fld raw 14 6) (fld raw 64 16))
    | 0x13 => some (.xrun g (fld raw 20 5) (fld raw 30 6) (fld raw 14 6) (fld raw 64 16))
    | 0x18 => some (.sendh g (fld raw 42 11) (fld raw 20 5) (fld raw 30 6) (fld raw 64 16))
    | 0x20 => some (.sealL g (fld raw 20 5) (fld raw 30 6) (fld raw 14 6) (fld raw 64 16))
    | 0x21 => some (.openL g (fld raw 20 5) (fld raw 30 6) (fld raw 14 6) (fld raw 64 16))
    | 0x28 => some (.rqseed g (fld raw 42 11) (fld raw 30 6))
    | 0x30 => some (.axinv g (fld raw 14 6))
    | 0x31 => some (.axqry g (fld raw 30 6) (fld raw 14 6))
    | _ => none

/-- Positions, in a slot, of the fields whose value is out of its range (R79 to R84, R242, R248, R387, R435, R445,
R449 to R451, R456, R466, R468). -/
def slotBad (s : SlotId) (raw : SlotBits) : List Nat :=
  let op := (fld raw 0 8).toNat
  let when (b : Bool) (pos : Nat) : List Nat := if b then [pos] else []
  match s with
  | .c =>
    match op with
    | 0x0E | 0x0F => when (6 ≤ (fld raw 22 3).toNat) 22
    | 0x13 => when (!cregAssigned (fld raw 20 12).toNat) 20
    | 0x14 | 0x15 => when (!cregWritable (fld raw 20 12).toNat) 20
    | _ => []
  | .x => []
  | .a => when (0x18 ≤ op && op ≤ 0x1E && (fld raw 52 2).toNat < 2) 52
  | .v0 | .v1 =>
    let fmt := Fmt.ofCode (fld raw 14 3)
    let rm := (fld raw 61 2).toNat
    match op with
    | 0x01 | 0x02 | 0x03 | 0x04 | 0x05 | 0x1C | 0x1F => when (fmt.isInt && rm != 0) 61
    | 0x1D | 0x1E => when (rm != 0) 61
    | 0x15 => when (fmt.isInt && (Fmt.ofCode (fld raw 64 3)).isInt && rm != 0) 61
    | 0x0E | 0x0F | 0x10 => when (!fmt.isInt) 14
    | 0x30 | 0x31 | 0x32 | 0x33 | 0x34 | 0x35 => when (fmt != .f32) 14
    | 0x08 | 0x09 => when (!fmt.isInt && fldB raw 63) 63
    | 0x18 | 0x19 => when (96 ≤ (fld raw 70 7).toNat) 70
    | 0x46 => when (3 ≤ (fld raw 64 16).toNat) 64 ++
        when ((fld raw 64 16).toNat < 2 && (fld raw 17 11).toNat == 2047) 17
    | _ => []
  | .t =>
    let pl := (fld raw 14 2).toNat
    let kcl := when (11 ≤ (fld raw 32 4).toNat) 32
    match op with
    | 0x01 => when (pl == 3) 14 ++ kcl ++ when (!fldB raw 37 && (fld raw 38 2).toNat != 0) 38
    | 0x02 => when (2 ≤ pl) 14 ++ kcl
    | 0x03 => when (pl != 2) 14 ++ kcl
    | 0x04 => when (pl == 3) 14
    | 0x05 => when (pl == 3) 14 ++ when (4 ≤ (fld raw 51 4).toNat) 51 ++
        when ((fld raw 51 4).toNat < 4 && !drainVbOk (Epilogue.ofCode (fld raw 51 4)) (fld raw 40 11)) 40
    | 0x06 => when (2 ≤ pl) 14
    | _ => []
  | .e => []

/-- What a slot holds: nothing, an instruction with the positions of its ILLEGAL bits and fields, or a reserved code or
a non-zero opcode-0 slot with the position R99 reports (R71, R78, R99, R100). -/
inductive SlotRead where
  | empty
  | instr (i : Instr) (bad : List Nat)
  | reserved (pos : Nat)
  deriving DecidableEq, Repr

/-- The fields of a slot's class, as first and last bit (R77, R79 to R84). -/
def SlotId.fields : SlotId → List (Nat × Nat)
  | .c => [(13, 13), (14, 19), (20, 31), (32, 47)]
  | .x => [(13, 13), (14, 19), (20, 25), (26, 31), (32, 47)]
  | .a => [(13, 13), (14, 18), (19, 23), (24, 34), (35, 45), (46, 51), (52, 53), (54, 63)]
  | .v0 | .v1 => [(13, 13), (14, 16), (17, 27), (28, 38), (39, 49), (50, 60), (61, 62), (63, 63), (64, 79)]
  | .t => [(13, 13), (14, 15), (16, 20), (21, 25), (26, 31), (32, 35), (36, 36), (37, 37), (38, 39), (40, 50), (51, 54), (55, 79)]
  | .e => [(13, 13), (14, 19), (20, 24), (25, 29), (30, 35), (36, 41), (42, 52), (53, 63), (64, 79)]

/-- No field of the instruction of an opcode holds the bit: one that is set alone does not come back. -/
def unusedBit (s : SlotId) (op : BitVec 8) (b : Nat) : Bool :=
  match readSlot s (op.setWidth 80 ||| (1#80 <<< b)) with
  | some i => !(encode i).getLsbD b
  | none => true

/-- The lowest bit of the unused field that a set bit lies in: the bits around it within one field of the class that the
instruction does not use (R99, R450). -/
def unusedPos (s : SlotId) (op : BitVec 8) (b : Nat) : Nat :=
  match s.fields.find? (fun f => f.1 ≤ b && b ≤ f.2) with
  | some f => b - ((List.range (b - f.1)).takeWhile (fun j => unusedBit s op (b - 1 - j))).length
  | none => b

/-- The lowest bit of the field of the class, guard fields included, that a bit lies in (R71, R77, R99). -/
def fieldStart (s : SlotId) (b : Nat) : Nat :=
  match ((8, 11) :: (12, 12) :: s.fields).find? (fun f => f.1 ≤ b && b ≤ f.2) with
  | some f => f.1
  | none => b

/-- Decode one slot. A base instruction's bits that none of its fields holds are those in which the slot differs from
the encoding of what was read (R77); a bound code is checked at [13] only (R78). -/
def decodeSlot (s : SlotId) (raw : SlotBits) : SlotRead :=
  if raw = 0 then .empty
  else if (fld raw 0 8).toNat = 0 then .reserved (fieldStart s (lowBit raw.toNat))
  else
    match readSlot s raw with
    | none => .reserved 0
    | some i =>
      let diff := (raw ^^^ encode i).toNat
      .instr i ((if diff = 0 then [] else [unusedPos s (fld raw 0 8) (lowBit diff)]) ++ slotBad s raw)

/-! ## Bundles -/

/-- The slots in the order of R99, each with its first bundle bit and its width (R70). -/
def slotPlaces : List (SlotId × Nat × Nat) :=
  [(.c, 32, 48), (.x, 80, 48), (.a, 128, 64), (.v0, 192, 80), (.v1, 272, 80), (.t, 352, 80), (.e, 432, 80)]

/-- The first bundle bit of a slot (R70). -/
def SlotId.base : SlotId → Nat
  | .c => 32 | .x => 80 | .a => 128 | .v0 => 192 | .v1 => 272 | .t => 352 | .e => 432

/-- SLOT of the fault record: 1 to 7 (R308). -/
def SlotId.num : SlotId → Nat
  | .c => 1 | .x => 2 | .a => 3 | .v0 => 4 | .v1 => 5 | .t => 6 | .e => 7

/-- The header fields of R72. -/
def readHeader (h : BitVec 32) : Header :=
  { pe := (h.extractLsb' 9 1).toNat, pt := (h.extractLsb' 8 1).toNat, pa := (h.extractLsb' 6 2).toNat,
    pv1 := (h.extractLsb' 4 2).toNat, pv0 := (h.extractLsb' 2 2).toNat, rq := h.getLsbD 1, sp := h.getLsbD 0 }

def writeHeader (h : Header) : BitVec 32 :=
  BitVec.ofNat 32 (h.pe * 512 + h.pt * 256 + h.pa * 64 + h.pv1 * 16 + h.pv0 * 4 + h.rq.toNat * 2 + h.sp.toNat)

/-- Positions of the header's ILLEGAL fields: [31:10] and a PA of 3 (R72). -/
def headerBad (h : BitVec 32) : List Nat :=
  (if h.toNat / 1024 = 0 then [] else [10]) ++
  (if (h.extractLsb' 6 2).toNat = 3 then [6] else [])

/-- A slot instruction that runs a routine (R90). -/
def Instr.runsRoutine : Instr → Bool
  | .boundInstruction .. | .vrcp .. | .vrsq .. | .vexp .. | .vlog .. | .vtanh .. | .vsigm .. | .mexp .. | .mrelu .. => true
  | .mcoll _ mode _ _ => mode == .sample
  | _ => false

def Instr.isAxenter : Instr → Bool
  | .axenter .. => true
  | _ => false

/-- The rm field of a V instruction that has one (R82). -/
def Instr.rmOf : Instr → Option Rm
  | .vadd _ _ rm .. | .vsub _ _ rm .. | .vmul _ _ rm .. | .vfma _ _ rm .. | .vfms _ _ rm .. | .vcvt _ _ _ rm ..
  | .vradd _ _ rm .. | .vscan _ _ rm .. | .vrmax _ _ rm .. | .vrmin _ _ rm .. => some rm
  | _ => none

/-- The instruction needs RQ = 1 whatever RMODE selects (R97). -/
def Instr.needsRq (i : Instr) : Bool :=
  i.rmOf == some .sr || (match i with | .mcoll _ mode _ _ => mode == .sample | _ => false)

/-- The instruction needs RQ = 1 while RMODE selects stochastic rounding (R97). -/
def Instr.needsRqDyn (i : Instr) : Bool := i.rmOf == some .dyn

/-- The rule of R90: two routine-running slots, or an AXENTER beside one; the opcode position of the later slot. -/
def routineBad (slots : List (SlotId × Instr)) : List Nat :=
  let runs := slots.filter (fun p => p.2.runsRoutine)
  let both := slots.filter (fun p => p.2.runsRoutine || p.2.isAxenter)
  if (2 ≤ runs.length) || (runs.length = 1 && 2 ≤ both.length) then
    match both.getLast? with
    | some p => [p.1.base]
    | none => []
  else []

/-- A bundle with the positions of what makes it ILLEGAL by its bits alone, as bundle bit positions (R99). -/
structure Decoded where
  bundle : Bundle
  illegal : List Nat
  deriving DecidableEq, Repr

/-- Decode a bundle; total, with every ILLEGAL position that its text decides. A LOOP or LOOPI offset below 1 is judged
with the loop stack, at issue (R95). -/
def readBundle (w : BundleBits) : Decoded :=
  let h := w.extractLsb' 0 32
  let reads := slotPlaces.map (fun p => (p.1, p.2.1, decodeSlot p.1 ((w.extractLsb' p.2.1 p.2.2).setWidth 80)))
  let slots := reads.filterMap (fun p => match p.2.2 with
    | .instr i _ => some (p.1, i)
    | .empty | .reserved _ => none)
  let bad := reads.flatMap (fun p => match p.2.2 with
    | .instr _ l => l.map (p.2.1 + ·)
    | .reserved pos => [p.2.1 + pos]
    | .empty => [])
  let hdr := readHeader h
  let rq := if !hdr.rq && slots.any (fun p => p.2.needsRq) then [1] else []
  { bundle := { hdr := hdr, slots := slots }
    illegal := headerBad h ++ rq ++ routineBad slots ++ bad }

/-- Decode a bundle whose text is legal; refuse any other by the lowest ILLEGAL position (R99). -/
def decode (w : BundleBits) : Except Nat Bundle :=
  let d := readBundle w
  match d.illegal.min? with
  | none => .ok d.bundle
  | some pos => .error pos

/-- Vector operands a slot instruction reads at issue, as its slot's allotment counts them (R74). -/
def Instr.vectorReads : Instr → Nat
  | .vfma .. | .vfms .. | .vsel .. => 3
  | .vadd .. | .vsub .. | .vmul .. | .vmin .. | .vmax .. | .vand .. | .vor .. | .vxor .. | .vshl .. | .vshr ..
  | .vsra .. | .vcmpeq .. | .vcmplt .. | .vcmple .. | .vperm .. | .maff .. | .mform .. | .vscat .. => 2
  | .vabs .. | .vneg .. | .vnot .. | .vcvt .. | .vmov .. | .vrot .. | .vradd .. | .vrmax .. | .vrmin .. | .vscan ..
  | .vinsx .. | .vextx .. | .vst .. | .vsts .. | .vstr .. | .vgath .. | .winset .. | .sendh .. | .rqseed .. => 1
  | .tdrain _ _ _ ep _ => if ep == .none then 0 else 1
  | _ => 0

/-- A bound V instruction with a suffix .SR or .DYN, which olas gives RQ although the core does not ask for it (R115, R483). -/
def Instr.boundRq : Instr → Bool
  | .boundInstruction _ .v _ raw => raw.getLsbD 48
  | _ => false

/-- The header that allots a lone slot instruction its ports, and pops where it must (R115). -/
def aloneHeader (s : SlotId) (i : Instr) : Header :=
  let n := i.vectorReads
  { pe := if s = .e then n else 0, pt := if s = .t then n else 0, pa := if s = .a then n else 0,
    pv1 := if s = .v1 then n else 0, pv0 := if s = .v0 then n else 0,
    rq := i.needsRq || i.needsRqDyn || i.boundRq, sp := false }

/-- The bundle that holds one slot instruction alone, as olas emits it (R109, R115); the NOP bundle for a NOP and for
an instruction that stands in no slot. -/
def alone (i : Instr) : Bundle :=
  match i.slot, i with
  | _, .nop => { hdr := aloneHeader .c .nop, slots := [] }
  | some s, i => { hdr := aloneHeader s i, slots := [(s, i)] }
  | none, _ => { hdr := aloneHeader .c .nop, slots := [] }

/-- The 512 bits of a bundle (R70). -/
def encodeBundle (b : Bundle) : BundleBits :=
  b.slots.foldl (fun w p => w ||| ((encode p.2).setWidth 512 <<< p.1.base)) ((writeHeader b.hdr).setWidth 512)

/-! ## Stitches (R162 to R173) -/

/-- The field of width n at position lo of a stitch. -/
def sfld (w : StitchBits) (lo n : Nat) : BitVec n := w.extractLsb' lo n

def Cond.code : Cond → BitVec 4
  | .always => 0 | .any => 1 | .all => 2 | .none => 3 | .zero n => 4#4 + n.setWidth 4 | .nvf => 8 | .reserved c => c
def Cond.ofCode (c : BitVec 4) : Cond :=
  match c.toNat with
  | 0 => .always | 1 => .any | 2 => .all | 3 => .none | 4 => .zero 0 | 5 => .zero 1 | 6 => .zero 2 | 7 => .zero 3
  | 8 => .nvf | _ => .reserved c

/-- The sequencing of a stitch (R163). -/
def readSeq (w : StitchBits) : Seq :=
  let t := sfld w 3 13
  let c := sfld w 16 4
  match (sfld w 0 3).toNat with
  | 0 => .next
  | 1 => .jump t
  | 2 => .brif (Cond.ofCode c) t
  | 3 => .loop (c.setWidth 2) t
  | 4 => .callrom t
  | 5 => .retrom
  | 6 => .stop
  | _ => .raise (Cond.ofCode c) t

/-- A stitch as its units read it (R162). -/
def readStitch (w : StitchBits) : Stitch :=
  let isLit := w.getLsbD 126
  let lit := if isLit then some (sfld w 80 32) else none
  let fmt := LaneFmt.ofCode (sfld w 45 3).toNat
  let la : LaneArgs :=
    { fmt := fmt, sat := w.getLsbD 26, d := Sel.ofCode (sfld w 27 6), a := Sel.ofCode (sfld w 33 6),
      b := Sel.ofCode (sfld w 39 6), lit := lit }
  let agu : AguArgs :=
    { fmt := fmt, reg := Sel.ofCode (sfld w 52 6), base := sfld w 58 3, ix := w.getLsbD 61, ixn := sfld w 62 2,
      stride := sfld w 64 6, off := sfld w 70 10, ovr := if w.getLsbD 116 then some (sfld w 112 4) else none,
      gen := if isLit then 0 else sfld w 104 4 }
  let tile : TileArgs :=
    { fmt := fmt, acc := w.getLsbD 102, a := Sel.ofCode (sfld w 90 6), b := Sel.ofCode (sfld w 96 6), row := sfld w 83 7,
      plane := w.getLsbD 82 }
  let lop := (sfld w 20 6).toNat
  let aop := (sfld w 48 4).toNat
  let top := (sfld w 80 2).toNat
  { seq := readSeq w
    lane := if lop = 0 && !la.sat then none else some (lop, la)
    agu := if aop = 0 then none else some (aop, agu)
    tile := if isLit || top = 0 then none else some (top, tile)
    cld := if w.getLsbD 122 then some (sfld w 120 2) else none
    rpop := w.getLsbD 125
    negin := w.getLsbD 123
    negchk := w.getLsbD 124
    neg := la
    lit := lit }

/-- Positions of a stitch's reserved fields that are not zero (R162), of an OFMT of 15 (R171), and of a reserved cond: one of 9 to 15, or with LOOP's
counter one with [19:18] set (R163). -/
def stitchBad (w : StitchBits) : List Nat :=
  let isLit := w.getLsbD 126
  let cond := (sfld w 16 4).toNat
  (if (sfld w 117 3) = 0 then [] else [117]) ++ (if w.getLsbD 127 then [127] else []) ++
    (if !isLit && w.getLsbD 103 then [103] else []) ++ (if !isLit && sfld w 108 4 != 0 then [108] else []) ++
    (if sfld w 112 4 = 15#4 then [112] else []) ++ (if (if (sfld w 0 3).toNat = 3 then 4 ≤ cond else 9 ≤ cond) then [16] else [])

/-- A stitch field placed at position lo. -/
def sput {n : Nat} (lo : Nat) (v : BitVec n) : StitchBits := v.setWidth 128 <<< lo
def sputB (lo : Nat) (b : Bool) : StitchBits := sput lo (BitVec.ofBool b)

def encodeSeq : Seq → StitchBits
  | .next => 0
  | .jump t => sput 0 1#3 ||| sput 3 t
  | .brif c t => sput 0 2#3 ||| sput 3 t ||| sput 16 c.code
  | .loop n t => sput 0 3#3 ||| sput 3 t ||| sput 16 n
  | .callrom t => sput 0 4#3 ||| sput 3 t
  | .retrom => sput 0 5#3
  | .stop => sput 0 6#3
  | .raise c t => sput 0 7#3 ||| sput 3 t ||| sput 16 c.code

/-- The word of a stitch, from the layout of R162. -/
def encodeStitch (s : Stitch) : StitchBits :=
  encodeSeq s.seq |||
  (match s.lane with
   | some (op, l) => sput 20 (BitVec.ofNat 6 op) ||| sputB 26 l.sat ||| sput 27 l.d.code ||| sput 33 l.a.code |||
       sput 39 l.b.code ||| sput 45 (BitVec.ofNat 3 l.fmt.code)
   | none => sput 33 s.neg.a.code ||| sput 45 (BitVec.ofNat 3 s.neg.fmt.code) ||| sput 27 s.neg.d.code ||| sput 39 s.neg.b.code) |||
  (match s.agu with
   | some (op, u) => sput 48 (BitVec.ofNat 4 op) ||| sput 52 u.reg.code ||| sput 58 u.base ||| sputB 61 u.ix |||
       sput 62 u.ixn ||| sput 64 u.stride ||| sput 70 u.off |||
       (match u.ovr with | some f => sputB 116 true ||| sput 112 f | none => 0) ||| sput 104 u.gen
   | none => 0) |||
  (match s.tile with
   | some (op, t) => sput 80 (BitVec.ofNat 2 op) ||| sputB 82 t.plane ||| sput 83 t.row ||| sput 90 t.a.code |||
       sput 96 t.b.code ||| sputB 102 t.acc
   | none => 0) |||
  (match s.cld with | some n => sputB 122 true ||| sput 120 n | none => 0) |||
  sputB 125 s.rpop ||| sputB 123 s.negin ||| sputB 124 s.negchk |||
  (match s.lit with | some v => sputB 126 true ||| sput 80 v | none => 0)

/-- The instruction of a table word: a bundle that holds one slot instruction, or the NOP bundle. -/
def decodeTableWord (nbits w : Nat) : Option Instr :=
  if nbits ≤ 512 ∧ w >>> nbits = 0 then
    match decode (BitVec.ofNat 512 w) with
    | .ok b =>
      match b.slots with
      | [] => some .nop
      | [(_, i)] => some i
      | _ :: _ :: _ => none
    | .error _ => none
  else none
end Sys2Proof
end

