-- ==== Sys2Proof/Machine/State.lean ====
section
/-! DEFINITION. The state of a Quobel Q7 package as plain data, the reasons a run can stop, and the state after reset. -/
namespace Sys2Proof.Machine

/-! ## Why a run stops -/

/-- Reasons to stop with a fault. The exceptions of the spec (R303) are no faults of this type: they are taken. -/
inductive Fault where
  /-- raised by an access through a window entry whose device frame is 262,144 or above: R199 gives no such frame any
  storage (safe: the machine stops) -/
  | noSuchFrame
  deriving DecidableEq, Repr

/-- Reasons to refuse an instruction or step. -/
inductive Refusal where
  /-- raised by no meaning: the arm of an instruction that has none (safe) -/
  | notModelled (mnemonic : String)
  /-- raised by every meaning for a step that cannot come about in the state: an instruction where the focus holds no
  context that can issue now, a device step whose condition does not hold (safe: the spec gives a step no effect while its
condition does not hold, and no step of the machine ends so) -/
  | notEnabled
  deriving DecidableEq, Repr

/-! ## Registers of a platform (R39, R85) -/

/-- A register of the five classes that a bundle names, with its class code in fault values (R303). -/
inductive RegId where
  | x (n : Nat)
  | p (n : Nat)
  | a (n : Nat)
  | v (n : Nat)
  | m (n : Nat)
  deriving DecidableEq, Repr, Inhabited

/-- The register files of a platform and its micro registers; sparse, an unlisted register holds 0 (R348). -/
structure Regs where
  x : SMap Word
  p : BitVec 16
  a : SMap Word
  v : SMap Vec
  m : SMap Mom
  h : SMap Vec
  n : SMap (BitVec 16)
  deriving DecidableEq, Repr, Inhabited

/-- A window-replay descriptor (R196). -/
structure Replay where
  base : BitVec 48
  cn0 : Nat
  cn1 : Nat
  cn2 : Nat
  cn3 : Nat
  ch : Nat
  st0 : BitVec 32
  st1 : BitVec 32
  st2 : BitVec 32
  st3 : BitVec 32
  deriving DecidableEq, Repr, Inhabited

/-- What lands when a fixed latency has passed (R89): a register's value, a control-register write (R436), flags that a
result sets (R147, R257), a replay descriptor (R196), or only the write port that a guarded-off slot counts (R75, R76). -/
inductive RegWrite where
  | x (n : Nat) (val : Word)
  | p (n : Nat) (val : Bool)
  | a (n : Nat) (val : Word)
  | v (n : Nat) (val : Vec)
  | m (n : Nat) (val : Mom)
  | creg (n : Nat) (val : Word)
  | fpflags (bits : Nat)
  | mflags (bits : Nat)
  | replay (slot : Nat) (d : Replay)
  | portV
  | portM
  /-- a write that landed early (R93): the register stays in its shadow until its cycle (R316's example) -/
  | shadow (r : RegId)
  deriving DecidableEq, Repr, Inhabited

/-- A fixed-latency result in flight (R40, R89): cycle and slot order of its bundle, and the cycle it lands. -/
structure Flight where
  issued : Nat
  slot : Nat
  land : Nat
  write : RegWrite
  deriving DecidableEq, Repr, Inhabited

/-! ## Control flow of a platform -/

/-- An open hardware loop (R95, R394). -/
structure LoopEntry where
  first : Nat
  last : Nat
  left : Nat
  deriving DecidableEq, Repr, Inhabited

/-- A control transfer still to be made (R94, R308). -/
structure Xfer where
  target : Nat
  taken : Bool
  left : Nat
  /-- a BR or BRX, which closes loops when it lands (R377) -/
  closes : Bool
  deriving DecidableEq, Repr, Inhabited

/-- What a slot C instruction does once its whole bundle is complete: the skip of a loop body (R394), PARK, HALT, YIELD
and TRET (R53, R417, R391, R476, R446). -/
inductive After where
  | skipTo (target : Nat)
  | park
  | halt
  | yield
  | tret
  deriving DecidableEq, Repr, Inhabited

/-- The program counter, kept wide so that a target outside can be reported (R45), and what steers it. `left` of a pending
transfer counts the bundle at the PC. -/
structure Flow where
  pc : Nat
  loops : List LoopEntry
  rets : List Nat
  xfer : Option Xfer
  /-- what the C slot of the bundle at the PC has still to do at its completion -/
  after : Option After
  deriving DecidableEq, Repr, Inhabited

/-- Micro state besides h0 to h15 and n0 to n3 (R176). -/
structure Micro where
  pc : Nat
  flags : BitVec 384
  count : Nat
  link : Option Nat
  steps : Nat
  word : Option Vec
  deriving DecidableEq, Repr, Inhabited

/-- A binding in force (R157). -/
structure Binding where
  cls : Nat
  code : Nat
  start : Nat
  bound : Nat
  groups : Nat
  half : Nat
  hbm : Bool
  rand : Bool
  deriving DecidableEq, Repr, Inhabited

/-- A routine that a fault interrupted, for its resume (R176): what Routine holds besides the micro state. -/
structure RoutineArgs where
  slot : Nat
  cls : Nat
  p0 : Nat
  p1 : Nat
  p2 : Nat
  p3 : Nat
  k : Nat
  fmt : Nat
  rm : Nat
  sat : Bool
  pl : Nat
  acc : Bool
  bind : Binding
  /-- a surrogate's region (R278) -/
  region : Option Nat
  /-- the routine is of the ROM, a base instruction's (R179) -/
  rom : Bool
  /-- registers that the macro's own bundle left pending when the routine was interrupted (R161) -/
  own : List RegId
  /-- the seeding that its stochastic stores draw from (R425) -/
  seed : Nat
  /-- p0-p15 as the macro's bundle read them (R308) -/
  preds : Nat
  deriving DecidableEq, Repr, Inhabited

/-- The micro shadow: the micro state with its registers, kept while a handler runs (R313). -/
structure Shadow where
  micro : Micro
  h : SMap Vec
  n : SMap (BitVec 16)
  /-- the interrupted routine -/
  saved : Option RoutineArgs
  deriving DecidableEq, Repr, Inhabited

/-! ## Memory accesses of a context on their way (R219) -/

/-- The classes of FENCE (R220). -/
inductive AccClass where
  | r | w | a | e
  deriving DecidableEq, Repr, Inhabited

/-- The operations of the AMOs (R363). -/
inductive AmoOp where
  | add | and | or | min | max | swap | cas
  deriving DecidableEq, Repr, Inhabited

/-- A part of an access that performs at once: at most 8 bytes within one naturally aligned word of the package's
storage (R215), or within one line of a protected page (R343); `off` counts bytes within the access. -/
structure Piece where
  place : Nat
  /-- the address by which its context names it (R209) -/
  addr : Nat
  len : Nat
  off : Nat
  /-- the access covers the piece's line whole (R193) -/
  whole : Bool
  /-- its line lies on a protected page and passes the inline path (R199, R343) -/
  prot : Bool
  /-- another part of the same write of its line has performed (R519) -/
  begun : Bool
  deriving DecidableEq, Repr, Inhabited

/-- A write on its way to its home, of a move or an engine, within one aligned word (R215) or a line of ciphertext or of a
protected page. -/
structure Store where
  place : Nat
  addr : Nat
  data : List Byte
  /-- what it belongs to covers the line whole (R193) -/
  whole : Bool
  /-- a raw copy of a ciphertext line, whose form it carries (R193) -/
  cipher : Bool
  prot : Bool
  /-- its line is left poisoned in place of the write (R431) -/
  poison : Bool
  /-- another part of the same write of its line has performed (R293, R519) -/
  begun : Bool
  deriving DecidableEq, Repr, Inhabited

/-- What a move or an engine reads for the work under way: the runs that it has read, each with the address of the first line
that it could not use (R208), and the words of the next run that are still to be read, with its bytes so far (R215, R219). -/
structure Fetch where
  got : List (List Byte × Option Nat)
  pieces : List Piece
  data : List Byte
  deriving DecidableEq, Repr, Inhabited

/-- What arrives when every piece of an access has performed. -/
inductive Dest where
  /-- a store: nothing arrives -/
  | none
  /-- a scalar of the given bytes, zero-extended -/
  | x (n : Nat)
  | v (n : Nat)
  | m (n : Nat)
  deriving DecidableEq, Repr, Inhabited

/-- An access in the outbound path (R221, R386): what it waits for, what is still to perform, its bytes so far. -/
structure Outbound where
  id : Nat
  cls : AccClass
  /-- the access's first address, for a poison report (R92) -/
  addr : Nat
  waits : List Nat
  pieces : List Piece
  data : List Byte
  dest : Dest
  /-- an atomic: its operation and its operands (R363, R364) -/
  amo : Option (AmoOp × Word × Word)
  /-- the fault value and code of what it met at its home (R92, R365) -/
  poison : Option (Nat × Nat)
  deriving DecidableEq, Repr, Inhabited

/-- A variable-latency result that is no memory access: a hub register (R388), a ring (R424). -/
inductive Reply where
  | hub (n : Nat)
  | ring (n : Nat) (ring : Nat)
  deriving DecidableEq, Repr, Inhabited

structure Awaited where
  id : Nat
  reply : Reply
  /-- the value sampled, where it has been (R388, R373) -/
  value : Option Word
  /-- what a RINGRD waits for before it samples its ring (R220, R221) -/
  waits : List Nat
  deriving DecidableEq, Repr, Inhabited

/-- The kinds of outstanding move (R426, R463). -/
inductive MoveKind where
  | tld | tst | scopy | vldr | vstr
  deriving DecidableEq, Repr, Inhabited

/-- An outstanding move (R426 to R431, R463), read and written word by word; the number after its own stands for its reads,
which a FENCE may have to wait for alone (R221). -/
structure Move where
  id : Nat
  kind : MoveKind
  /-- what its reads and its writes wait for, unless they are own-S1 accesses (R221, R222) -/
  waitsR : List Nat
  waitsW : List Nat
  src : Nat
  dst : Nat
  len : Nat
  rows : Nat
  spitch : Nat
  dpitch : Nat
  /-- bytes of the longest converted row -/
  dpLen : Nat
  /-- the next row to read, and the bytes of its destination that have been read and converted -/
  row : Nat
  at_ : Nat
  /-- what is read of its next chunk -/
  fetch : Fetch
  /-- writes that have not performed yet -/
  stores : List Store
  /-- the vector register of a VLDR -/
  reg : Nat
  /-- the BFMT values of the context's banks latched at issue, by bank; RAW where none is listed (R138, R139) -/
  fmts : SMap Nat
  /-- the seeding that its stochastic bytes come from, the latest at its issue (R425) -/
  seed : Nat
  /-- the translation window as looked up at issue (R206) -/
  window : SMap (BitVec 32)
  deriving DecidableEq, Repr, Inhabited

/-- A FENCE that still holds successors back (R221). -/
structure FenceEntry where
  succ : ClassSet
  preds : List Nat
  deriving DecidableEq, Repr, Inhabited

/-! ## Engine commands (R285) -/

/-- An E command with the operands it read at issue. -/
inductive Command where
  /-- the head, and the seeding its channel draws from (R425) -/
  | chstart (head seed : Nat)
  | chstop
  | ringcfg (ring cap : Nat)
  | ysort (desc ring inc : Nat)
  | ygath (desc ring inc : Nat)
  | ycomb (desc ring inc : Nat)
  | xa2av (desc ring inc : Nat)
  | xar (desc ring inc : Nat)
  | xag (desc ring inc : Nat)
  | xrun (desc prog ring inc : Nat)
  /-- payload, own-S1 offset, target core, platform and CTXID, handler (R433) -/
  | sendh (data : List Byte) (dest core plat : Nat) (target : Word) (handler : Nat)
  | sealL (addr count ring inc : Nat)
  | openL (addr count ring inc : Nat)
  | rqseed (key : BitVec 256) (counter : Word)
  | axinv (id : Nat)
  /-- the region and xd -/
  | axqry (id xd : Nat)
  deriving DecidableEq, Repr, Inhabited

structure QueuedCommand where
  id : Nat
  waits : List Nat
  cmd : Command
  deriving DecidableEq, Repr, Inhabited

/-- A waybill as read (R290). -/
structure Waybill where
  addr : Nat
  own : Bool
  next : Nat
  src : Nat
  dst : Nat
  len : Nat
  rows : Nat
  spitch : Int
  dpitch : Int
  sat : Bool
  rnd : Nat
  dfmt : Nat
  sfmt : Nat
  rv : Bool
  rcore : Nat
  ring : Nat
  inc : Nat
  /-- a zero field is not zero, or a field is out of range (R290) -/
  bad : Bool
  deriving DecidableEq, Repr, Inhabited

/-- States of a copy channel (R292). -/
inductive ChanState where
  | idle | run | parked | stopped
  deriving DecidableEq, Repr, Inhabited

/-- A copy channel: the waybill to read, and the one being copied with its next row and latched formats (R292, R138). -/
structure Channel where
  state : ChanState
  head : Nat
  cur : Option (Waybill × Nat)
  /-- bytes of the row's destination that have been read and converted, what is read next, and writes that have not
  performed yet -/
  at_ : Nat
  fetch : Fetch
  stores : List Store
  /-- the ring of the current waybill has room, or it has none (R289) -/
  started : Bool
  fmts : SMap Nat
  /-- the seeding that its stochastic bytes come from (R425) -/
  seed : Nat
  deriving DecidableEq, Repr, Inhabited

/-! ## Administration of a platform -/

/-- The states of R51. -/
inductive PlatState where
  | empty | loading | ready | running | blocked | parked | faulted | saving
  deriving DecidableEq, Repr, Inhabited

/-- What a BLOCKED context waits for (R53, R52). -/
inductive BlockWhy where
  /-- pending registers of the bundle at the PC (R92) -/
  | pending (rs : List RegId)
  | randomQueue
  | cmdQueue
  | moves
  | outbound
  | await (ring thr : Nat)
  | drain (ids : List Nat)
  | barrier (b : Nat)
  | spill
  /-- the RINGCFG waits of R368 and R420 -/
  | ringcfg (ring : Nat)
  /-- a conflict with an outstanding move (R430) -/
  | moveConflict
  | halt
  | fault
  /-- a context that leaves its platform into a save image: the state in which it comes back (R60, R61, R316). It
  keeps its state until the shunter may save it, and is SAVING from then on (R234) -/
  | leaving (back : PlatState)
  deriving DecidableEq, Repr, Inhabited

/-- A placement-map entry (R42). -/
structure Placement where
  core : Nat
  plat : Nat
  prio : Nat
  split : Bool
  share : Nat
  ibase : Nat
  ilen : Nat
  entry : Nat
  barmask : BitVec 32
  bwin : Word
  s2win : Word
  s3win : Word
  ringmask : Word
  csimg : Nat
  cslen : Nat
  nbind : Nat
  rank : Nat
  bindtab : Nat
  sptab : Nat
  frec : Nat
  accsave : Nat
  sparea : Word
  splim : Word
  xlat : Nat
  /-- a zero field is not zero, or a field is out of its range (R43, status 1) -/
  bad : Bool
  deriving DecidableEq, Repr, Inhabited

/-- The live state of a safe point (R317). -/
structure SafePoint where
  index : Nat
  xmask : Word
  amask : BitVec 32
  pmask : BitVec 16
  v : List (Nat × Nat)
  m : List (Nat × Nat)
  s1 : List (Nat × Nat)
  deriving DecidableEq, Repr, Inhabited

/-- A region descriptor (R265): the topology is ELEM of h, or DENSE of its layer sizes. -/
structure RegionDesc where
  id : Nat
  input : Nat
  output : Nat
  elem : Bool
  sizes : List Nat
  thr : Nat
  rate : Nat
  deriving DecidableEq, Repr, Inhabited

/-- The region latch (R269): the open region, its descriptor and the latched input. -/
structure RegionLatch where
  id : Nat
  input : Vec
  /-- AXLEAVE sends the pair (R270) -/
  observed : Bool
  /-- the instance was sampled under R277 -/
  sampled : Bool
  deriving DecidableEq, Repr, Inhabited

/-- A context's own view of a region (R277, R281, R283). -/
structure RegionLocal where
  /-- the copy of the state, 0 to 5 -/
  state : Nat
  counter : Nat
  /-- the entry to SUBST that the counter counts from (R277, R284) -/
  epoch : Nat
  /-- the allocation of the entry that its buffers count from; none where the next entry met keeps the active buffer (R281, R510) -/
  born : Option Nat
  /-- entries to SUBST whose weights are complete in the two buffers, by their numbers, and the active buffer -/
  ver0 : Nat
  ver1 : Nat
  active : Nat
  /-- the latched input box pushed with the state: per input a pair of F32 -/
  box : List (Nat × Nat)
  deriving DecidableEq, Repr, Inhabited

/-- A fault as it will be recorded and delivered (R308, R315). -/
structure FaultInfo where
  code : Nat
  slot : Nat
  value : Nat
  mpc : Nat
  upc : Option Nat
  deriving DecidableEq, Repr, Inhabited

/-- What a context does next instead of the bundle at its PC (R310, R311). -/
inductive Resume where
  | none
  /-- replay of one slot with the operands of the record -/
  | replay (slot : Nat)
  /-- the routine continues at its stitch -/
  | stitch
  /-- the routine is abandoned, and its suspension passes (R311) -/
  | abandon
  deriving DecidableEq, Repr, Inhabited

/-- An arrival ring (R287). `seen` is the read pointer that engines have observed, and `rel` the accesses of the owner that
its latest RELS waits for before they observe `rp` (R230). -/
structure Ring where
  wp : BitVec 32
  rp : BitVec 32
  cap : Nat
  status : Nat
  src : Nat
  seen : BitVec 32
  rel : List Nat
  deriving DecidableEq, Repr, Inhabited

/-- A context on a platform; an EMPTY platform holds none. -/
structure Ctx where
  state : PlatState
  regs : Regs
  flow : Flow
  micro : Micro
  shadow : Option Shadow
  /-- control registers that hold a value, by number (R387); an unlisted one holds 0 -/
  cregs : SMap Word
  replays : SMap Replay
  flights : List Flight
  /-- registers marked pending, and poisoned with an address and a fault code (R92, R365) -/
  pending : List RegId
  poison : List (RegId × Nat × Nat)
  out : List Outbound
  /-- flush reads that the host adapter owes behind stores to host frames, by number (R213) -/
  flushes : List Nat
  awaited : List Awaited
  moves : List Move
  fences : List FenceEntry
  cmds : List QueuedCommand
  /-- the siding of the command queue: 0 locked, 1 unlocked, 2 taken (R327) -/
  cmdSiding : Nat
  arrivals : List Nat
  arrSiding : Nat
  chan : Channel
  /-- the context's rings by number (R287) -/
  rings : SMap Ring
  nextId : Nat
  /-- stoker: queue, key, queue counter (R148, R149) -/
  queue : List Vec
  key : BitVec 256
  qcount : Word
  /-- seedings so far, and the keys of those before the latest (R151, R425) -/
  seeds : Nat
  oldKeys : SMap (BitVec 256)
  /-- bytes taken from each bank stream of a seeding and units generated of it, by seeding × 8 + stream (R146, R149) -/
  taken : SMap Nat
  units : SMap Nat
  /-- units that writers need: since when, seeding and stream (R149) -/
  needs : List (Nat × Nat × Nat)
  /-- a RQSEED not yet accepted holds back refills (R425) -/
  seeding : Bool
  window : SMap (BitVec 32)
  bank : SMap StitchBits
  bindings : List Binding
  latch : Option RegionLatch
  regions : SMap RegionLocal
  /-- accumulator rows recorded in ACCSAVE: masks of plane 0 and plane 1 (R251) -/
  accMask : List (BitVec 96)
  why : Option BlockWhy
  faultPending : Option FaultInfo
  asyncFaults : List FaultInfo
  haltPending : Bool
  killPending : Bool
  resume : Resume
  saved : Option RoutineArgs
  /-- what the fault record has no place for: its transfer is a BR or BRX (R377); what the C slot of the faulting bundle
  has still to do (R306) -/
  recCloses : Bool
  recAfter : Option After
  /-- words popped by the bundle at the PC, kept for a replay or a stitch (R309) -/
  word : Option Vec
  /-- the word of the bundle whose fault the handler handles -/
  wordAside : Option Vec
  /-- register operands of a replay, read from the record in place of the registers (R310) -/
  override : List (RegId × Nat)
  readySince : Nat
  /-- READY for more than the quantum (R54, R55) -/
  overdue : Bool
  /-- the first cycle in which the platform may issue after leaving BLOCKED or PARKED (R54) -/
  wake : Nat
  yielded : Bool
  /-- the safe-point bundle that the next bundle follows (R60) -/
  safe : Option Nat
  /-- a pre-emption asked for: image address, and the key of the queue and the packet to complete (R60) -/
  preempt : Option (Nat × Nat × Packet)
  /-- saved for a rotation: into the shunter's keeping (R61) -/
  rotating : Bool
  bundles : Nat
  place : Placement
  part : Nat
  gang : Nat
  gangSize : Nat
  launch : Nat
  world : Nat
  image : Nat
  imageCtx : Nat
  /-- from the image: region descriptors and safe points (R265, R317) -/
  descs : List RegionDesc
  points : List SafePoint
  deriving DecidableEq, Repr, Inhabited

/-! ## Cores -/

/-- A micro load in flight: the register selector's numbers, the step at whose end it lands, its bytes (R171). -/
structure MicroLoad where
  due : Nat
  sel : Sel
  fmt : LaneFmt
  data : List Byte
  deriving DecidableEq, Repr, Inhabited

/-- What the cycle in which a bundle issued found, for the boundary after it: another platform READY for more than the quantum
(R54), a member of its group held for more than it (R61). -/
structure Found where
  swap : Bool
  rotate : Bool
  deriving DecidableEq, Repr, Inhabited

/-- The routine a core's sequencer runs (R34, R160). -/
structure Routine where
  plat : Nat
  args : RoutineArgs
  start : Nat
  /-- cycles the routine has stalled (R160) -/
  stall : Nat
  /-- the cycle of its next stitch -/
  next : Nat
  ended : Bool
  /-- cycles of the suspension that do not depend on stalls: issue may go on at start + span + stall -/
  span : Nat
  loads : List MicroLoad
  /-- its next stitch waits for HBM or for the random queue (R160) -/
  stalled : Bool
  /-- an HBM micro access the sequencer waits for (R160) -/
  waitHbm : Option Outbound
  /-- registers pending when the macro issued (R161) -/
  waiting : List RegId
  /-- the MPC of the macro's bundle; its end completes that bundle, a safe point if SP is set -/
  mpc : Nat
  completes : Bool
  sp : Bool
  /-- what the macro's issue found (R54, R61) -/
  found : Found
  deriving DecidableEq, Repr, Inhabited

/-- A claim of a bank group until a cycle (R232). -/
structure Claim where
  group : Nat
  till : Nat
  deriving DecidableEq, Repr, Inhabited

/-- A drain on its way to memory: its cycle and the bytes by physical place (R247). -/
structure Drain where
  due : Nat
  /-- the platform and its number for the access (R223) -/
  plat : Nat
  id : Nat
  writes : List (Nat × List Byte)
  /-- the seeding that its random bytes come from, and the bytes of bank stream 2 that must have been generated for it (R149) -/
  seed : Nat
  upto : Nat
  deriving DecidableEq, Repr, Inhabited

/-- A fill on its way to a plane: its cycle and the F32 values of its rows (R248). -/
structure Fill where
  due : Nat
  plane : Nat
  firstRow : Nat
  rows : List (List F32)
  deriving DecidableEq, Repr, Inhabited

/-- One half of the tile array (R68, R244, R249 to R253). -/
structure Half where
  owner : Option Nat
  /-- the first cycle in which the half is not busy -/
  busy : Nat
  /-- the cycle from which the last matrix result is in place -/
  ready : Nat
  mask0 : BitVec 96
  mask1 : BitVec 96
  claims : List Claim
  drain : Option Drain
  fill : Option Fill
  /-- cycles of matrix instructions, those of the running one counted whole, and the cycle that one ends (R253) -/
  cycles : Nat
  matTill : Nat
  products : Nat
  /-- a poisoned operand line to report at the end of the busy window (R210) -/
  hwerr : Option Nat
  /-- a spill for a newcomer: the platform and, once the last owner's results are in place, the cycle it ends (R251) -/
  spill : Option (Nat × Option Nat)
  deriving DecidableEq, Repr, Inhabited

/-- The cipher engine's command (R412): issuer, opening or sealing, the next line and the lines left. -/
structure CipherJob where
  plat : Nat
  ctxid : Word
  opening : Bool
  /-- the ring has room (R289) -/
  started : Bool
  addr : Nat
  left : Nat
  ring : Nat
  inc : Nat
  /-- what is read of the next line -/
  fetch : Fetch
  deriving DecidableEq, Repr, Inhabited

/-- A time-share member off its platform (R61). -/
structure Held where
  plat : Nat
  ctx : Ctx
  since : Nat
  /-- held for more than the quantum (R61) -/
  due : Bool
  count : Nat
  passedOver : Bool
  deriving DecidableEq, Repr, Inhabited

/-- A context saved off its core by a pre-emption or a SAVE: what the core and its engines keep for it (R291, R519). -/
structure Away where
  ctxid : Word
  plat : Nat
  gang : Nat
  bwin : Word
  chan : Channel
  deriving DecidableEq, Repr, Inhabited

structure Core where
  /-- contexts by platform -/
  plats : SMap Ctx
  held : List Held
  imem : SMap BundleBits
  running : Option Nat
  /-- the platform that issued last -/
  last : Nat
  /-- the first cycle in which the core may issue (R54, R90), and the first for a platform that did not issue last -/
  nextIssue : Nat
  switchAt : Nat
  /-- the core has acted in this cycle -/
  acted : Nat
  routine : Option Routine
  /-- accumulators, keyed (plane × 96 + row) × 192 + column -/
  acc : SMap F32
  split : Bool
  half0 : Half
  half1 : Half
  cipher : Option CipherJob
  stokeNext : Nat
  stokeLast : Nat
  /-- the world of the core, none where it is drained (R50) -/
  world : Option Nat
  /-- contexts saved off this core and not restored (R519) -/
  away : List Away
  deriving DecidableEq, Repr, Inhabited

/-! ## Clusters, dies, package -/

/-- A message on its way to a platform's arrival queue (R63, R434). -/
structure Arrival where
  id : Nat
  fromCore : Nat
  fromPlat : Nat
  core : Nat
  plat : Nat
  dest : Nat
  data : List Byte
  handler : Nat
  /-- the target context when it was sent, by its number -/
  ctxid : Word
  deriving DecidableEq, Repr, Inhabited

/-- A ring advance or report waiting at the router for a held owner (R234, R289), by its CTXID. -/
structure RingReport where
  core : Nat
  plat : Nat
  ctxid : Word
  ring : Nat
  inc : Nat
  status : Nat
  src : Nat
  deriving DecidableEq, Repr, Inhabited

/-- The marshalling command taken (R294), with its issuer. It lives in the cluster's routing buffers (R19, R29). -/
structure MarshalJob where
  core : Nat
  plat : Nat
  ctxid : Word
  cmd : Command
  /-- 0 its descriptor is to be read, 1 its indices are read and checked, 2 it waits for ring space, 3 it writes its outputs,
  4 no output is left to set out -/
  phase : Nat
  desc : List Byte
  /-- where it stands: the bytes of its indices that have been checked, or the output, by number, and its next byte -/
  item : Nat
  at_ : Nat
  /-- the indices of a YSORT -/
  index : List Byte
  /-- what it reads next -/
  fetch : Fetch
  /-- its writes that have not performed -/
  stores : List Store
  deriving DecidableEq, Repr, Inhabited

structure Cluster where
  /-- contexts that have arrived at each barrier's generation, and the marks of those that it has let pass: the CTXID and the
  index of the BARC's bundle (R65, R374) -/
  barriers : SMap (List (Word × Nat))
  passed : SMap (List (Word × Nat))
  marshal : Option MarshalJob
  /-- the core served last (R294) -/
  marshalLast : Nat
  deriving DecidableEq, Repr, Inhabited

/-- An observed instance on its way to the ingress: its pairs and how many of them have been delivered (R270, R510). -/
structure FitPair where
  core : Nat
  plat : Nat
  world : Nat
  id : Nat
  hash : BitVec 256
  elem : Bool
  input : Vec
  output : Vec
  sampled : Bool
  sent : Nat
  since : Nat
  deriving DecidableEq, Repr, Inhabited

/-- One pair in the ingress (R271): input and target elements as F32 bits, as far as the engine needs them. -/
structure FitSample where
  world : Nat
  id : Nat
  input : List F32
  target : List F32
  sampled : Bool
  deriving DecidableEq, Repr, Inhabited

/-- An entry of the region table (R266, R267, R274, R277). -/
structure FitRegion where
  world : Nat
  id : Nat
  hash : BitVec 256
  state : Nat
  lr : F32
  batch : Nat
  mom : Bool
  desc : RegionDesc
  /-- master parameters and momentum: b0, w0 and w1, b1, w2 of each hidden unit of ELEM, or by layer and output the bias
  and the weights of DENSE (R272, R275) -/
  weights : List F32
  momentum : List F32
  /-- training and held-out pairs by place in their rings: input and target elements -/
  train : List (List F32 × List F32)
  held : List (List F32 × List F32)
  box : List (Option (F32 × F32))
  latched : List (F32 × F32)
  cursor : Nat
  accepted : Nat
  passes : Nat
  /-- a compared pair of a sampled instance has failed, and pairs of such an instance are still to come (R277) -/
  failed : Bool
  drops : Nat
  fallbacks : Nat
  cause : Nat
  version : Nat
  /-- the number of its latest entry to SUBST among all those of the die -/
  serial : Nat
  /-- the evaluation weights as their buffer holds them (R280) -/
  eval : List F32
  /-- the number of its allocation among all those of the die -/
  born : Nat
  /-- the key that its store is sealed under (R282) -/
  sealKey : List Byte
  /-- the sealed store is damaged, so that its tag does not verify (R282); no step of the model damages a store (log entry 53) -/
  spoilt : Bool
  deriving DecidableEq, Repr, Inhabited

/-- An AXENTER or AXINV of a context on its way to the fitting engine (R267, R277). -/
structure FitRequest where
  core : Nat
  plat : Nat
  ctxid : Word
  world : Nat
  id : Nat
  hash : BitVec 256
  /-- the context's AXCFG and region descriptor at its issue -/
  cfg : Word
  desc : Option RegionDesc
  /-- 0 allocation, 1 surrogate NaN -/
  kind : Nat
  deriving DecidableEq, Repr, Inhabited

structure Die where
  /-- by world × 64 + region id (R266) -/
  regions : SMap FitRegion
  delivering : List FitPair
  ingress : List FitSample
  /-- the cycle after the latest in which pairs moved (R510) -/
  paired : Nat
  requests : List FitRequest
  /-- keys whose latest allocation failed (R283) -/
  noroom : List Nat
  /-- entries to SUBST and allocations so far -/
  serial : Nat
  allocs : Nat
  deriving DecidableEq, Repr, Inhabited

structure AdapterSlot where
  kind : Nat
  world : Nat
  image : Nat
  deriving DecidableEq, Repr, Inhabited

/-- The members of a collective group by rank: package, core, platform (R299). -/
structure Group where
  members : List (Nat × Nat × Nat)
  deriving DecidableEq, Repr, Inhabited

/-- A partition's hub registers and tables (R299, R301, R302, R315, R329). -/
structure Partition where
  phc : Word
  ps3r : SMap Word
  pqos : Word
  pfq : Word
  xl2base : Word
  xl2len : Word
  /-- entries waiting for the fault queue, entries posted and entries the steward has taken -/
  faultWait : List (List Byte)
  fqWrite : Nat
  launches : Nat
  /-- worlds whose launches it has admitted, the latest first (R349) -/
  worlds : List Nat
  slots : SMap AdapterSlot
  groups : SMap Group
  programs : SMap (List (BitVec 128))
  deriving DecidableEq, Repr, Inhabited

/-- A member's part in a collective: what its descriptor holds (R299), and its phase: 0 its ring must have room, 1 it has
room, 2 it has been answered. -/
structure Joined where
  rank : Nat
  core : Nat
  plat : Nat
  ctxid : Word
  prog : Nat
  sbuf : Nat
  rbuf : Nat
  rcnt : Nat
  rlim : Nat
  word : Nat
  /-- ARG, which programs are passed (R299); no step of R301 reads it -/
  arg : Nat
  /-- the SCNT entries of an XA2AV -/
  sends : List Nat
  ring : Nat
  inc : Nat
  phase : Nat
  deriving DecidableEq, Repr, Inhabited

/-- Bytes on their way between members: the offsets at which a whole ciphertext line begins, and the world that plaintext
comes from (R193, R342). -/
structure Block where
  bytes : List Byte
  cipher : List Nat
  world : Option Nat
  deriving DecidableEq, Repr, Inhabited

/-- Where the bytes of a transfer come from: a member's memory, the engine's own buffers, or the elements that every member
contributes, combined (R300, R301). -/
inductive BlockSource where
  | memory (rank addr : Nat)
  | block (b : Block)
  | reduced
  deriving DecidableEq, Repr, Inhabited

/-- Where they go: a member's memory, the program's area of the collective buffers on behalf of a member, every member's
RBUF, or another package. -/
inductive BlockDest where
  | memory (rank addr : Nat)
  | area (rank place : Nat)
  | everyone
  | away
  deriving DecidableEq, Repr, Inhabited

/-- A transfer of a collective, and how many of its bytes have been read. -/
structure Transfer where
  source : BlockSource
  dest : BlockDest
  len : Nat
  at_ : Nat
  deriving DecidableEq, Repr, Inhabited

/-- A collective command that the engine has accepted and whose descriptor it is reading (R471). -/
structure Join where
  core : Nat
  plat : Nat
  ctxid : Word
  cmd : Command
  fetch : Fetch
  deriving DecidableEq, Repr, Inhabited

/-- A collective operation in progress (R472). -/
structure Collective where
  id : Nat
  part : Nat
  group : Nat
  members : List (Nat × Nat × Nat)
  joined : List Joined
  /-- ranks whose command this operation is, whether or not they wait still -/
  ranks : List Nat
  /-- hub cycle of its first member's command -/
  since : Nat
  /-- 0 open, 1 it transfers, 2 it has timed out -/
  stage : Nat
  /-- what stands for the free bytes of members elsewhere (log entry 8) -/
  draw : Nat
  /-- transfers still to be read, and writes, with the member that they are for, that have not performed -/
  work : List Transfer
  stores : List (Nat × Store)
  /-- what is read next, for the first transfer (0) or for a member's step (1 and its place) -/
  fetch : Fetch
  reader : Nat
  /-- members over their limit (R300) -/
  beyond : List Nat
  /-- XRUN: where each member stands, blocks sent and not yet received by source and destination, and how many have been
  received (R301) -/
  pcs : List (Nat × Nat)
  sent : List (Nat × Nat × Block)
  received : Nat
  deriving DecidableEq, Repr, Inhabited

/-- A queue interface (R333, R334). -/
structure HostQueue where
  ring : Nat
  cring : Nat
  size : Nat
  vec : Nat
  v : Bool
  part : Nat
  /-- base of its allowed-PASID table in hypervisor memory -/
  pasids : Nat
  head : BitVec 32
  tail : BitVec 32
  cslot : Nat
  /-- packets started and not yet complete (R335, ORDER) -/
  open_ : Nat
  /-- completion records held for the ring: record, interrupt asked for (R337) -/
  done : List (List Byte × Bool × BitVec 20)
  /-- a LAUNCH holds back later packets (R337) -/
  waiting : Bool
  deriving DecidableEq, Repr, Inhabited

/-- A placement entry's content in a kernel image (R41), but for the control store, the binding table and the safe-point table,
which lie in HBM at the addresses that the entry names (R42). -/
structure CtxImage where
  instrs : List BundleBits
  bfmt : List (Nat × Word)
  regions : List RegionDesc
  /-- data sections: address and bytes (R120) -/
  data : List (Nat × List Byte)
  /-- the instruction image passes its tag and measurement (R47) -/
  sealOk : Bool
  deriving DecidableEq, Repr, Inhabited

/-- A kernel image as the steward presents it (R41, R340). -/
structure Image where
  addr : Nat
  world : Nat
  hash : BitVec 256
  blob : List Byte
  ctxs : List CtxImage
  deriving DecidableEq, Repr, Inhabited

/-- A launch from its packet to its completion (R46 to R49). -/
structure Launch where
  id : Nat
  queue : Nat
  packet : Packet
  part : Nat
  image : Nat
  entries : List Placement
  /-- 0 waits for admission, 1 loads, 2 runs -/
  phase : Nat
  /-- entries whose context has loaded, and whose context has halted or been killed, by index -/
  loaded : List Nat
  gone : List Nat
  /-- the launch number (R389) -/
  number : Nat
  deriving DecidableEq, Repr, Inhabited

/-- A stream command under way that completes later: PREEMPT, SAVE, RESTORE, KILL, REVOKE (R337). -/
structure Running where
  id : Nat
  queue : Nat
  packet : Packet
  /-- accesses that looked up a revoked entry: core, platform, id (R206) -/
  waits : List (Nat × Nat × Nat)
  deriving DecidableEq, Repr, Inhabited

/-- An entry of the remapping table (R338). -/
structure MsixEntry where
  addr : Nat
  data : BitVec 32
  v : Bool
  mask : Bool
  pend : Bool
  deriving DecidableEq, Repr, Inhabited

/-- An entry of the filter table (R339). -/
structure FilterEntry where
  src : Nat
  dst : Nat
  maxSize : Nat
  rate : Nat
  burst : Nat
  left : Nat
  deriving DecidableEq, Repr, Inhabited

/-- A bounce channel (R351): the device's counters, whether an ABORT has it wait for a RESYNC, the queue of its packets, and
the packet whose slot is being copied with the copy channel that does so, as the hypervisor core has set it up (log entry
58). -/
structure Bounce where
  produced : Nat
  consumed : Nat
  aborted : Bool
  queue : Option Nat
  copy : Option (Packet × Nat × Nat)
  deriving DecidableEq, Repr, Inhabited

/-- A tablet in flight (R326). -/
structure Tablet where
  origin : QueueId
  at_ : QueueId
  hops : Nat
  deriving DecidableEq, Repr, Inhabited

/-- An entry of the hypervisor log or of its fault entries (R204, R329, R345, R346). -/
inductive LogEntry where
  | refusedWrite (reg : Nat) (v : Word)
  | notify (fn off : Nat)
  | irq (fn vec : Nat)
  | access (requester : Nat)
  | zeroDone
  | filtered (src dst : Nat)
  | hvFault (part core plat va kind gpa : Nat)
  deriving DecidableEq, Repr, Inhabited

/-- What the part answers to the outside world: a read (R15, R332, R334, R355), a refused access (R346), a refused message
(R339), the end of a function-level reset (R349), the completion timeouts of a link that is down (R331). -/
inductive Answer where
  | read (r : OutsideRead) (v : Word)
  | allOnes (requester : Nat)
  | dropped (requester : Nat)
  | faulted (requester : Nat)
  | filtered (src dst : Nat)
  | resetDone (fn : Nat)
  | timeout (fn : Nat)
  deriving DecidableEq, Repr, Inhabited

/-- The key store of the service core (R340, R341, R322, R347). -/
structure KeyStore where
  keys : SMap (BitVec 256)
  seals : SMap Nat
  saves : SMap Nat
  measures : SMap (BitVec 256)
  erasures : Nat
  deriving DecidableEq, Repr, Inhabited

/-- Hub registers, management registers and power (R344 to R346, R352, R355, R357). -/
structure Hub where
  tagbase : SMap Word
  hzframe : Word
  hzcount : Word
  /-- the range that a ZERO command runs over: first frame and count (R345) -/
  hzbusy : Option (Nat × Nat)
  alarmcfg : Word
  mbstate : Nat
  mbcause : Nat
  mbfail : BitVec 46
  eccS1 : Nat
  eccS2 : Nat
  eccS3 : Nat
  eccHbm : Nat
  integHbm : Nat
  pwrLevel : Nat
  pwrInput : BitVec 16
  pwrlim : Nat
  firmware : BitVec 256
  boots : Nat
  linkUp : Bool
  /-- messages refused at the interchange (R339) -/
  refusals : Nat
  log : List LogEntry
  deriving DecidableEq, Repr, Inhabited

/-- The whole package with what the outside world has in store for it. -/
structure State where
  /-- arithmetic-clock cycles since the compute dies left reset (R389) -/
  now : Nat
  /-- the model's own: draws of free values so far (log entry 1) -/
  oracle : Nat
  /-- the model's own: the core and platform whose slot instruction `exec` runs (log entry 2) -/
  focus : Nat × Nat
  /-- a free choice of this cycle has been made -/
  chosen : Bool
  mem : List Host.Cell
  /-- lines in ciphertext form and poisoned lines, by number (R193, R207) -/
  form : List Nat
  poisoned : List Nat
  /-- 64-bit words whose error cannot be corrected, by number (R208, R211) -/
  uncorrectable : List Nat
  cores : SMap Core
  clusters : SMap Cluster
  dies : SMap Die
  partitions : SMap Partition
  arrivals : List Arrival
  reports : List RingReport
  joins : List Join
  collectives : List Collective
  queues : SMap HostQueue
  launches : List Launch
  commands : List Running
  nextId : Nat
  remap : SMap MsixEntry
  filters : List FilterEntry
  bounces : SMap Bounce
  tablets : List Tablet
  /-- cycle since which a queue has been full without admission (R326) -/
  fullSince : List (QueueId × Nat)
  keys : KeyStore
  hub : Hub
  /-- virtual functions that a partition holds (R332) -/
  functions : SMap Nat
  /-- functions whose notify page drops writes (R349) -/
  resetting : List Nat
  /-- functions under reset whose contexts are being removed (R349) -/
  removing : List Nat
  /-- accesses to host memory made for packets: PASID, address, length and whether they write (R335) -/
  carried : List (BitVec 20 × Nat × Nat × Bool)
  /-- the cycle of each engine's latest request (R357) -/
  requested : SMap Nat
  /-- interrupt messages sent: address and data (R338) -/
  sent : List (Nat × BitVec 32)
  /-- interrupt requests on their way to the remapping table: function and vector (R236, R338) -/
  irqs : List (Nat × Nat)
  answers : List Answer
  images : List Image
  /-- steps of the outside world that have not come about yet (log entry 4) -/
  inputs : List Instr
  deriving DecidableEq, Repr

/-! ## Values of empty things -/

def Regs.empty : Regs := ⟨[], 0, [], [], [], [], []⟩
def Flow.empty : Flow := ⟨0, [], [], none, none⟩
def Micro.empty : Micro := ⟨0, 0, 384, none, 0, none⟩
def Fetch.empty : Fetch := ⟨[], [], []⟩
def Channel.empty : Channel := ⟨.idle, 0, none, 0, .empty, [], false, [], 0⟩
def Placement.empty : Placement :=
  ⟨0, 0, 0, false, 0, 0, 0, 0, 0, 0, 0, 0, 0, 0, 0, 0, 0, 0, 0, 0, 0, 0, 0, 0, false⟩
def Ring.empty : Ring := ⟨0, 0, 0, 0, 0, 0, []⟩
def Half.empty : Half := ⟨none, 0, 0, 0, 0, [], none, none, 0, 0, 0, none, none⟩
def Replay.empty : Replay := ⟨0, 0, 0, 0, 0, 0, 0, 0, 0, 0⟩

/-- A zeroed platform that holds no context (R348). -/
def Ctx.empty : Ctx :=
  { state := .empty, regs := .empty, flow := .empty, micro := .empty, shadow := none, cregs := [], replays := [],
    flights := [], pending := [], poison := [], out := [], flushes := [], awaited := [], moves := [], fences := [], cmds := [],
    cmdSiding := 0, arrivals := [], arrSiding := 0, chan := .empty, rings := [], nextId := 0, queue := [], key := 0,
    qcount := 0, seeds := 0, oldKeys := [], taken := [], units := [], needs := [], seeding := false, window := [],
    bank := [], bindings := [], latch := none,
    regions := [], accMask := [0, 0], why := none, faultPending := none, asyncFaults := [], haltPending := false,
    killPending := false, resume := .none, saved := none, recCloses := false, recAfter := none,
    word := none, wordAside := none, override := [], readySince := 0, overdue := false, wake := 0,
    yielded := false, safe := none, preempt := none, rotating := false, bundles := 0, place := .empty, part := 0,
    gang := 0, gangSize := 0, launch := 0, world := 0, image := 0, imageCtx := 0, descs := [], points := [] }

/-- A drained core (R50, R253, R353). -/
def Core.empty : Core :=
  { plats := [], held := [], imem := [], running := none, last := 3, nextIssue := 0, switchAt := 0, acted := 0, routine := none,
    acc := [], split := false, half0 := .empty, half1 := .empty, cipher := none, stokeNext := 0,
    stokeLast := 3, world := none, away := [] }

def Cluster.empty : Cluster := ⟨[], [], none, 15⟩
def Die.empty : Die := ⟨[], [], [], 0, [], [], 0, 0⟩

/-- PQOS after reset: QUANT 4096, HBMW 1, FABW 1 (R329). -/
def Partition.empty : Partition :=
  { phc := 0, ps3r := [], pqos := 0x10000101, pfq := 0, xl2base := 0, xl2len := 0, faultWait := [], fqWrite := 0,
    launches := 0, worlds := [], slots := [], groups := [], programs := [] }

def KeyStore.empty : KeyStore := ⟨[], [], [], [], 0⟩

/-- Management registers at device reset: STATE BOOT, LIMIT 750, ALARMCFG.LOG 1 (R346, R355). -/
def Hub.empty : Hub :=
  { tagbase := [], hzframe := 0, hzcount := 0, hzbusy := none, alarmcfg := 2, mbstate := 0, mbcause := 0, mbfail := 0,
    eccS1 := 0, eccS2 := 0, eccS3 := 0, eccHbm := 0, integHbm := 0, pwrLevel := 0, pwrInput := 0, pwrlim := 750,
    firmware := 0, boots := 0, linkUp := true, refusals := 0, log := [] }

/-- The machine right after device reset: MBSTAT.STATE is BOOT (R355), nothing is loaded, every register holds the value
of its Reset column or, where it is context-owned, no platform holds a context (R16, R49, R348). -/
def State.reset : State :=
  { now := 0, oracle := 0, focus := (0, 0), chosen := false, mem := [], form := [], poisoned := [], uncorrectable := [],
    cores := [], clusters := [], dies := [], partitions := [], arrivals := [], reports := [], joins := [], collectives := [],
    queues := [], launches := [], commands := [], nextId := 1, remap := [], filters := [], bounces := [], tablets := [],
    fullSince := [], keys := .empty, hub := .empty, functions := [], resetting := [], removing := [], carried := [],
    requested := [], sent := [], irqs := [], answers := [], images := [],
    inputs := [] }

end Sys2Proof.Machine
end

