-- ==== Sys2Proof/Machine/Memory.lean ====
section
/-! DEFINITION. The storage of the package as one space of places, reads and writes of it with form and poison bits, the
address ranges of R188 and R189, translation (R199 to R202) and protected pages (R343). -/
namespace Sys2Proof.Machine

/-! ## Places: one number for each byte of storage -/

def clusterOf (core : Nat) : Nat := core / 16
def dieOfCluster (cl : Nat) : Nat := cl / 6
def dieOf (core : Nat) : Nat := core / 96

/-- Own-S1 offset o of core n (R185). -/
def s1Place (core off : Nat) : Nat := core * 0x800000 + off
/-- S2 offset of a cluster (R187). -/
def s2Place (cl off : Nat) : Nat := 2 ^ 36 + cl * 2 ^ 28 + off
/-- S3 offset of a die (R187). -/
def s3Place (die off : Nat) : Nat := 2 ^ 40 + die * 2 ^ 32 + off
/-- A program's area of the 128 MiB of collective buffers, its first byte and its size (R19, R301); the spec does not say
which part of them it is (log entry 87). -/
def collArea (part prog : Nat) : Nat × Nat :=
  let a := (Config.collArea part prog).1 % 2 ^ 27 / 64 * 64
  (a, min (Config.collArea part prog).2 (2 ^ 27 - a))
/-- A byte of a program's area. -/
def collPlace (part prog off : Nat) : Nat := 2 ^ 43 + (collArea part prog).1 + off
/-- Device HBM byte (R187, R199). -/
def hbmPlace (a : Nat) : Nat := 2 ^ 60 + a
/-- Hypervisor memory (R201, R315, R333). -/
def hvPlace (a : Nat) : Nat := 2 ^ 62 + a
/-- Host memory (R199, R333). -/
def hostPlace (a : Nat) : Nat := 2 ^ 65 + a

def isHostPlace (p : Nat) : Bool := 2 ^ 65 ≤ p
def isHbmPlace (p : Nat) : Bool := 2 ^ 60 ≤ p && p < 2 ^ 62
/-- The S1 of a core, with its bank group (R185). -/
def s1Of (p : Nat) : Option (Nat × Nat) :=
  if p < 384 * 0x800000 then some (p / 0x800000, p % 0x800000) else none

/-! ## Bytes -/

/-- What an unlisted byte reads as (log entry 3). -/
def Mem.byte (m : List Host.Cell) (p : Nat) : Byte := SMap.get 0#8 m p

def Mem.setByte (m : List Host.Cell) (p : Nat) (b : Byte) : List Host.Cell := SMap.set 0#8 m p b

def Mem.read (m : List Host.Cell) (p n : Nat) : List Byte :=
  match n with
  | 0 => []
  | k + 1 => Mem.byte m p :: Mem.read m (p + 1) k

def Mem.write (m : List Host.Cell) (p : Nat) (bs : List Byte) : List Host.Cell :=
  match bs with
  | [] => m
  | b :: t => Mem.write (Mem.setByte m p b) (p + 1) t

/-- The canonical form of memory: places strictly rising, no unlisted value listed. -/
def Mem.wf (m : List Host.Cell) : Bool := SMap.wf 0#8 m

/-- The bytes at a place. -/
def State.bytes (s : State) (p n : Nat) : List Byte := Mem.read s.mem p n

/-- The little-endian number at a place. -/
def State.word (s : State) (p n : Nat) : Nat := ofBytes (s.bytes p n)

/-- The lines that an access of n bytes touches. -/
def linesAt (p n : Nat) : List Nat :=
  if n = 0 then [] else (List.range ((p + n - 1) / 64 - p / 64 + 1)).map (p / 64 + ·)

/-- The lines that an access of n bytes covers whole (R193). -/
def wholeLines (p n : Nat) : List Nat :=
  (linesAt p n).filter (fun l => p ≤ l * 64 && l * 64 + 64 ≤ p + n)

/-- The 64-bit words that n bytes from a place or an address touch, by number. -/
def wordsAt (p n : Nat) : List Nat :=
  if n = 0 then [] else (List.range ((p + n - 1) / 8 - p / 8 + 1)).map (p / 8 + ·)

/-- n bytes from a place cover a word whole. -/
def coversWord (p n w : Nat) : Bool := p ≤ w * 8 && w * 8 + 8 ≤ p + n

/-- Write bytes as a vector, scalar, moment, tile or converting path does: a whole line becomes plaintext and loses its
poison, a partial one keeps both bits (R193); a whole word has new check bits (R209). -/
def State.store (s : State) (p : Nat) (bs : List Byte) : State :=
  let ls := wholeLines p bs.length
  { s with
    mem := Mem.write s.mem p bs
    form := s.form.filter (fun l => !ls.contains l)
    poisoned := s.poisoned.filter (fun l => !ls.contains l)
    uncorrectable := s.uncorrectable.filter (fun w => !coversWord p bs.length w) }

/-- The line is in ciphertext form (R193). -/
def State.isCipher (s : State) (line : Nat) : Bool := s.form.contains line

def State.isPoisoned (s : State) (line : Nat) : Bool := s.poisoned.contains line

def State.setForm (s : State) (line : Nat) (b : Bool) : State :=
  { s with form := if b then insertNat s.form line else eraseNat s.form line }

def State.poisonLine (s : State) (line : Nat) : State := { s with poisoned := insertNat s.poisoned line }

/-- Write bytes as a raw copy does, with the form bits of the source's lines for the lines it covers whole (R193). -/
def State.storeRaw (s : State) (p : Nat) (bs : List Byte) (cipher : List Nat) : State :=
  cipher.foldl (fun s l => s.setForm l true) (s.store p bs)

/-- A word that a read may not use: of a poisoned line, or uncorrectable (R208). -/
def State.badWord (s : State) (w : Nat) : Bool := s.isPoisoned (w / 8) || s.uncorrectable.contains w

/-- A read of n bytes meets such a word (R208). -/
def State.badRead (s : State) (p n : Nat) : Bool := (wordsAt p n).any s.badWord

/-- A write of n bytes changes part of such a word (R209). -/
def State.badWrite (s : State) (p n : Nat) : Bool :=
  (wordsAt p n).any (fun w => !coversWord p n w && s.badWord w)

/-! ## Addresses of a context (R188, R189) -/

/-- Where an address points, by its range. -/
inductive Loc where
  | own (off : Nat)
  | peer (core off : Nat)
  | s2 (off : Nat)
  | s3 (die off : Nat)
  | virt (va : Nat)
  | nowhere
  deriving DecidableEq, Repr

/-- The range of R188 or R189 that holds an address, for a context of a core. -/
def locate (core addr : Nat) : Loc :=
  if addr < 0x800000 then .own addr
  else if 0x100000000 ≤ addr ∧ addr < 0x108000000 then
    let q := (addr - 0x100000000) / 0x800000
    if q = core % 16 then .nowhere else .peer (core / 16 * 16 + q) (addr % 0x800000)
  else if 0x200000000 ≤ addr ∧ addr < 0x20A000000 then .s2 (addr - 0x200000000)
  else if 0x300000000 ≤ addr ∧ addr < 0x370000000 then .s3 (dieOf core) (addr - 0x300000000)
  else if 0x400000000 ≤ addr ∧ addr < 0x800000000 then
    let d := (addr - 0x400000000) / 2 ^ 32
    let off := (addr - 0x400000000) % 2 ^ 32
    if off < 0x70000000 then .s3 d off else .nowhere
  else if 0x100000000000 ≤ addr ∧ addr < 0x100800000000 then .virt addr
  else .nowhere

/-- The index of the window entry of a virtual address (R199). -/
def windowIndex (va : Nat) : Nat := (va - 0x100000000000) / 2 ^ 21

/-- Fields of a window entry (R199). -/
def entV (e : BitVec 32) : Bool := e.getLsbD 31
def entR (e : BitVec 32) : Bool := e.getLsbD 30
def entW (e : BitVec 32) : Bool := e.getLsbD 29
def entProt (e : BitVec 32) : Bool := e.getLsbD 28
def entCmp (e : BitVec 32) : Bool := e.getLsbD 27
def entHost (e : BitVec 32) : Bool := e.getLsbD 26
def entFrame (e : BitVec 32) : Nat := (e.extractLsb' 0 22).toNat

/-- The window entry that translates a virtual address for a context. -/
def Ctx.entry (c : Ctx) (va : Nat) : BitVec 32 := SMap.get 0#32 c.window (windowIndex va)

/-- The place of a frame's byte (R199). -/
def framePlace (host : Bool) (frame off : Nat) : Nat :=
  if host then hostPlace (frame * 2 ^ 21 + off) else hbmPlace (frame * 2 ^ 21 + off)

/-- The place a context's address names; the address has passed its checks. -/
def placeOf (core : Nat) (c : Ctx) (addr : Nat) : Nat :=
  match locate core addr with
  | .own off => s1Place core off
  | .peer q off => s1Place q off
  | .s2 off => s2Place (clusterOf core) off
  | .s3 d off => s3Place d off
  | .virt va => let e := c.entry va; framePlace (entHost e) (entFrame e) (va % 2 ^ 21)
  | .nowhere => 0

/-- The address is in own S1. -/
def isOwn (core addr : Nat) : Bool :=
  match locate core addr with
  | .own _ => true
  | .peer .. | .s2 _ | .s3 .. | .virt _ | .nowhere => false

def isVirt (core addr : Nat) : Bool :=
  match locate core addr with
  | .virt _ => true
  | .own _ | .peer .. | .s2 _ | .s3 .. | .nowhere => false

/-- Every byte of the access is in own S1. -/
def spanOwn (addr len : Nat) : Bool := addr + len ≤ 0x800000

/-- Pages of the access on a frame of device HBM that does not exist. -/
def badFrame (core : Nat) (c : Ctx) (addr : Nat) : Bool :=
  match locate core addr with
  | .virt va => let e := c.entry va; entV e && !entHost e && 262144 ≤ entFrame e
  | .own _ | .peer .. | .s2 _ | .s3 .. | .nowhere => false

/-- Wrap an address at 48 bits (R392, R438, R461). -/
def wrap48 (a : Nat) : Nat := a % 2 ^ 48

/-- The addresses at which an access of n bytes meets a new line; every byte of a line shares its checks. -/
def linePoints (addr n : Nat) : List Nat :=
  if n = 0 then [] else
    addr :: ((List.range ((addr + n - 1) / 64 - addr / 64)).map (fun i => (addr / 64 + 1 + i) * 64))

/-! ## Windows (R190, R191) -/

def Ctx.creg (c : Ctx) (n : Nat) : Word := SMap.get 0#64 c.cregs n
def Ctx.setCreg (c : Ctx) (n : Nat) (v : Word) : Ctx := { c with cregs := SMap.set 0#64 c.cregs n v }

/-- The bank of an S1 offset and its group (R185). -/
def bankOf (off : Nat) : Nat := off / 0x20000
def groupOf (off : Nat) : Nat := off / 0x200000

/-- Bank n is in a BWIN mask. -/
def inBwin (bwin : Word) (off : Nat) : Bool := bwin.getLsbD (bankOf off)

/-- The offset lies in a window of the layout of S2WIN and S3WIN. -/
def inWin (w : Word) (off : Nat) : Bool :=
  (w.extractLsb' 0 16).toNat * 0x10000 ≤ off && off < (w.extractLsb' 32 16).toNat * 0x10000

/-- Contexts of a core, resident or held. -/
def Core.all (k : Core) : List Ctx := (k.plats.map (·.2)) ++ k.held.map (·.ctx)

def State.core (s : State) (n : Nat) : Core := SMap.get Core.empty s.cores n

/-- The bank-owner map (R191): the bank of a core belongs to a context of the gang. -/
def State.bankOwner (s : State) (core off gang : Nat) : Bool :=
  (s.core core).all.any (fun o => o.state != .empty && o.gang == gang && inBwin (o.creg 0x020) off) ||
    (s.core core).away.any (fun a => a.gang == gang && inBwin a.bwin off)

/-- The byte lies within the context's windows (R191). -/
def inWindows (s : State) (core : Nat) (c : Ctx) (addr : Nat) : Bool :=
  match locate core addr with
  | .own off => inBwin (c.creg 0x020) off
  | .peer q off => s.bankOwner q off c.gang
  | .s2 off => inWin (c.creg 0x021) off
  | .s3 d off => (c.creg 0x022).getLsbD (48 + d) && inWin (c.creg 0x022) off
  | .virt _ => true
  | .nowhere => false

/-! ## Second stage and composition (R201, R202, R344) -/

def State.partition (s : State) (p : Nat) : Partition := SMap.get Partition.empty s.partitions p

/-- XL2BASE.BASE and XL2LEN.FRAMES (R201). -/
def Partition.l2base (q : Partition) : Nat := (q.xl2base.extractLsb' 12 36).toNat * 4096
def Partition.l2len (q : Partition) : Nat := (q.xl2len.extractLsb' 0 22).toNat

/-- Entry f of the second-stage array; none where absent. -/
def State.stage2 (s : State) (part f : Nat) : Option (BitVec 32) :=
  let q := s.partition part
  if f < q.l2len then some (BitVec.ofNat 32 (s.word (hvPlace (q.l2base + 4 * f)) 4)) else none

/-- TAGBASE covers a frame of device HBM (R344). -/
def State.covered (s : State) (frame : Nat) : Bool :=
  let t := SMap.get 0#64 s.hub.tagbase (frame % 8)
  t.getLsbD 63 && frame / 8 < (t.extractLsb' 48 15).toNat

/-- What composing a window entry gives (R202). -/
inductive Composed where
  | entry (e : BitVec 32)
  | invalid
  /-- a table or data fault with its guest-physical address (R204) -/
  | hv (kind gpa : Nat)
  deriving DecidableEq, Repr

/-- Compose window entry i of a context (R202, R344). -/
def State.compose (s : State) (c : Ctx) (i va : Nat) : Composed :=
  let g := c.place.xlat + 4 * i
  match s.stage2 c.part (g / 2 ^ 21) with
  | none => .hv 1 g
  | some t =>
    if !entV t || !entR t then .hv 1 g
    else
      let e1 := BitVec.ofNat 32 (s.word (framePlace (entHost t) (entFrame t) (g % 2 ^ 21)) 4)
      if !entV e1 then .invalid
      else
        let gpa := entFrame e1 * 2 ^ 21 + va % 2 ^ 21
        match s.stage2 c.part (entFrame e1) with
        | none => .hv 2 gpa
        | some e2 =>
          if !entV e2 then .hv 2 gpa
          else if entProt e2 && !s.covered (entFrame e2) then .hv 2 gpa
          else
            .entry (BitVec.ofNat 32 (2 ^ 31 + (entR e1 && entR e2).toNat * 2 ^ 30 + (entW e1 && entW e2).toNat * 2 ^ 29 +
              (entProt e2).toNat * 2 ^ 28 + (entCmp e1 && entCmp e2 && !entProt e2).toNat * 2 ^ 27 +
              (entHost e2).toNat * 2 ^ 26 + entFrame e2))

/-! ## The inline path of protected pages (R343) -/

/-- The key of a world's protected pages. -/
def pageKey (s : State) (world : Nat) : List Byte :=
  hkdf (toBytes 32 (SMap.get 0#256 s.keys.keys world).toNat) [] [0x70#8, 0x61#8, 0x67#8, 0x65#8]

/-- Byte b of the tag region of a stack (R344). -/
def tagPlace (s : State) (stack b : Nat) : Nat :=
  let base := ((SMap.get 0#64 s.hub.tagbase stack).extractLsb' 0 18).toNat
  hbmPlace ((base + 8 * (b / 2 ^ 21)) * 2 ^ 21 + b % 2 ^ 21)

/-- Places of the write counter and of the tag of a line of device HBM (R343). -/
def lineMeta (s : State) (line : Nat) : Nat × Nat :=
  let a := (line * 64) % 2 ^ 60
  let frame := a / 2 ^ 21
  let j := a % 2 ^ 21 / 64
  let base := frame / 8 * 655360
  (tagPlace s (frame % 8) (base + 4 * j), tagPlace s (frame % 8) (base + 131072 + 16 * j))

/-- The IV of a protected line, a free value of 96 bits (log entry 10). -/
def lineIv (line counter : Nat) : List Byte := toBytes 12 (Config.pageIv line counter).toNat

/-- The 64 bytes of a protected line, or none where its tag fails (R343, R211). -/
def readProtLine (s : State) (world line : Nat) : Option (List Byte) :=
  let (cp, tp) := lineMeta s line
  let ctr := s.word cp 4
  if ctr = 0 then some (List.replicate 64 0#8)
  else gcmOpen (pageKey s world) (lineIv line ctr) [] (s.bytes (line * 64) 64) (s.bytes tp 16)

/-- Write a protected line's 64 bytes, or none where its counter is spent (R343). -/
def writeProtLine (s : State) (world line : Nat) (bs : List Byte) : Option State :=
  let (cp, tp) := lineMeta s line
  let ctr := s.word cp 4 + 1
  if 2 ^ 32 ≤ ctr then none
  else
    let (ct, tag) := gcmSeal (pageKey s world) (lineIv line ctr) [] bs
    let s1 := s.store (line * 64) ct
    some { s1 with mem := Mem.write (Mem.write s1.mem cp (toBytes 4 ctr)) tp tag }

end Sys2Proof.Machine
end

