-- ==== Sys2Proof/Machine/Ops.lean ====
section
/-! DEFINITION. Named operations on contexts and registers: reading, landing of results (R89, R93, R147, R435, R436),
taking an exception (R304 to R308, R313, R315) and resuming from its record (R310, R311, R314). -/
namespace Sys2Proof.Machine

/-! ## Cores and contexts -/

def State.setCore (s : State) (n : Nat) (k : Core) : State := { s with cores := SMap.put s.cores n k }

/-- The context of a platform; the empty one where nothing was ever placed. -/
def Core.ctx (k : Core) (plat : Nat) : Ctx := SMap.get Ctx.empty k.plats plat

def Core.setCtx (k : Core) (plat : Nat) (c : Ctx) : Core := { k with plats := SMap.put k.plats plat c }

def State.ctx (s : State) (core plat : Nat) : Ctx := (s.core core).ctx plat

def State.setCtx (s : State) (core plat : Nat) (c : Ctx) : State := s.setCore core ((s.core core).setCtx plat c)

def State.cluster (s : State) (n : Nat) : Cluster := SMap.get Cluster.empty s.clusters n
def State.setCluster (s : State) (n : Nat) (c : Cluster) : State := { s with clusters := SMap.put s.clusters n c }
def State.die (s : State) (n : Nat) : Die := SMap.get Die.empty s.dies n
def State.setDie (s : State) (n : Nat) (d : Die) : State := { s with dies := SMap.put s.dies n d }
def State.setPartition (s : State) (n : Nat) (p : Partition) : State :=
  { s with partitions := SMap.put s.partitions n p }

/-! ## Reading registers -/

/-- x[n]; x0 reads 0 (R85). -/
def Regs.getX (r : Regs) (n : Nat) : Word := if n = 0 then 0 else SMap.get 0#64 r.x n
/-- p[n]; p0 reads true (R85). -/
def Regs.getP (r : Regs) (n : Nat) : Bool := n = 0 || r.p.getLsbD n
def Regs.getA (r : Regs) (n : Nat) : Word := SMap.get 0#64 r.a n
def Regs.getV (r : Regs) (n : Nat) : Vec := SMap.get 0#3072 r.v n
def Regs.getM (r : Regs) (n : Nat) : Mom := SMap.get 0#6144 r.m n
def Regs.getH (r : Regs) (n : Nat) : Vec := SMap.get 0#3072 r.h n
def Regs.getN (r : Regs) (n : Nat) : BitVec 16 := SMap.get 0#16 r.n n

/-- x[n] := v; a write to x0 is discarded (R86). -/
def Regs.setX (r : Regs) (n : Nat) (v : Word) : Regs := if n = 0 then r else { r with x := SMap.set 0#64 r.x n v }
/-- p[n] := b; a write to p0 is discarded (R86). -/
def Regs.setP (r : Regs) (n : Nat) (b : Bool) : Regs :=
  if n = 0 then r
  else { r with p := if b then r.p ||| (1#16 <<< n) else r.p &&& ~~~(1#16 <<< n) }
def Regs.setA (r : Regs) (n : Nat) (v : Word) : Regs := { r with a := SMap.set 0#64 r.a n v }
def Regs.setV (r : Regs) (n : Nat) (v : Vec) : Regs := { r with v := SMap.set 0#3072 r.v n v }
def Regs.setM (r : Regs) (n : Nat) (v : Mom) : Regs := { r with m := SMap.set 0#6144 r.m n v }
def Regs.setH (r : Regs) (n : Nat) (v : Vec) : Regs := { r with h := SMap.set 0#3072 r.h n v }
def Regs.setN (r : Regs) (n : Nat) (v : BitVec 16) : Regs := { r with n := SMap.set 0#16 r.n n v }

/-- The bits of a register of a class that a bundle names. -/
def Regs.bits (r : Regs) : RegId → Nat
  | .x n => (r.getX n).toNat
  | .p n => (r.getP n).toNat
  | .a n => (r.getA n).toNat
  | .v n => (r.getV n).toNat
  | .m n => (r.getM n).toNat

/-- An operand as a slot reads it: from the record in a replay, else from the register (R310). -/
def Ctx.operand (c : Ctx) (r : RegId) : Nat :=
  match c.override.lookup r with
  | some v => v
  | none => c.regs.bits r

def Ctx.rdX (c : Ctx) (n : BitVec 6) : Word := BitVec.ofNat 64 (c.operand (.x n.toNat))
def Ctx.rdA (c : Ctx) (n : BitVec 5) : Word := BitVec.ofNat 64 (c.operand (.a n.toNat))
def Ctx.rdV (c : Ctx) (n : BitVec 11) : Vec := BitVec.ofNat 3072 (c.operand (.v n.toNat))
def Ctx.rdM (c : Ctx) (n : BitVec 8) : Mom := BitVec.ofNat 6144 (c.operand (.m n.toNat))
def Ctx.rdP (c : Ctx) (n : BitVec 4) : Bool := c.operand (.p n.toNat) != 0

/-! ## Bank streams (R146, R149, R425) -/

def streamSlot (seed no : Nat) : Nat := seed * 8 + no

/-- The key of a seeding of the context. -/
def Ctx.keyOf (c : Ctx) (seed : Nat) : BitVec 256 := if seed = c.seeds then c.key else SMap.get 0#256 c.oldKeys seed

/-- Bytes taken so far from a bank stream of a seeding, and units generated of it. -/
def Ctx.takenOf (c : Ctx) (seed no : Nat) : Nat := SMap.get 0 c.taken (streamSlot seed no)
def Ctx.unitsOf (c : Ctx) (seed no : Nat) : Nat := SMap.get 0 c.units (streamSlot seed no)

/-- The j-th next byte of a bank stream. -/
def Ctx.drawByte (c : Ctx) (seed no j : Nat) : Byte := streamByte (c.keyOf seed) no (c.takenOf seed no + j)

/-- Units that hold the next n bytes of a stream have all been generated. -/
def Ctx.hasUnits (c : Ctx) (seed no n : Nat) : Bool := n = 0 || c.takenOf seed no + n ≤ 384 * c.unitsOf seed no

/-- A writer needs the next n bytes of a stream: units that nobody has asked for are asked for (R149). -/
def Ctx.ask (c : Ctx) (now seed no n : Nat) : Ctx :=
  let asked := c.unitsOf seed no + (c.needs.filter (fun u => u.2 = (seed, no))).length
  let due := if n = 0 then 0 else ceilDiv (c.takenOf seed no + n) 384 - asked
  { c with needs := c.needs ++ List.replicate due (now, seed, no) }

/-- A writer takes bytes of a stream. R35 lists stochastic bank writes among the users of the random queue and R146 says that
converting writers never pop it: the model follows R146 (log entry 89). -/
def Ctx.draw (c : Ctx) (seed no n : Nat) : Ctx :=
  { c with taken := SMap.set 0 c.taken (streamSlot seed no) (c.takenOf seed no + n) }

/-- A writer takes its next bytes of a stream and asks for the units that hold them; the writes of a TDRAIN wait for them, and so
does an STC of a routine that may stall (R149, R160; log entry 85). -/
def Ctx.drawNow (c : Ctx) (now seed no n : Nat) : Ctx := (c.ask now seed no n).draw seed no n

/-- a[n][47:0], a byte address, and a[n][63:48], a pitch in 64-byte units (R87). -/
def addrOf (a : Word) : Nat := (a.extractLsb' 0 48).toNat
def pitchOf (a : Word) : Nat := (a.extractLsb' 48 16).toNat

/-- A guard as a slot reads it (R77). -/
def Ctx.guard (c : Ctx) (g : Guard) : Bool := c.rdP g.pg != g.pn

/-! ## Control registers -/

/-- A control register as a SETC leaves it: RW fields take v, W1C fields clear where v has 1s, the rest keeps (R15,
R137, R147, R190, R255, R257, R279, R312, R323, R435). -/
def cregWritten (n : Nat) (old v : Word) : Word :=
  let rw (mask : Word) : Word := (old &&& ~~~mask) ||| (v &&& mask)
  if n = 0x030 then (if v.extractLsb' 0 2 = 3#2 then old else rw 3#64)
  else if n = 0x031 then old &&& ~~~(v &&& 0x1F#64)
  else if n = 0x040 then rw 0xFFFF0007#64
  else if n = 0x041 then old &&& ~~~(v &&& 7#64)
  else if n = 0x060 then rw 0x3FFF#64
  else if n = 0x062 then rw 0x10000#64
  else if n = 0x080 then rw 0xFFFFFFFF01FF0000#64
  else if n = 0x081 then rw 0x1FFFF0001FFFF#64
  else if n = 0x090 then rw 0x7FFFF8#64
  else if n = 0x091 then rw 0x7FFFF8#64
  else if isBfmt n then rw 0xFFFF7F#64
  else old

/-- BFMT of bank n of a context (R137). -/
def Ctx.bfmt (c : Ctx) (bank : Nat) : Nat := (c.creg (0x100 + bank)).toNat

/-- SPAREA.SPN (R323). -/
def Ctx.spn (c : Ctx) : Nat := ((c.creg 0x090).extractLsb' 48 16).toNat
def Ctx.setSpn (c : Ctx) (k : Nat) : Ctx :=
  c.setCreg 0x090 (((c.creg 0x090) &&& 0xFFFFFFFFFFFF#64) ||| (BitVec.ofNat 64 k <<< 48))

/-! ## Landing of results -/

def RegWrite.reg? : RegWrite → Option RegId
  | .x n _ => if n = 0 then none else some (.x n)
  | .p n _ => if n = 0 then none else some (.p n)
  | .a n _ => some (.a n)
  | .v n _ => some (.v n)
  | .m n _ => some (.m n)
  | .shadow r => some r
  | .creg .. | .fpflags _ | .mflags _ | .replay .. | .portV | .portM => none

/-- Clear the poison mark of a register that is written (R92, R365). -/
def Ctx.unpoison (c : Ctx) (r : RegId) : Ctx := { c with poison := c.poison.filter (fun p => p.1 != r) }

/-- One result lands. -/
def Ctx.land (c : Ctx) (w : RegWrite) : Ctx :=
  match w with
  | .x n v => { c with regs := c.regs.setX n v }.unpoison (.x n)
  | .p n b => { c with regs := c.regs.setP n b }.unpoison (.p n)
  | .a n v => { c with regs := c.regs.setA n v }.unpoison (.a n)
  | .v n v => { c with regs := c.regs.setV n v }.unpoison (.v n)
  | .m n v => { c with regs := c.regs.setM n v }.unpoison (.m n)
  | .creg n v => c.setCreg n (cregWritten n (c.creg n) v)
  | .fpflags b => c.setCreg 0x031 (c.creg 0x031 ||| BitVec.ofNat 64 b)
  | .mflags b => c.setCreg 0x041 (c.creg 0x041 ||| BitVec.ofNat 64 b)
  | .replay n d => { c with replays := SMap.put c.replays n d }
  | .portV => c
  | .portM => c
  | .shadow _ => c

def RegWrite.isCreg : RegWrite → Bool
  | .creg .. => true
  | .x .. | .p .. | .a .. | .v .. | .m .. | .fpflags _ | .mflags _ | .replay .. | .portV | .portM | .shadow _ => false

/-- Results land in issue order, slots in order within a bundle; control-register writes before the flags of the same
cycle, so that a flag set then stands (R93, R436). At an early landing this holds of all results together, those of earlier bundles
too (log entry 97). -/
def Ctx.landAll (c : Ctx) (fs : List Flight) : Ctx :=
  ((fs.filter (fun f => f.write.isCreg)) ++ (fs.filter (fun f => !f.write.isCreg))).foldl (fun c f => c.land f.write) c

/-- Land what is due at a cycle. -/
def Ctx.landDue (c : Ctx) (now : Nat) : Ctx :=
  let due := c.flights.filter (fun f => f.land ≤ now)
  { c.landAll due with flights := c.flights.filter (fun f => !(f.land ≤ now)) }

/-- A result that has landed early: only its shadow is left. -/
def Flight.early (f : Flight) : Option Flight := f.write.reg?.map (fun r => { f with write := .shadow r })

/-- Land everything in flight at once (R93); the shadows of R91 still end at their cycles. -/
def Ctx.landEarly (c : Ctx) : Ctx := { c.landAll c.flights with flights := c.flights.filterMap Flight.early }

def RegWrite.isShadow : RegWrite → Bool
  | .shadow _ => true
  | .x .. | .p .. | .a .. | .v .. | .m .. | .creg .. | .fpflags _ | .mflags _ | .replay .. | .portV | .portM => false

/-- A write is a result: no shadow of one that has landed, no marker of a guarded-off slot. -/
def RegWrite.isResult : RegWrite → Bool
  | .shadow _ | .portV | .portM => false
  | .x .. | .p .. | .a .. | .v .. | .m .. | .creg .. | .fpflags _ | .mflags _ | .replay .. => true

/-- The landed-early mask of a fault of a bundle issued at a cycle (R308, LANDED). -/
def landedMask (fs : List Flight) (at_ now : Nat) : Nat :=
  (List.range 32).foldl (fun m d =>
    if fs.any (fun f => f.issued + d = at_ && now < f.land && f.write.isResult)
    then m + 2 ^ d else m) 0

/-- A register waits for a value: pending, or a fixed-latency write in flight. -/
def Ctx.isPending (c : Ctx) (r : RegId) : Bool := c.pending.contains r

/-- The latest landing cycle of a write in flight to a register. -/
def Ctx.inFlight (c : Ctx) (r : RegId) : Option Nat :=
  (c.flights.filterMap (fun f => if f.write.reg? = some r then some f.land else none)).max?

def Ctx.unpend (c : Ctx) (r : RegId) : Ctx := { c with pending := c.pending.filter (· != r) }

/-- Class and number of a register as a fault value (R303). -/
def RegId.value : RegId → Nat
  | .x n => n
  | .p n => 4096 + n
  | .a n => 8192 + n
  | .v n => 12288 + n
  | .m n => 16384 + n

/-! ## Fault codes (R303) -/

def cILLEGAL : Nat := 0x01
def cUNBOUND : Nat := 0x02
def cPORT : Nat := 0x03
def cDUPDEST : Nat := 0x04
def cDELAYBR : Nat := 0x05
def cSHADOW : Nat := 0x06
def cTBUSY : Nat := 0x07
def cBANKCONF : Nat := 0x08
def cFMT : Nat := 0x09
def cSHAPE : Nat := 0x0A
def cPAGE : Nat := 0x10
def cPROT : Nat := 0x11
def cWINDOW : Nat := 0x12
def cFORM : Nat := 0x13
def cALIGN : Nat := 0x14
def cFRES : Nat := 0x18
def cSTEPS : Nat := 0x19
def cMICRO : Nat := 0x1A
def cNEGVAR : Nat := 0x20
def cSPILL : Nat := 0x28
def cHWERR : Nat := 0x30
def cSEALTAG : Nat := 0x31
def cSAVESTALE : Nat := 0x32
def cTRAP : Nat := 0x40

/-! ## CTXID and the steward's queue -/

/-- CTXID: launch number, partition and rank (R389). -/
def Ctx.ctxid (c : Ctx) : Word :=
  BitVec.ofNat 64 (c.launch % 2 ^ 24 * 2 ^ 40 + c.part % 256 * 2 ^ 32 + c.place.rank % 2 ^ 32)

/-- A 32-byte entry of the fault queue (R315). -/
def faultEntry (ctxid : Word) (core plat : Nat) (f : FaultInfo) : List Byte :=
  toBytes 8 ctxid.toNat ++ toBytes 2 core ++ toBytes 1 plat ++ toBytes 1 f.code ++ toBytes 1 f.slot ++ toBytes 3 0 ++
    toBytes 4 (f.mpc % 8192) ++ toBytes 2 (match f.upc with | some u => u % 8192 + 32768 | none => 0) ++ toBytes 2 0 ++
    toBytes 8 f.value

/-- An entry is on its way to the partition's fault queue; none is lost (R315). -/
def State.queueFault (s : State) (part : Nat) (entry : List Byte) : State :=
  let q := s.partition part
  s.setPartition part { q with faultWait := q.faultWait ++ [entry] }

/-! ## Completion of commands (R337) -/

/-- The key of queue interface q of a function (R333). -/
def queueKey (fn q : Nat) : Nat := fn * 65536 + q

def stOK : Nat := 0x00
def stBADOP : Nat := 0x10
def stBADPASID : Nat := 0x11
def stREFUSED : Nat := 0x12
def stLOADFAIL : Nat := 0x13
def stOCCUPIED : Nat := 0x14
def stABORT : Nat := 0x15
def stSEALTAG : Nat := 0x16
def stSAVESTALE : Nat := 0x17
def stBADSYNC : Nat := 0x18
def stFILTERED : Nat := 0x19

/-- The 32-byte completion record of a packet (R337). -/
def completionRecord (k : Packet) (status count detail : Nat) : List Byte :=
  toBytes 8 k.tag.toNat ++ toBytes 2 status ++ toBytes 1 k.op.toNat ++ toBytes 5 0 ++ toBytes 8 count ++ toBytes 8 detail

/-- A packet is complete: its record waits for the completion ring (R337). -/
def State.completePacket (s : State) (key : Nat) (k : Packet) (status count detail : Nat) : State :=
  match SMap.find s.queues key with
  | none => s
  | some q =>
    let q1 := { q with open_ := q.open_ - 1
                       done := q.done ++ [(completionRecord k status count detail, k.flags.getLsbD 0, k.pasid.extractLsb' 0 20)] }
    { s with queues := SMap.put s.queues key q1 }

/-- Discard a pre-emption asked for; its packet completes with REFUSED (R62, R391). -/
def State.refusePreempt (s : State) (core plat : Nat) : State :=
  let c := s.ctx core plat
  match c.preempt with
  | some (_, q, k) => (s.setCtx core plat { c with preempt := none }).completePacket q k stREFUSED 0 (core * 4 + plat)
  | none => s

/-- An HWERR in own S1 sets the poison bit of the line that it was met in (R208, R209). -/
def State.meetFault (s : State) (core code value : Nat) : State :=
  if code = cHWERR && isOwn core value then s.poisonLine (s1Place core value / 64) else s

/-! ## Leaving RUNNING -/

/-- The context may be selected when it is READY: no kill and no save takes it off its platform. -/
def Ctx.mayRun (c : Ctx) : Bool :=
  c.state == .ready && !c.killPending && (match c.why with | some (.leaving _) => false | _ => true)

/-- Another platform of the core is READY (R54, R476). -/
def State.otherReady (s : State) (core plat : Nat) : Bool := (s.core core).plats.any (fun o => o.1 != plat && o.2.mayRun)

/-- The platform is not the core's running one any more. Where another is READY nothing issues before the cycle `switch`; else
the core idles, and the same platform may issue again from the cycle `next` on, another one not before `switch` (R53, R54). -/
def State.yieldCore (s : State) (core plat : Nat) (next switch : Nat) : State :=
  let k := s.core core
  s.setCore core { k with
    running := if k.running = some plat then none else k.running
    nextIssue := max k.nextIssue (if s.otherReady core plat then switch else next)
    switchAt := max k.switchAt switch }

/-! ## Taking an exception -/

/-- What the record keeps of the faulting slot besides the fault itself (R308, R309). -/
structure Capture where
  done : Nat
  preds : BitVec 16
  scalars : List Nat
  vectors : List (List Byte)
  deriving DecidableEq, Repr, Inhabited

/-- The transfer that the record of a fault keeps, with the delay bundles left after the faulting bundle (R308); none of
them has run where the fault is asynchronous (R305). -/
def recordXfer (c : Ctx) (slot : Nat) : Option Xfer :=
  c.flow.xfer.map (fun t => { t with left := if slot = 8 then t.left else t.left - 1 })

def xferByte (x : Option Xfer) : Nat :=
  match x with
  | some t => t.left % 4 + 4 + t.taken.toNat * 8
  | none => 0

/-- The 2 KiB record of a fault (R308). -/
def faultRecord (c : Ctx) (f : FaultInfo) (cap : Capture) (landed : Nat) : List Byte :=
  let ncnt := (List.range 4).flatMap (fun i => toBytes 2 (c.regs.getN i).toNat)
  let x := recordXfer c f.slot
  let stitch := f.upc.isSome
  toBytes 4 (f.mpc % 8192) ++
  toBytes 2 (match f.upc with | some u => u % 8192 + 32768 | none => 0) ++
  toBytes 1 f.code ++ toBytes 1 f.slot ++ toBytes 1 cap.done ++ toBytes 1 (xferByte x) ++
  toBytes 2 (if stitch then c.micro.steps else 0) ++
  toBytes 4 (match x with | some t => t.target % 8192 | none => 0) ++
  toBytes 8 f.value ++ toBytes 4 landed ++ toBytes 1 (cap.vectors.length) ++ toBytes 1 0 ++
  toBytes 2 cap.preds.toNat ++
  toBytes 32 (packLanes 64 (cap.scalars.take 4)) ++
  (if stitch then
    toBytes 2 (match c.micro.link with | some l => l % 8192 + 32768 | none => 0) ++ ncnt ++ toBytes 6 0 ++
    toBytes 48 c.micro.flags.toNat ++ toBytes 2 c.micro.count ++ toBytes 382 0
  else toBytes 448 0) ++
  ((cap.vectors.take 4).flatten ++ List.replicate 1536 0#8).take 1536

/-- A fault of the code goes to the handler: TRAP and NEGVAR with TVEC.EN = 1 and TCAUSE.INH = 0; SVC never (R303,
R304, R441). A stitch's RAISE of TRAP counts as a TRAP whatever its value (R163). -/
def Ctx.toHandler (c : Ctx) (f : FaultInfo) : Bool :=
  ((f.code = cTRAP && (f.upc.isSome || f.value < 0x10000)) || f.code = cNEGVAR) && (c.creg 0x060).getLsbD 13 &&
    !(c.creg 0x062).getLsbD 15

/-- Entry to the in-context handler (R313). -/
def Ctx.enterHandler (c : Ctx) (f : FaultInfo) : Ctx :=
  let c1 := { c with
    shadow := if f.upc.isSome then some ⟨c.micro, c.regs.h, c.regs.n, c.saved⟩ else none
    wordAside := c.word
    flow := { c.flow with pc := ((c.creg 0x060).extractLsb' 0 13).toNat, xfer := none, after := none }
    resume := .none, override := [] }
  ((c1.setCreg 0x061 (BitVec.ofNat 64 (f.mpc % 8192))).setCreg 0x062
    (BitVec.ofNat 64 (0x8000 + f.slot * 256 + f.code))).setCreg 0x063 (BitVec.ofNat 64 f.value)

/-- The context is FAULTED and its fault-queue entry on its way (R304, R315). -/
def State.deliverSteward (s : State) (core plat : Nat) (f : FaultInfo) : State :=
  let c := s.ctx core plat
  (s.setCtx core plat { c with state := .faulted, why := none, faultPending := none }).queueFault c.part
    (faultEntry c.ctxid core plat f)

/-- Take a fault: the context stands at no safe point any more (R319), results in flight land at once, the record is written
to FREC, and either the handler is entered or the steward is told, at once or when the pending results have landed (R93, R304,
R307, R308, R313). `at_` is the issue cycle of the faulting bundle. -/
def State.takeFault (s : State) (core plat : Nat) (f : FaultInfo) (cap : Capture) (at_ : Nat) : State :=
  let c0 := s.ctx core plat
  let landed := landedMask c0.flights at_ s.now
  let c := { c0.landEarly with
    recCloses := (match c0.flow.xfer with | some t => t.closes | none => false)
    recAfter := c0.flow.after, safe := none }
  let s1 := s.store (s1Place core c.place.frec) (faultRecord c f cap landed)
  if c.toHandler f then
    let s2 := s1.setCtx core plat (c.enterHandler f)
    let k := s2.core core
    s2.setCore core { k with nextIssue := max k.nextIssue (s.now + 3) }
  else
    let s2 := (s1.setCtx core plat { c with resume := .none, override := [] }).yieldCore core plat (s.now + 3) (s.now + 3)
    if c.pending.isEmpty then s2.deliverSteward core plat f
    else s2.setCtx core plat { (s2.ctx core plat) with state := .blocked, why := some .fault, faultPending := some f }

/-! ## Hardware loops and the next bundle (R94, R377, R394) -/

/-- The decision at the end bundle of active loops: the next bundle and the loop stack, innermost first (R394). -/
def loopNext (t : Nat) : List LoopEntry → Nat × List LoopEntry
  | [] => (t + 1, [])
  | l :: rest =>
    if l.last = t then
      if 0 < l.left then (l.first, { l with left := l.left - 1 } :: rest) else loopNext t rest
    else (t + 1, l :: rest)

/-- Loops that do not contain the target of a landing BR or BRX are closed (R377). -/
def closeLoops (target : Nat) (ls : List LoopEntry) : List LoopEntry :=
  ls.filter (fun l => l.first ≤ target && target ≤ l.last)

/-- The flow after the bundle at index t has completed, with the transfer pending after it (R94, R394). -/
def Flow.advance (f : Flow) (t : Nat) (xfer : Option Xfer) : Flow :=
  match xfer with
  | some x =>
    if x.left = 0 then
      if x.taken then
        { f with pc := x.target, xfer := none, loops := if x.closes then closeLoops x.target f.loops else f.loops }
      else { f with pc := t + 1, xfer := none }
    else { f with pc := t + 1, xfer := some x }
  | none =>
    let (n, ls) := loopNext t f.loops
    { f with pc := n, loops := ls, xfer := none }

/-- One bundle of those a transfer waits for has completed. -/
def stepXfer (x : Option Xfer) : Option Xfer := x.map (fun t => { t with left := t.left - 1 })

/-- The flow after the bundle at the PC has completed, but for what its C slot has still to do. -/
def Flow.complete (f : Flow) : Flow := { f.advance f.pc (stepXfer f.xfer) with after := none }

/-! ## Resuming (R310, R311, R314, R176) -/

/-- The fields of a record as they stand in memory. -/
structure Record where
  mpc : Nat
  upc : Nat
  code : Nat
  slot : Nat
  done : Nat
  xferB : Nat
  steps : Nat
  xtgt : Nat
  preds : Nat
  ncap : Nat
  xcap : List Nat
  link : Nat
  ncnt : List Nat
  eflags : Nat
  ecount : Nat
  capture : List Nat
  deriving DecidableEq, Repr, Inhabited

def readRecord (s : State) (core frec : Nat) : Record :=
  let w (off n : Nat) : Nat := s.word (s1Place core (frec + off)) n
  { mpc := w 0 4 % 8192, upc := w 4 2, code := w 6 1, slot := w 7 1, done := w 8 1, xferB := w 9 1, steps := w 0xA 2,
    xtgt := w 0xC 4 % 8192, preds := w 0x1E 2, ncap := w 0x1C 1,
    xcap := (List.range 4).map (fun i => w (0x20 + 8 * i) 8), link := w 0x40 2,
    ncnt := (List.range 4).map (fun i => w (0x42 + 2 * i) 2), eflags := w 0x50 48, ecount := w 0x80 2,
    capture := (List.range 4).map (fun i => w (0x200 + 384 * i) 384) }

/-- The pending transfer of a record, its delay bundles left with those still to run again (R310). -/
def Record.xfer (r : Record) (again : Nat) (closes : Bool) : Option Xfer :=
  if r.xferB / 4 % 2 = 1 then
    some { target := r.xtgt, taken := r.xferB / 8 % 2 = 1, left := r.xferB % 4 + again, closes := closes }
  else none

/-- The whole bundle was suppressed: a fault of R99, or R306's case (R310). -/
def Record.whole (r : Record) : Bool := r.slot = 0 || (r.done = 0 && r.slot ≠ 8)

/-- What a resume does (R310, R311): 0 the bundle again, 1 a replay of the slot, 2 the stitch again, 3 the next stitch,
4 on after the bundle, 5 on at MPC, 6 the routine abandoned. -/
def Record.plan (r : Record) (skip : Bool) : Nat :=
  if r.slot = 8 then 5
  else if 32768 ≤ r.upc then
    if skip then 6 else if r.code = cTRAP then 3 else 2
  else if r.whole then (if skip then 4 else 0)
  else if skip || r.code = cTRAP then 4
  else 1

end Sys2Proof.Machine
end

