-- ==== Sys2Proof/Machine/Access.lean ====
section
/-! DEFINITION. Accesses to memory: the checks of R192, own-S1 accesses at their order points (R216), the outbound path
of the others (R219, R221, R386), conflicts with outstanding moves (R430) and the performing of one piece at its home. -/
namespace Sys2Proof.Machine

/-! ## Halves of the tile array and claims (R68, R186, R232) -/

def Core.half (k : Core) (h : Nat) : Half := if h = 1 then k.half1 else k.half0
def Core.setHalf (k : Core) (h : Nat) (v : Half) : Core := if h = 1 then { k with half1 := v } else { k with half0 := v }
/-- The half that a platform's T instructions act on (R69). -/
def Core.halfOf (k : Core) (plat : Nat) : Nat := if k.split && 2 ≤ plat then 1 else 0

/-- A bank group of a core is claimed in this cycle. -/
def State.claimed (s : State) (core group : Nat) : Bool :=
  let k := s.core core
  (k.half0.claims ++ k.half1.claims).any (fun c => c.group = group && s.now < c.till)

/-- The byte lies in a claimed group of the S1 it names, or behind a link that is down (R232, R331). -/
def State.claimedPlace (s : State) (p : Nat) : Bool :=
  match s1Of p with
  | some (core, off) => s.claimed core (groupOf off)
  | none => isHostPlace p && !s.hub.linkUp

/-! ## The checks of an access (R192) -/

/-- An access as the checks see it: its runs of bytes, the addresses that must be aligned and to what, and which rules
its path follows. -/
structure Access where
  spans : List (Nat × Nat)
  align : Nat
  aligned : List Nat
  rd : Bool
  wr : Bool
  /-- an atomic, which host memory refuses (R364) -/
  amo : Bool
  /-- a moment store, which refuses ciphertext lines that it covers whole as well (R406) -/
  mst : Bool
  /-- a vector, tile or moment path, which refuses ciphertext (R342) -/
  vec : Bool
  /-- an A-slot or stitch access, which a claim refuses (R186) -/
  claim : Bool
  /-- poison in own S1 is met at issue (R208, R209) -/
  hwRd : Bool
  hwWr : Bool
  deriving DecidableEq, Repr, Inhabited

/-- The least address of the points at which a check fails. -/
def lowestFail (bad : Nat → Bool) (pts : List Nat) : Option Nat := (pts.filter bad).min?

/-- The points of an access: an address in each line that each of its runs touches. -/
def Access.points (a : Access) : List Nat := a.spans.flatMap (fun r => linePoints r.1 r.2)

/-- The window entry that an address goes through, where it is virtual. -/
def entryAt (core : Nat) (c : Ctx) (addr : Nat) : Option (BitVec 32) :=
  if isVirt core addr then some (c.entry addr) else none

def pageBad (core : Nat) (c : Ctx) (addr : Nat) : Bool :=
  match entryAt core c addr with
  | some e => !entV e
  | none => false

def protBad (core : Nat) (c : Ctx) (rd wr amo : Bool) (addr : Nat) : Bool :=
  match entryAt core c addr with
  | some e => (rd && !entR e) || (wr && !entW e) || (amo && entHost e)
  | none => false

/-- Points at which a vector path meets a ciphertext line that it may not read, or write in part (R192). -/
def Access.formPoints (a : Access) (s : State) (core : Nat) (c : Ctx) : List Nat :=
  a.spans.flatMap (fun r =>
    (linePoints r.1 r.2).filter (fun p =>
      s.isCipher (placeOf core c p / 64) &&
        (a.rd || a.mst || (a.wr && !(p % 64 = 0 && p + 64 ≤ r.1 + r.2)))))

/-- Addresses of the words of own S1 at which a read, or a write of part of the word, meets poison or an uncorrectable error
(R208, R209); a remote part of a word meets it at its home (R438). -/
def Access.hwPoints (a : Access) (s : State) (core : Nat) : List Nat :=
  a.spans.flatMap (fun r =>
    ((wordsAt r.1 r.2).filter (fun w =>
      isOwn core (w * 8) && s.badWord (s1Place core (w * 8) / 8) &&
        (a.hwRd || (a.hwWr && !coversWord r.1 r.2 w)))).map (· * 8))

/-- The first check that fails: its fault code and value (R192). `cl` is the state whose claims count: a bundle's own tile
instruction claims its groups from its issue (R232). -/
def checkAccess (s cl : State) (core : Nat) (c : Ctx) (a : Access) : Option (Nat × Nat) :=
  let pts := a.points
  match lowestFail (fun p => !inWindows s core c p) pts with
  | some v => some (cWINDOW, v)
  | none =>
  match lowestFail (fun p => 1 < a.align && p % a.align != 0) a.aligned with
  | some v => some (cALIGN, v)
  | none =>
  match lowestFail (pageBad core c) pts with
  | some v => some (cPAGE, v)
  | none =>
  match lowestFail (protBad core c a.rd a.wr a.amo) pts with
  | some v => some (cPROT, v)
  | none =>
  match (if a.vec then (a.formPoints s core c).min? else none) with
  | some v => some (cFORM, v)
  | none =>
  match (if a.claim then lowestFail (fun p => isOwn core p && cl.claimed core (groupOf p)) pts else none) with
  | some v => some (cBANKCONF, v)
  | none =>
  match (a.hwPoints s core).min? with
  | some v => some (cHWERR, v)
  | none => none

/-- Every byte of every run lies in own S1. -/
def Access.own (a : Access) : Bool := a.spans.all (fun r => spanOwn r.1 r.2)

/-- The first address of an access. -/
def Access.addr (a : Access) : Nat := match a.spans with | r :: _ => r.1 | [] => 0

/-- Some byte goes through an entry whose frame R199 does not allow. -/
def Access.badFrame (a : Access) (core : Nat) (c : Ctx) : Bool := a.points.any (Machine.badFrame core c)

/-! ## Pieces -/

/-- The line of an address lies on a protected page of the context. -/
def protAt (core : Nat) (c : Ctx) (addr : Nat) : Bool :=
  match entryAt core c addr with
  | some e => entProt e
  | none => false

/-- The line of an address lies on a frame of the host. -/
def hostAt (core : Nat) (c : Ctx) (addr : Nat) : Bool :=
  match entryAt core c addr with
  | some e => entHost e
  | none => false

/-- Cut a run of bytes into pieces: none across an aligned word, or across a line of a protected page (R214, R215,
R343); `off` is the place within the access of what is left of the run. -/
def cutRun (fuel : Nat) (core : Nat) (c : Ctx) (run : Nat × Nat) (addr len off : Nat) : List Piece :=
  match fuel with
  | 0 => []
  | f + 1 =>
    if len = 0 then [] else
      let unit := if protAt core c addr then 64 else 8
      let n := min len (unit - addr % unit)
      let base := addr / 64 * 64
      ⟨placeOf core c addr, addr, n, off, run.1 ≤ base && base + 64 ≤ run.1 + run.2, protAt core c addr, false⟩ ::
        cutRun f core c run (addr + n) (len - n) (off + n)

/-- The pieces of runs of addresses, one after the other. -/
def cutRuns (core : Nat) (c : Ctx) (runs : List (Nat × Nat)) : List Piece :=
  (runs.foldl (fun (acc : Nat × List Piece) r =>
    (acc.1 + r.2, acc.2 ++ cutRun (r.2 / 8 + 2) core c r r.1 r.2 acc.1)) (0, [])).2

/-- The pieces of an access, in order of its runs. -/
def Access.pieces (a : Access) (core : Nat) (c : Ctx) : List Piece := cutRuns core c a.spans

/-- The pieces that are left when the n-th has performed: the others of its line have begun (R519). -/
def piecesLeft (ps : List Piece) (n : Nat) : List Piece :=
  match ps[n]? with
  | some p => (ps.eraseIdx n).map (fun q => if q.place / 64 = p.place / 64 then { q with begun := true } else q)
  | none => ps

/-- The address of each run lies in own S1, where its bytes are accessed at the order point. -/
def isOwnPiece (core : Nat) (p : Piece) : Bool :=
  match s1Of p.place with
  | some (k, _) => k = core
  | none => false

/-- Put bytes into a buffer at a place. -/
def patch (data : List Byte) (off : Nat) (bs : List Byte) : List Byte :=
  data.take off ++ bs ++ data.drop (off + bs.length)

/-! ## Home accesses -/

/-- The bytes of a piece at its home: protected lines pass the inline path; none where a tag fails (R211, R343). -/
def readHome (s : State) (world : Nat) (prot : Bool) (place len : Nat) : Option (List Byte) :=
  if prot then (readProtLine s world (place / 64)).map (fun l => (l.drop (place % 64)).take len)
  else some (s.bytes place len)

/-- The state with a protected line marked poisoned after its tag failed, and the failure counted (R211). -/
def State.integrityFail (s : State) (line : Nat) : State :=
  { s.poisonLine line with hub := { s.hub with integHbm := s.hub.integHbm + 1 } }

/-- Write bytes of a piece at its home; false where the write is not done and the line is left poisoned (R209, R343). A
piece of a whole line makes it plaintext and takes its poison away, and one of a part keeps its form (R193). -/
def writeHome (s : State) (world : Nat) (prot whole : Bool) (place : Nat) (bs : List Byte) : State × Bool :=
  let line := place / 64
  if prot then
    match (if bs.length = 64 then some [] else if s.badRead (line * 64) 64 then none else readProtLine s world line) with
    | none => (if s.badRead (line * 64) 64 then s.poisonLine line else s.integrityFail line, false)
    | some old =>
      match writeProtLine s world line (patch old (place % 64) bs) with
      | some s1 => (if bs.length = 64 then s1 else s1.setForm line (s.isCipher line), true)
      | none => (s.poisonLine line, false)
  else if !whole && s.badWrite place bs.length then (s.poisonLine line, false)
  else
    let s1 := s.store place bs
    (if whole then { s1 with form := s1.form.filter (· != line), poisoned := s1.poisoned.filter (· != line) } else s1,
      true)

/-! ## What is outstanding -/

/-- Ids of drains of a platform still to be written (R216, R223). -/
def Core.drainIds (k : Core) (plat : Nat) : List Nat :=
  [k.half0, k.half1].filterMap (fun h => match h.drain with
    | some d => if d.plat = plat then some d.id else none
    | none => none)

/-- Accesses in the outbound path: those with something still to perform. -/
def Ctx.outLive (c : Ctx) : List Outbound := c.out.filter (fun o => !o.pieces.isEmpty)

/-- The HBM load of a stitch of a platform that has not performed (R160). -/
def Core.hbmIds (k : Core) (plat : Nat) : List Nat :=
  match k.routine with
  | some r => if r.plat = plat then (match r.waitHbm with
    | some o => if o.pieces.isEmpty then [] else [o.id]
    | none => []) else []
  | none => []

def MoveKind.writes : MoveKind → Bool
  | .vldr => false
  | .tld | .tst | .scopy | .vstr => true
def MoveKind.reads : MoveKind → Bool
  | .vstr => false
  | .tld | .tst | .scopy | .vldr => true

/-- The number that stands for the reads of a move, which are under way until its last row is read (R221). -/
def Move.readId (m : Move) : Nat := m.id + 2
def Move.reading (m : Move) : Bool := m.kind.reads && m.row < m.rows

/-- A RINGRD that has not sampled its ring yet (R220). -/
def Awaited.unsampled (a : Awaited) : Bool :=
  match a.reply with
  | .ring .. => a.value.isNone
  | .hub _ => false

/-- An access, move, drain or command of the context has not performed yet. -/
def State.isOutstanding (s : State) (core plat id : Nat) : Bool :=
  let c := s.ctx core plat
  c.outLive.any (·.id = id) || c.moves.any (fun m => m.id = id || (m.readId = id && m.reading)) || c.cmds.any (·.id = id) ||
    c.flushes.contains id || ((s.core core).drainIds plat).contains id || ((s.core core).hbmIds plat).contains id ||
    c.awaited.any (fun a => a.id = id && a.unsampled)

/-- Every id has performed. -/
def State.allDone (s : State) (core plat : Nat) (ids : List Nat) : Bool :=
  ids.all (fun i => !s.isOutstanding core plat i)

/-- The outstanding accesses of the classes of a set (R220), of class E the commands, the RINGRDs and the RELSs, as a scope sees
them: a store to a host frame has performed at SYSTEM when the adapter's flush read returns; at the other scopes, as every access to device storage at every scope, when it
performs at its home (R213). -/
def State.outstanding (s : State) (core plat : Nat) (cs : ClassSet) (scope : Scope) : List Nat :=
  let c := s.ctx core plat
  let inSet (k : AccClass) : Bool := match k with | .r => cs.r | .w => cs.w | .a => cs.a | .e => cs.e
  (c.outLive.filter (fun o => inSet o.cls)).map (·.id) ++
    (if cs.r then (s.core core).hbmIds plat else []) ++
    (if cs.r then (c.moves.filter Move.reading).map Move.readId else []) ++
    (if cs.w then (c.moves.filter (fun m => m.kind.writes)).map (·.id) else []) ++
    (if cs.w then (s.core core).drainIds plat else []) ++
    (if cs.w && scope == .system then c.flushes else []) ++
    (if cs.e then c.cmds.map (·.id) ++ (c.awaited.filter Awaited.unsampled).map (·.id) ++
      (c.rings.flatMap (fun r => r.2.rel)).filter (s.isOutstanding core plat) else [])

/-- Stores and atomics that a DRAIN waits for (R223, R385). -/
def State.undrained (s : State) (core plat : Nat) (scope : Scope) : List Nat :=
  s.outstanding core plat ⟨false, true, true, false⟩ scope

/-- What the fences in force make a new access of a class wait for (R221). -/
def Ctx.fenceWaits (c : Ctx) (k : AccClass) : List Nat :=
  (c.fences.filter (fun f => match k with
    | .r => f.succ.r | .w => f.succ.w | .a => f.succ.a | .e => f.succ.e)).flatMap (·.preds)

/-! ## Issuing an access -/

/-- Bytes read by the own-S1 pieces of an access at its order point (R216). -/
def readOwn (s : State) (core : Nat) (ps : List Piece) (data : List Byte) : List Byte :=
  ps.foldl (fun d p => if isOwnPiece core p then patch d p.off (s.bytes p.place p.len) else d) data

/-- An own-S1 piece that meets poison in a variable-latency load (R208). -/
def ownPoison (s : State) (core : Nat) (ps : List Piece) : Bool :=
  ps.any (fun p => isOwnPiece core p && s.badRead p.place p.len)

/-- The state after own-S1 pieces of a load have met uncorrectable words: their lines are poisoned (R208). -/
def State.meetOwn (s : State) (core : Nat) (ps : List Piece) : State :=
  ps.foldl (fun s p => if isOwnPiece core p && s.badRead p.place p.len then s.poisonLine (p.place / 64) else s) s

/-- Own-S1 writes of an access: whole runs at once, so that whole lines become plaintext (R193). -/
def writeOwn (s : State) (core : Nat) (spans : List (Nat × Nat)) (data : List Byte) : State :=
  (spans.foldl (fun (acc : State × Nat) r =>
    (if isOwn core r.1 then acc.1.store (s1Place core r.1) ((data.drop acc.2).take r.2) else acc.1, acc.2 + r.2))
    (s, 0)).1

/-- The next number of the context's accesses is spent, and one more for the flush read behind a store to a host frame
(R213). -/
def Ctx.number (c : Ctx) (host : Bool) : Ctx :=
  if host then { c with nextId := c.nextId + 2, flushes := c.flushes ++ [c.nextId + 1] } else { c with nextId := c.nextId + 1 }

/-- Put an access with pieces outside own S1 into the outbound path. -/
def State.sendOut (s : State) (core plat : Nat) (cls : AccClass) (a : Access) (data : List Byte) (dest : Dest)
    (amo : Option (AmoOp × Word × Word)) (poison : Option (Nat × Nat)) : State :=
  let c := s.ctx core plat
  let ps := (a.pieces core c).filter (fun p => !isOwnPiece core p)
  let o : Outbound := { id := c.nextId, cls := cls, addr := a.addr, waits := c.fenceWaits cls,
                        pieces := ps, data := data, dest := dest, amo := amo, poison := poison }
  let c1 := { c.number (cls == .w && ps.any (fun p => isHostPlace p.place)) with out := c.out ++ [o] }
  let c2 := match dest with
    | .none => c1
    | .x n => if n = 0 then c1 else { c1 with pending := .x n :: c1.pending }
    | .v n => { c1 with pending := .v n :: c1.pending }
    | .m n => { c1 with pending := .m n :: c1.pending }
  s.setCtx core plat c2

/-! ## One piece at its home -/

/-- The new value of an AMO, or none where nothing is written (R362). -/
def amoNew (op : AmoOp) (n : Nat) (old s c : Nat) : Option Nat :=
  let w := 8 * n
  match op with
  | .add => some ((old + s) % 2 ^ w)
  | .and => some (old &&& s)
  | .or => some (old ||| s)
  | .min => some (if sext old w ≤ sext s w then old else s)
  | .max => some (if sext old w < sext s w then s else old)
  | .swap => some s
  | .cas => if old = c then some s else none

/-- An atomic at the home of its word: the state, what the register receives, and the fault code of a refusal (R363,
R365). It reads the word as `pre` holds it: the state of its order point, at which reads come before writes (R216). -/
def amoHome (pre s : State) (world : Nat) (prot : Bool) (op : AmoOp) (place n : Nat) (sv cv : Word) :
    State × Word × Option Nat :=
  let line := place / 64
  let ones : Word := 0xFFFFFFFFFFFFFFFF#64
  if pre.badRead place n then (s.poisonLine line, ones, some cHWERR)
  else if pre.isCipher line then (s, ones, some cFORM)
  else
    match readHome pre world prot place n with
    | none => (s.integrityFail line, ones, some cHWERR)
    | some bs =>
      let old := ofBytes bs
      let res : Word := BitVec.ofInt 64 (sext old (8 * n))
      match amoNew op n old (sv.toNat % 2 ^ (8 * n)) (cv.toNat % 2 ^ (8 * n)) with
      | none => (s, res, none)
      | some v =>
        let (s1, ok) := writeHome s world prot false place (toBytes n v)
        if ok then (s1, res, none) else (s1, ones, some cHWERR)

end Sys2Proof.Machine
end

