-- ==== Sys2Proof/Machine/Float.lean ====
section
/-! DEFINITION. Exact values of the number formats and their rounding (R130 to R132, R141, R143, R144, R147, R449). -/
namespace Sys2Proof.Machine

/-- An exact value: NaN, an infinity, or (−1)^neg × m × 2^e; a zero keeps its sign. -/
inductive FVal where
  | nan
  | inf (neg : Bool)
  | fin (neg : Bool) (m : Nat) (e : Int)
  deriving DecidableEq, Repr, Inhabited

def FVal.zero : FVal := .fin false 0 0
def FVal.one : FVal := .fin false 1 0
def FVal.ofInt (i : Int) : FVal := .fin (i < 0) i.natAbs 0

def FVal.isNan : FVal → Bool
  | .nan => true
  | .inf _ | .fin .. => false

def FVal.isInf : FVal → Bool
  | .inf _ => true
  | .nan | .fin .. => false

def FVal.isZero : FVal → Bool
  | .fin _ m _ => m == 0
  | .nan | .inf _ => false

/-- The value is below zero, −0 excepted. -/
def FVal.isNeg : FVal → Bool
  | .inf n => n
  | .fin n m _ => n && m != 0
  | .nan => false

def FVal.neg : FVal → FVal
  | .nan => .nan
  | .inf n => .inf (!n)
  | .fin n m e => .fin (!n) m e

def FVal.abs : FVal → FVal
  | .nan => .nan
  | .inf _ => .inf false
  | .fin _ m e => .fin false m e

/-- The integer ±m × 2^(e − lo) of a value whose exponent is at least lo. -/
def alignTo (neg : Bool) (m : Nat) (e lo : Int) : Int :=
  let k := m <<< (e - lo).toNat
  if neg then -(k : Int) else k

/-- The exact sum; infinities and signs of zero as IEEE 754-2019 has them (R449). -/
def FVal.add : FVal → FVal → FVal
  | .nan, _ => .nan
  | _, .nan => .nan
  | .inf a, .inf b => if a = b then .inf a else .nan
  | .inf a, .fin .. => .inf a
  | .fin .., .inf b => .inf b
  | .fin na ma ea, .fin nb mb eb =>
    if ma = 0 ∧ mb = 0 then .fin (na && nb) 0 0
    else if ma = 0 then .fin nb mb eb
    else if mb = 0 then .fin na ma ea
    else
      let lo := if ea ≤ eb then ea else eb
      let s := alignTo na ma ea lo + alignTo nb mb eb lo
      .fin (s < 0) s.natAbs lo

def FVal.sub (a b : FVal) : FVal := a.add b.neg

/-- The exact product (R449). -/
def FVal.mul : FVal → FVal → FVal
  | .nan, _ => .nan
  | _, .nan => .nan
  | .inf a, .inf b => .inf (a != b)
  | .inf a, .fin nb mb _ => if mb = 0 then .nan else .inf (a != nb)
  | .fin na ma _, .inf b => if ma = 0 then .nan else .inf (na != b)
  | .fin na ma ea, .fin nb mb eb => if ma = 0 ∨ mb = 0 then .fin (na != nb) 0 0 else .fin (na != nb) (ma * mb) (ea + eb)

/-- a × 2^k. -/
def FVal.scale (k : Int) : FVal → FVal
  | .nan => .nan
  | .inf n => .inf n
  | .fin n m e => .fin n m (e + k)

/-- a < b; false where either is NaN; −0 equals +0. -/
def FVal.lt : FVal → FVal → Bool
  | .nan, _ => false
  | _, .nan => false
  | .inf a, .inf b => a && !b
  | .inf a, .fin .. => a
  | .fin .., .inf b => !b
  | .fin na ma ea, .fin nb mb eb =>
    let lo := if ea ≤ eb then ea else eb
    if ma = 0 then (mb != 0 && !nb)
    else if mb = 0 then na
    else decide (alignTo na ma ea lo < alignTo nb mb eb lo)

/-- a = b as numbers; false where either is NaN. -/
def FVal.eq (a b : FVal) : Bool := !a.isNan && !b.isNan && !a.lt b && !b.lt a

def FVal.le (a b : FVal) : Bool := !a.isNan && !b.isNan && !b.lt a

/-- Maximum with NaN absorbing and max(−0, +0) = +0 (R464, R166). -/
def FVal.max (a b : FVal) : FVal :=
  if a.isNan || b.isNan then .nan
  else if a.isZero && b.isZero then
    match a, b with
    | .fin na _ _, .fin nb _ _ => .fin (na && nb) 0 0
    | _, _ => a
  else if a.lt b then b else a

/-- Minimum with NaN absorbing and min(−0, +0) = −0 (R464, R166). -/
def FVal.min (a b : FVal) : FVal :=
  if a.isNan || b.isNan then .nan
  else if a.isZero && b.isZero then
    match a, b with
    | .fin na _ _, .fin nb _ _ => .fin (na || nb) 0 0
    | _, _ => a
  else if b.lt a then b else a

/-! ## Formats -/

/-- The element formats (R130, R132). -/
inductive Elem where
  | f32 | bf16 | f16 | f8a | f8b | e2m1 | i8 | i16 | i32
  deriving DecidableEq, Repr, Inhabited

def Elem.width : Elem → Nat
  | .f32 | .i32 => 32
  | .bf16 | .f16 | .i16 => 16
  | .f8a | .f8b | .i8 => 8
  | .e2m1 => 4

def Elem.isInt : Elem → Bool
  | .i8 | .i16 | .i32 => true
  | .f32 | .bf16 | .f16 | .f8a | .f8b | .e2m1 => false

/-- Mantissa bits (R130). -/
def Elem.mb : Elem → Nat
  | .f32 => 23 | .bf16 => 7 | .f16 => 10 | .f8a => 3 | .f8b => 2 | .e2m1 => 1
  | .i8 | .i16 | .i32 => 0

/-- Exponent bits (R130). -/
def Elem.eb : Elem → Nat
  | .f32 => 8 | .bf16 => 8 | .f16 => 5 | .f8a => 4 | .f8b => 5 | .e2m1 => 2
  | .i8 | .i16 | .i32 => 0

/-- Exponent bias (R130). -/
def Elem.bias : Elem → Nat
  | .f32 => 127 | .bf16 => 127 | .f16 => 15 | .f8a => 7 | .f8b => 15 | .e2m1 => 1
  | .i8 | .i16 | .i32 => 0

/-- The exponent of the min normal (R130). -/
def Elem.emin (f : Elem) : Int := 1 - (f.bias : Int)

/-- The largest finite value's code without its sign (R130). -/
def Elem.maxCode : Elem → Nat
  | .f32 => 0x7F7FFFFF | .bf16 => 0x7F7F | .f16 => 0x7BFF | .f8a => 0x7E | .f8b => 0x7B | .e2m1 => 7
  | .i8 => 0x7F | .i16 => 0x7FFF | .i32 => 0x7FFFFFFF

/-- The code of +∞, for the formats that have one (R130). -/
def Elem.infCode : Elem → Nat
  | .f32 => 0x7F800000 | .bf16 => 0x7F80 | .f16 => 0x7C00 | .f8b => 0x7C
  | .f8a => 0x7F | .e2m1 => 7 | .i8 => 0x7F | .i16 => 0x7FFF | .i32 => 0x7FFFFFFF

/-- The canonical NaN (R130); E2M1 has none and integers answer as R141. -/
def Elem.nanCode : Elem → Nat
  | .f32 => 0x7FC00000 | .bf16 => 0x7FC0 | .f16 => 0x7E00 | .f8a => 0x7F | .f8b => 0x7E | .e2m1 => 0
  | .i8 | .i16 | .i32 => 0

/-- The finite value of an exponent and a mantissa code. -/
def finOf (f : Elem) (neg : Bool) (ex man : Nat) : FVal :=
  if ex = 0 then .fin neg man (f.emin - f.mb)
  else .fin neg (2 ^ f.mb + man) ((ex : Int) - f.bias - f.mb)

/-- The exact value of an element's bits (R130, R132). -/
def Elem.val (f : Elem) (bits : Nat) : FVal :=
  let w := f.width
  if f.isInt then .ofInt (sext bits w)
  else
    let neg := bits.testBit (w - 1)
    let ex := field bits (w - 2) f.mb
    let man := bits % 2 ^ f.mb
    let top := 2 ^ f.eb - 1
    match f with
    | .e2m1 => finOf f neg ex man
    | .f8a => if ex = top ∧ man = 7 then .nan else finOf f neg ex man
    | .f32 | .bf16 | .f16 | .f8b | .i8 | .i16 | .i32 =>
      if ex = top then (if man = 0 then .inf neg else .nan) else finOf f neg ex man

/-! ## Rounding -/

/-- A rounding mode with, for stochastic rounding, its random byte (R143, R144). -/
inductive RMode where
  | rne
  | rtz
  | sr (b : Byte)
  deriving DecidableEq, Repr, Inhabited

/-- m × 2^d rounded to an integer (R143, R144). -/
def roundShift (m : Nat) (d : Int) (mode : RMode) : Nat :=
  if 0 ≤ d then m <<< d.toNat
  else
    let k := (-d).toNat
    let q := m >>> k
    let r := m % 2 ^ k
    match mode with
    | .rtz => q
    | .rne => if 2 ^ k < 2 * r ∨ (2 * r = 2 ^ k ∧ q % 2 = 1) then q + 1 else q
    | .sr b => if 256 ≤ (r <<< 8) >>> k + b.toNat then q + 1 else q

/-- The exponent of the leading bit of m × 2^e, for m ≠ 0. -/
def topExp (m : Nat) (e : Int) : Int := e + (Nat.log2 m : Nat)

/-- The unit exponent at which p significant bits of m × 2^e end, not below lo. -/
def unitExp (m : Nat) (e : Int) (p : Nat) (lo : Int) : Int :=
  let u := topExp m e - (p - 1 : Nat)
  if u < lo then lo else u

/-- FPFLAGS bits NV 16, DZ 8, OF 4, UF 2, NX 1 (R147). -/
structure FFlags where
  nv : Bool := false
  dz : Bool := false
  of : Bool := false
  uf : Bool := false
  nx : Bool := false
  deriving DecidableEq, Repr, Inhabited

def FFlags.none : FFlags := {}

def FFlags.or (a b : FFlags) : FFlags :=
  { nv := a.nv || b.nv, dz := a.dz || b.dz, of := a.of || b.of, uf := a.uf || b.uf, nx := a.nx || b.nx }

/-- The bits as FPFLAGS holds them (R147). -/
def FFlags.bits (f : FFlags) : Nat :=
  f.nv.toNat * 16 + f.dz.toNat * 8 + f.of.toNat * 4 + f.uf.toNat * 2 + f.nx.toNat

/-- The code of n × 2^u, a value the format holds exactly, without sign. -/
def finCode (f : Elem) (n : Nat) (u : Int) : Nat :=
  if n = 0 then 0
  else
    let t := topExp n u
    if t < f.emin then n <<< (u - (f.emin - f.mb)).toNat
    else
      let man := (if (Nat.log2 n) ≤ f.mb then n <<< (f.mb - Nat.log2 n) else n >>> (Nat.log2 n - f.mb)) % 2 ^ f.mb
      (t + f.bias).toNat * 2 ^ f.mb + man

/-- m × 2^e is above n × 2^u. -/
def above (m : Nat) (e : Int) (n : Nat) (u : Int) : Bool :=
  let lo := if e ≤ u then e else u
  decide (alignTo false n u lo < alignTo false m e lo)

def signBit (f : Elem) (neg : Bool) : Nat := if neg then 2 ^ (f.width - 1) else 0

/-- The largest finite magnitude of a format as m × 2^e. -/
def Elem.maxFin (f : Elem) : Nat × Int :=
  match f.val f.maxCode with
  | .fin _ m e => (m, e)
  | .nan | .inf _ => (0, 0)

/-- The smallest and largest values of an integer format. -/
def Elem.intMin (f : Elem) : Int := -((2 ^ (f.width - 1) : Nat) : Int)
def Elem.intMax (f : Elem) : Int := (2 ^ (f.width - 1) : Nat) - 1

/-- Encode an exact value into a float format (R141, R143, R144), with the flags of R147 that the encoding sets. -/
def encodeFloat (f : Elem) (mode : RMode) (sat : Bool) (x : FVal) : Nat × FFlags :=
  match x with
  | .nan => (f.nanCode, {})
  | .inf neg =>
    if sat then (signBit f neg + f.maxCode, { of := true, nx := true })
    else match f with
      | .f8a => (f.nanCode, { nv := true, of := true, nx := true })
      | .e2m1 | .f32 | .bf16 | .f16 | .f8b | .i8 | .i16 | .i32 => (signBit f neg + f.infCode, {})
  | .fin neg m e =>
    if m = 0 then (signBit f neg, {})
    else
      let p := f.mb + 1
      -- rounded with an unbounded exponent
      let uu := topExp m e - (f.mb : Int)
      let nu := roundShift m (e - uu) mode
      let (mx, ex) := f.maxFin
      if above nu uu mx ex then
        if sat || mode == .rtz then (signBit f neg + f.maxCode, { of := true, nx := true })
        else match f with
          | .f8a => (f.nanCode, { nv := true, of := true, nx := true })
          | .f32 | .bf16 | .f16 | .f8b | .e2m1 | .i8 | .i16 | .i32 =>
            (signBit f neg + f.infCode, { of := true, nx := true })
      else
        let u := unitExp m e p (f.emin - f.mb)
        let n := roundShift m (e - u) mode
        let inexact := above n u m e || above m e n u
        let tiny := nu != 0 && topExp nu uu < f.emin
        (signBit f neg + finCode f n u, { nx := inexact, uf := tiny && inexact })

/-- An exact value rounded to an integer (R141). -/
def roundInt (mode : RMode) : FVal → Int
  | .fin neg m e =>
    let n := roundShift m e mode
    if neg then -(n : Int) else n
  | .nan | .inf _ => 0

/-- Encode a value that comes from a float into an integer format (R141), NV for a NaN or out-of-range value and NX for
a rounded one (R147). -/
def encodeInt (f : Elem) (mode : RMode) (sat : Bool) (x : FVal) : Nat × FFlags :=
  let w := f.width
  match x with
  | .nan => (if sat then 0 else wrap f.intMin w, { nv := true })
  | .inf neg => (if sat then wrap (if neg then f.intMin else f.intMax) w else wrap f.intMin w, { nv := true })
  | .fin neg m e =>
    let n := roundShift m e mode
    let i : Int := if neg then -(n : Int) else n
    let nx := above n 0 m e || above m e n 0
    if f.intMin ≤ i ∧ i ≤ f.intMax then (wrap i w, { nx := nx })
    else (if sat then wrap (clamp i f.intMin f.intMax) w else wrap f.intMin w, { nv := true, nx := nx })

/-- Encode an exact integer that comes from an integer format (R141, R449). -/
def encodeIntInt (f : Elem) (sat : Bool) (t : Int) : Nat :=
  if sat then wrap (clamp t f.intMin f.intMax) f.width else wrap t f.width

/-- round_rne(x, F32) as a value (R13). -/
def rneF32 (x : FVal) : FVal := Elem.f32.val (encodeFloat .f32 .rne false x).1

/-- The bits of round_rne(x, F32). -/
def rneF32Bits (x : FVal) : Nat := (encodeFloat .f32 .rne false x).1

def f32Val (bits : Nat) : FVal := Elem.f32.val bits

end Sys2Proof.Machine
end

