-- ==== Sys2Proof/Machine/Convert.lean ====
section
/-! DEFINITION. Bank formats: what a BFMT value says (R137), decoding of plain and block elements (R130 to R135), encoding of
them (R141, R142), and the conversion of one row of a converting copy (R139, R140). -/
namespace Sys2Proof.Machine

/-! ## Fields of a BFMT value (R137) -/

def fmtCode (f : Nat) : Nat := f % 16
def fmtRnd (f : Nat) : Nat := f / 16 % 4
def fmtSat (f : Nat) : Bool := f / 64 % 2 = 1
/-- Offset of the scale array within the bank, in bytes. -/
def fmtScale (f : Nat) : Nat := f / 256 % 65536 * 64

/-- Bytes of a block of a block format, 0 for the other formats (R134). -/
def blockBytes (code : Nat) : Nat :=
  if code = 6 ∨ code = 8 then 32 else if code = 9 then 24 else if code = 7 ∨ code = 10 then 16 else 0

def isBlockFmt (code : Nat) : Bool := 6 ≤ code && code ≤ 10
/-- MO32 and MO16 (R133). -/
def isMoFmt (code : Nat) : Bool := code = 13 || code = 14

/-- Bytes of an element of a format that has no blocks (R130, R132, R133); RAW counts bytes. -/
def elemBytes (code : Nat) : Nat :=
  if code = 1 ∨ code = 12 ∨ code = 14 then 4
  else if code = 2 ∨ code = 3 then 2
  else if code = 13 then 8
  else 1

/-- Bytes of a source element or block, the grain of a conversion (R140). -/
def fmtGrain (code : Nat) : Nat := if isBlockFmt code then blockBytes code else elemBytes code

/-- The numbers that one element or block holds; an MO element holds two. -/
def fmtCount (code : Nat) : Nat := if isBlockFmt code then 32 else if isMoFmt code then 2 else 1

/-- The number format of an element; an MO32 element is two F32 and an MO16 element two BF16 (R133). -/
def fmtElem (code : Nat) : Elem :=
  if code = 1 ∨ code = 13 then .f32
  else if code = 2 ∨ code = 14 then .bf16
  else if code = 3 then .f16
  else if code = 4 then .f8a
  else if code = 5 then .f8b
  else if code = 11 then .i8
  else .i32

/-- An integer format: its values reach an integer destination by R141's last row. -/
def isIntFmt (code : Nat) : Bool := code = 11 || code = 12

/-- Bytes of one number of a format without blocks. -/
def numBytes (code : Nat) : Nat := (fmtElem code).width / 8

/-! ## Blocks (R134, R135) -/

/-- Bits of a block element. -/
def blockWidth (code : Nat) : Nat :=
  if code = 6 ∨ code = 8 then 8 else if code = 9 then 6 else 4

/-- The negated exponent of an MXI element's unit (R134). -/
def mxiFrac (code : Nat) : Nat := if code = 8 then 6 else if code = 9 then 4 else 2

/-- The element value of a block element's bits (R134). -/
def blockElem (code bits : Nat) : FVal :=
  if code = 6 then Elem.f8a.val bits
  else if code = 7 then Elem.e2m1.val bits
  else (FVal.ofInt (sext bits (blockWidth code))).scale (-(mxiFrac code : Int))

/-- A block element with its block's scale code (R135). -/
def blockVal (code scale bits : Nat) : FVal :=
  if scale = 255 then .nan else (blockElem code bits).scale ((scale : Int) - 127)

/-- The 32 values of a block. -/
def decodeBlock (code : Nat) (bytes : List Byte) (scale : Byte) : List FVal :=
  (lanes 32 (blockWidth code) (ofBytes bytes)).map (blockVal code scale.toNat)

/-- emax of R142. -/
def blockEmax (code : Nat) : Int := if code = 6 then 8 else if code = 7 then 2 else 0

/-- A rounding mode from its code, with the byte a stochastic one draws (R137, R144). -/
def modeOf (code : Nat) (b : Byte) : RMode := if code = 1 then .rtz else if code = 2 then .sr b else .rne

/-- A value divided by its block's scale, rounded to the element grid and saturated (R142). -/
def encodeBlockElem (code : Nat) (mode : RMode) (x : FVal) : Nat :=
  if code = 6 then (encodeFloat .f8a mode true x).1
  else if code = 7 then (encodeFloat .e2m1 mode true x).1
  else
    let w := blockWidth code
    let lim : Int := (2 ^ (w - 1) : Nat)
    wrap (clamp (roundInt mode (x.scale (mxiFrac code))) (-lim) (lim - 1)) w

/-- floor(log2 |x|) of a finite value that is not zero. -/
def floorLog2 : FVal → Int
  | .fin _ m e => topExp m e
  | .nan => 0
  | .inf _ => 0

/-- Encode a block of 32 values: its bytes and its scale code; `draw i` is the random byte of element i (R142). A scale code above
254, which R142 gives no rule for, is written modulo 256 (log entry 98). -/
def encodeBlock (code rnd : Nat) (draw : Nat → Byte) (xs : List FVal) : List Byte × Byte :=
  if xs.any (fun x => x.isNan || x.isInf) then (List.replicate (blockBytes code) 0#8, 255#8)
  else
    let amax := xs.foldl (fun a x => FVal.max a x.abs) .zero
    let scale : Int := if amax.isZero then 0
      else let e := floorLog2 amax - blockEmax code; (if e < -127 then -127 else e) + 127
    let bits := xs.zipIdx.map (fun p => encodeBlockElem code (modeOf rnd (draw p.2)) (p.1.scale (127 - scale)))
    (toBytes (blockBytes code) (packLanes (blockWidth code) bits), BitVec.ofInt 8 scale)

/-! ## Plain elements -/

def decodePlain (e : Elem) (bytes : List Byte) : List FVal :=
  (chunks bytes.length (e.width / 8) bytes).map (fun b => e.val (ofBytes b))

/-- Encode a value into a plain format; an integer that comes from an integer format keeps to R141's last row. -/
def encodePlain (e : Elem) (fromInt : Bool) (mode : RMode) (sat : Bool) (x : FVal) : Nat :=
  if e.isInt then (if fromInt then encodeIntInt e sat (roundInt .rtz x) else (encodeInt e mode sat x).1)
  else (encodeFloat e mode sat x).1

/-! ## One row of a converting copy (R140) -/

/-- The copy moves bytes unchanged. -/
def rawCopy (sf df : Nat) : Bool := fmtCode sf = 0 || fmtCode df = 0 || fmtCode sf = fmtCode df

/-- The numbers that a run of source bytes holds. -/
def countOf (sf len : Nat) : Nat := len / fmtGrain (fmtCode sf) * fmtCount (fmtCode sf)

/-- The length of a converted row (R140, R142). -/
def convertedLen (sf df len : Nat) : Nat :=
  if rawCopy sf df then len
  else
    let n := countOf sf len
    let c := fmtCode df
    if isBlockFmt c then ceilDiv n 32 * blockBytes c
    else n * ((fmtElem c).width / 8)

/-- What a converted row becomes: its bytes, the scale codes of its blocks, and the random bytes it drew. -/
structure Converted where
  bytes : List Byte
  scales : List Byte
  drawn : Nat
  deriving DecidableEq, Repr, Inhabited

/-- The values of a run of source bytes with the scale codes of its blocks. -/
def decodeRun (sf : Nat) (bytes scales : List Byte) : List FVal :=
  let c := fmtCode sf
  if isBlockFmt c then
    ((chunks bytes.length (blockBytes c) bytes).zip scales).flatMap (fun p => decodeBlock c p.1 p.2)
  else decodePlain (fmtElem c) bytes

/-- Encode values into a destination format; `draw j` is the j-th random byte of the writer from here on (R146). -/
def encodeRun (df : Nat) (fromInt : Bool) (draw : Nat → Byte) (xs : List FVal) : Converted :=
  let c := fmtCode df
  let rnd := fmtRnd df
  if isBlockFmt c then
    let blocks := (chunks xs.length 32 xs).map (fun b => b ++ List.replicate (32 - b.length) FVal.zero)
    let out := blocks.zipIdx.map (fun p => encodeBlock c rnd (fun i => draw (32 * p.2 + i)) p.1)
    { bytes := out.flatMap (·.1), scales := out.map (·.2), drawn := if rnd = 2 then 32 * blocks.length else 0 }
  else
    let e := fmtElem c
    { bytes := xs.zipIdx.flatMap (fun p =>
        toBytes (e.width / 8) (encodePlain e fromInt (modeOf rnd (draw p.2)) (fmtSat df) p.1))
      scales := []
      drawn := if rnd = 2 then xs.length else 0 }

/-- Convert a row: unchanged where a format is RAW or both are equal, else decoded exactly and encoded once (R140). -/
def convertRow (sf df : Nat) (bytes scales : List Byte) (draw : Nat → Byte) : Converted :=
  if rawCopy sf df then
    { bytes := bytes, scales := if fmtCode sf = fmtCode df then scales else [], drawn := 0 }
  else encodeRun df (isIntFmt (fmtCode sf)) draw (decodeRun sf bytes scales)

/-! ## Scale arrays (R136) -/

/-- Bank offset of the scale code of the block at a bank offset. -/
def scaleOff (f off : Nat) : Nat := fmtScale f + off / blockBytes (fmtCode f)

/-- The scale bytes of a run lie in the bank, and a written run keeps off the scale array (R136). -/
def scaleBad (f off len : Nat) (written : Bool) : Bool :=
  let c := fmtCode f
  isBlockFmt c && 0 < len &&
    (0x20000 ≤ scaleOff f (off + len - 1) ||
      (written && off < fmtScale f + 0x20000 / blockBytes c && fmtScale f < off + len))

end Sys2Proof.Machine
end

