-- ==== Sys2Proof/Machine/Copy.lean ====
section
/-! DEFINITION. Copies of rows, as moves and the copy engine make them (R139, R140, R290, R429): rows cut by banks, checked, read
a line at a time, and written word by word; what an outstanding move still has to touch, and conflicts with it (R217, R430). -/
namespace Sys2Proof.Machine

def overlaps (a b : Nat × Nat) : Bool := a.1 < b.2 && b.1 < a.2

/-! ## Rows cut by banks (R136, R139, R140) -/

/-- A part of a row whose two sides each keep one format: within one bank each, or a whole converted row. -/
structure RowPart where
  src : Nat
  dst : Nat
  len : Nat
  sf : Nat
  df : Nat
  /-- bytes it becomes -/
  dlen : Nat
  deriving DecidableEq, Repr, Inhabited

/-- A row of a copy. -/
structure Row where
  src : Nat
  dst : Nat
  len : Nat
  dlen : Nat
  parts : List RowPart
  deriving DecidableEq, Repr, Inhabited

/-- A run of addresses cut at bank boundaries. -/
def bankRuns (fuel a n : Nat) : List (Nat × Nat) :=
  match fuel with
  | 0 => []
  | f + 1 =>
    if n = 0 then [] else
      let m := min n (0x20000 - a % 0x20000)
      (a, m) :: bankRuns f (a + m) (n - m)

/-- Cut a row at the bank boundaries of both sides while it moves raw; from the first converting format on it is one part. -/
def cutRow (fuel : Nat) (fs fd : Nat → Nat) (src dst len : Nat) : List RowPart :=
  match fuel with
  | 0 => []
  | f + 1 =>
    if len = 0 then [] else
      let sf := fs src
      let df := fd dst
      if rawCopy sf df then
        let n := min len (min (0x20000 - src % 0x20000) (0x20000 - dst % 0x20000))
        ⟨src, dst, n, sf, df, n⟩ :: cutRow f fs fd (src + n) (dst + n) (len - n)
      else [⟨src, dst, len, sf, df, convertedLen sf df len⟩]

/-- A row by its two addresses, the formats that each address has, and its source bytes. -/
def rowOf (fs fd : Nat → Nat) (src dst len : Nat) : Row :=
  let ps := cutRow (len / 0x10000 + 3) fs fd src dst len
  { src := src, dst := dst, len := len, dlen := ps.foldl (fun n p => n + p.dlen) 0, parts := ps }

/-- Scale codes take part in a part's copy: it converts, or copies equal block formats (R140). -/
def RowPart.scaled (p : RowPart) : Bool := !rawCopy p.sf p.df || fmtCode p.sf = fmtCode p.df

/-- The address of the scale code of the block at an address of a bank (R136). -/
def scaleAddr (f a : Nat) : Nat := a / 0x20000 * 0x20000 + scaleOff f (a % 0x20000)

/-- The scale codes of a run of blocks, as a run of addresses. -/
def scaleRun (f a len : Nat) : List (Nat × Nat) :=
  if isBlockFmt (fmtCode f) && 0 < len then [(scaleAddr f a, ceilDiv len (blockBytes (fmtCode f)))] else []

/-- Scale codes that a part reads and writes. -/
def RowPart.srcScales (p : RowPart) : List (Nat × Nat) := if p.scaled then scaleRun p.sf p.src p.len else []
def RowPart.dstScales (p : RowPart) : List (Nat × Nat) := if p.scaled then scaleRun p.df p.dst p.dlen else []

/-- ALIGN of a row under R140: the addresses that fail. -/
def Row.unaligned (r : Row) : List Nat :=
  let bad (f a : Nat) : Bool :=
    let c := fmtCode f
    if isBlockFmt c then a % 0x20000 % blockBytes c != 0 else a % elemBytes c != 0
  r.parts.flatMap (fun p =>
    (if p.len % fmtGrain (fmtCode p.sf) != 0 || bad p.sf p.src then [p.src] else []) ++
      (if bad p.df p.dst then [p.dst] else []))

/-- The address lies in the S1 of a core. -/
def isS1Side (core addr : Nat) : Bool :=
  match locate core addr with
  | .own _ | .peer .. => true
  | .s2 _ | .s3 .. | .virt _ | .nowhere => false

/-- FMT of a row (R136, R140): the addresses that fail. A range that crosses a bank converts nothing; scale codes lie in
their bank, and element bytes written keep off them. -/
def Row.misformed (r : Row) (core : Nat) : List Nat :=
  let crosses (a n : Nat) : Bool := isS1Side core a && a / 0x20000 != (a + n - 1) / 0x20000
  r.parts.flatMap (fun p =>
    let raw := rawCopy p.sf p.df
    (if !raw && (isMoFmt (fmtCode p.sf) != isMoFmt (fmtCode p.df) || 1 < r.parts.length || crosses p.src p.len) ||
        (p.scaled && scaleBad p.sf (p.src % 0x20000) p.len false) then [p.src] else []) ++
      (if (!raw && crosses p.dst p.dlen) || (p.scaled && scaleBad p.df (p.dst % 0x20000) p.dlen true) then [p.dst]
       else []))

/-! ## Lines of a row, one after the other (R429) -/

/-- What is read and written together: at most a line or a block of the destination, with the source that it comes from. -/
structure Chunk where
  part : RowPart
  src : Nat
  len : Nat
  /-- numbers of its first source block that come before those converted, and the numbers converted; 0 where raw -/
  skip : Nat
  count : Nat
  dst : Nat
  dlen : Nat
  deriving DecidableEq, Repr, Inhabited

/-- The chunk of a part at a byte of its destination. -/
def RowPart.chunk (p : RowPart) (d : Nat) : Chunk :=
  let line := min (p.dlen - d) (64 - (p.dst + d) % 64)
  if rawCopy p.sf p.df then ⟨p, p.src + d, line, 0, 0, p.dst + d, line⟩
  else
    let sc := fmtCode p.sf
    let dc := fmtCode p.df
    let blk := isBlockFmt dc
    let i := if blk then d / blockBytes dc * 32 else d / numBytes dc
    let m := if blk then blockBytes dc else line
    let n := min (countOf p.sf p.len - i) (if blk then 32 else line / numBytes dc)
    if isBlockFmt sc then
      let g := i / 32
      ⟨p, p.src + g * blockBytes sc, (ceilDiv (i + n) 32 - g) * blockBytes sc, i - 32 * g, n, p.dst + d, m⟩
    else ⟨p, p.src + i * numBytes sc, n * numBytes sc, 0, n, p.dst + d, m⟩

/-- The chunk of a row at a byte of its destination; none at its end. -/
def chunkAt : List RowPart → Nat → Option Chunk
  | [], _ => none
  | p :: ps, d => if d < p.dlen then some (p.chunk d) else chunkAt ps (d - p.dlen)

/-- Random bytes that a chunk draws (R142, R146). -/
def Chunk.draws (ch : Chunk) : Nat :=
  if rawCopy ch.part.sf ch.part.df || fmtRnd ch.part.df != 2 then 0
  else if isBlockFmt (fmtCode ch.part.df) then 32 else ch.count

/-- Starts of the blocks of a run from a part's base that lie in n bytes from an address. -/
def blockStarts (bb base a n : Nat) : List Nat :=
  let lo := ceilDiv (a - base) bb
  (List.range (ceilDiv (a + n - base) bb - lo)).map (fun i => base + (lo + i) * bb)

/-- Addresses of the scale codes that a chunk reads. -/
def Chunk.srcScales (ch : Chunk) : List Nat :=
  let p := ch.part
  let bb := blockBytes (fmtCode p.sf)
  if p.scaled && isBlockFmt (fmtCode p.sf) then (blockStarts bb p.src ch.src ch.len).map (scaleAddr p.sf) else []

/-- Addresses of the scale codes that a chunk writes. -/
def Chunk.dstScales (ch : Chunk) : List Nat :=
  let p := ch.part
  let bb := blockBytes (fmtCode p.df)
  if p.scaled && isBlockFmt (fmtCode p.df) then (blockStarts bb p.dst ch.dst ch.dlen).map (scaleAddr p.df) else []

/-- Convert the source bytes of a chunk (R140). -/
def Chunk.convert (ch : Chunk) (bytes scales : List Byte) (draw : Nat → Byte) : Converted :=
  let p := ch.part
  if rawCopy p.sf p.df then { bytes := bytes, scales := scales, drawn := 0 }
  else encodeRun p.df (isIntFmt (fmtCode p.sf)) draw (((decodeRun p.sf bytes scales).drop ch.skip).take ch.count)

/-! ## Writes (R193, R209, R215) -/

/-- Bytes for a run of addresses as writes within aligned words, or by lines where the line is of ciphertext or of a protected
page (R215, R343). `run` is the run that their access covers as a whole (R193). -/
def cutStores (fuel core : Nat) (c : Ctx) (run : Nat × Nat) (addr : Nat) (bs : List Byte) (cipher : Bool) : List Store :=
  match fuel with
  | 0 => []
  | f + 1 =>
    if bs.isEmpty then [] else
      let unit := if cipher || protAt core c addr then 64 else 8
      let n := min bs.length (unit - addr % unit)
      let base := addr / 64 * 64
      { place := placeOf core c addr, addr := addr, data := bs.take n, whole := run.1 ≤ base && base + 64 ≤ run.1 + run.2,
        cipher := cipher, prot := protAt core c addr, poison := false, begun := false } ::
        cutStores f core c run (addr + n) (bs.drop n) cipher

/-- A write performs at its home; false where it is not done (R193, R209, R343). -/
def State.performStore (s : State) (world : Nat) (w : Store) : State × Bool :=
  if w.poison then (s.poisonLine (w.place / 64), true)
  else
    let (s1, ok) := writeHome s world w.prot w.whole w.place w.data
    (if ok && w.cipher then s1.setForm (w.place / 64) true else s1, ok)

/-- The words that a write touches, as a range; a poisoning touches its whole line. -/
def Store.words (w : Store) : Nat × Nat :=
  if w.poison then (w.place / 64 * 8, w.place / 64 * 8 + 8) else (w.place / 8, (w.place + w.data.length + 7) / 8)

/-- An earlier one of these writes goes to a word that the n-th writes. -/
def wordBefore (ws : List Store) (n : Nat) (w : Store) : Bool := (ws.take n).any (fun v => overlaps v.words w.words)

/-- The writes that are left when the n-th has performed: the others of its line have begun (R293, R519). -/
def writesLeft (ws : List Store) (n : Nat) : List Store :=
  match ws[n]? with
  | some w => (ws.eraseIdx n).map (fun v => if v.place / 64 = w.place / 64 then { v with begun := true } else v)
  | none => ws

/-- Places of the lines that a chunk reads. -/
def Chunk.places (ch : Chunk) (core : Nat) (c : Ctx) : List Nat :=
  ((linePoints ch.src ch.len) ++ ch.srcScales).map (placeOf core c)

/-! ## Reading and converting a chunk -/

/-- The parts of a run of addresses that lie in one line each: address and length. -/
def runLines (addr len : Nat) : List (Nat × Nat) :=
  (linePoints addr len).map (fun a => (a, min (addr + len) (a / 64 * 64 + 64) - a))

/-- The bytes of a run read by a move or an engine; or the state after it met poison, with the line's address (R208, R210,
R211). -/
def readRun (s : State) (core : Nat) (c : Ctx) : List (Nat × Nat) → State × Except Nat (List Byte)
  | [] => (s, .ok [])
  | (a, n) :: rest =>
    let p := placeOf core c a
    if s.badRead p n then (s.poisonLine (p / 64), .error (a / 64 * 64))
    else match readHome s c.world (protAt core c a) p n with
      | none => (s.integrityFail (p / 64), .error (a / 64 * 64))
      | some bs => match readRun s core c rest with
        | (s1, .ok more) => (s1, .ok (bs ++ more))
        | (s1, .error e) => (s1, .error e)

/-- Write a run of bytes by lines; the address of the first line that could not be written in part (R209, R343). -/
def writeRun (s : State) (core : Nat) (c : Ctx) (bs : List Byte) : List (Nat × Nat) → State × Option Nat
  | [] => (s, none)
  | (a, n) :: rest =>
    let (s1, ok) := writeHome s c.world (protAt core c a) (n = 64) (placeOf core c a) (bs.take n)
    if ok then writeRun s1 core c (bs.drop n) rest else (s1, some (a / 64 * 64))

/-- The line of an address is in ciphertext form. -/
def cipherAt (s : State) (core : Nat) (c : Ctx) (a : Nat) : Bool := s.isCipher (placeOf core c a / 64)

/-- The ciphertext line that a chunk may not read or write: under conversion, or a raw copy of part of it (R193, R431); a
scale code is part of its line. -/
def Chunk.formBad (ch : Chunk) (s : State) (core : Nat) (c : Ctx) (r : Row) : Option Nat :=
  let raw := rawCopy ch.part.sf ch.part.df
  let lineOf (a : Nat) : Nat := a / 64 * 64
  let src := (runLines ch.src ch.len).filter (fun l => cipherAt s core c l.1 && !(raw && l.2 = 64 && ch.dst % 64 = 0))
  let dst := (runLines ch.dst ch.dlen).filter (fun l => cipherAt s core c l.1 &&
    !(r.dst ≤ lineOf l.1 && lineOf l.1 + 64 ≤ r.dst + r.dlen))
  let scales := (ch.srcScales ++ ch.dstScales).filter (cipherAt s core c)
  (src.map (fun l => lineOf l.1) ++ dst.map (fun l => lineOf l.1) ++ scales.map lineOf).head?

/-- The runs that a chunk reads: its source, then its scale codes. -/
def Chunk.runs (ch : Chunk) : List (Nat × Nat) := (ch.src, ch.len) :: ch.srcScales.map (fun a => (a, 1))

/-- The writes of a chunk of a row whose runs have been read (R140, R193), and the random bytes that they draw. -/
def Chunk.writes (ch : Chunk) (s : State) (core : Nat) (c : Ctx) (r : Row) (read : List Byte) (draw : Nat → Byte) :
    List Store × Nat :=
  let cipher := rawCopy ch.part.sf ch.part.df && ch.dlen = 64 && cipherAt s core c ch.src
  let v := ch.convert (read.take ch.len) (read.drop ch.len) draw
  (cutStores (v.bytes.length + 1) core c (r.dst, r.dlen) ch.dst v.bytes cipher ++
    (ch.dstScales.zip v.scales).flatMap (fun p => cutStores 2 core c (p.1, 1) p.1 [p.2] false), v.drawn)

/-! ## Words read (R208, R215) -/

/-- Some runs are to be read next. -/
def Fetch.begin (f : Fetch) (core : Nat) (c : Ctx) (runs : List (Nat × Nat)) : Fetch :=
  { f with pieces := cutRuns core c runs, data := List.replicate (runs.foldl (fun n r => n + r.2) 0) 0#8 }

/-- The n-th word of a read performs: one that cannot be used, or the last one, ends it (R208, R210, R211). -/
def fetchWord (s : State) (world : Nat) (f : Fetch) (n : Nat) (p : Piece) : State × Fetch :=
  let bad : Fetch := { got := f.got ++ [(f.data, some (p.addr / 64 * 64))], pieces := [], data := [] }
  if s.badRead p.place p.len then (s.poisonLine (p.place / 64), bad)
  else match readHome s world p.prot p.place p.len with
    | none => (s.integrityFail (p.place / 64), bad)
    | some bs =>
      let d := patch f.data p.off bs
      let left := piecesLeft f.pieces n
      (s, if left.isEmpty then { got := f.got ++ [(d, none)], pieces := [], data := [] }
        else { f with pieces := left, data := d })

/-! ## Moves: what they still have to touch, and conflicts (R217, R430) -/

/-- The BFMT of the bank of an own-S1 address among those latched, RAW elsewhere (R139). -/
def latchedFmt (fmts : SMap Nat) (core addr : Nat) : Nat :=
  if isOwn core addr then SMap.get 0 fmts (bankOf addr) else 0

/-- Row r of a move. -/
def Move.rowAt (m : Move) (core r : Nat) : Row :=
  rowOf (latchedFmt m.fmts core) (latchedFmt m.fmts core) (wrap48 (m.src + r * m.spitch)) (wrap48 (m.dst + r * m.dpitch)) m.len

/-- The context with the window entries that a move looked up (R206). -/
def Move.view (m : Move) (c : Ctx) : Ctx := { c with window := m.window }

/-- The next chunk of a move; none once every row is read. -/
def Move.chunk (m : Move) (core : Nat) : Option Chunk :=
  if m.rows ≤ m.row then none else chunkAt (m.rowAt core m.row).parts m.at_

/-- The rows of one side, with its scale codes, as runs of addresses. -/
def Move.runs (m : Move) (core : Nat) (src : Bool) (from_ : Nat) : List (Nat × Nat) :=
  (List.range (m.rows - from_)).flatMap (fun i =>
    let r := m.rowAt core (from_ + i)
    if src then (r.src, r.len) :: r.parts.flatMap RowPart.srcScales
    else (r.dst, r.dlen) :: r.parts.flatMap RowPart.dstScales)

/-- What of its two sides a move has still to read and convert: of the row that it is in, from its next chunk on. -/
def Move.left (m : Move) (core : Nat) : List (Nat × Nat) :=
  match m.chunk core with
  | none => []
  | some ch =>
    let r := m.rowAt core m.row
    (if m.kind.reads then
      (ch.src, r.src + r.len - ch.src) :: r.parts.flatMap RowPart.srcScales ++ m.runs core true (m.row + 1) else []) ++
    (if m.kind.writes then
      (ch.dst, r.dst + r.dlen - ch.dst) :: r.parts.flatMap RowPart.dstScales ++ m.runs core false (m.row + 1) else [])

/-- The move has still to touch a line of storage. -/
def Move.touches (m : Move) (core : Nat) (c : Ctx) (line : Nat) : Bool :=
  m.stores.any (fun w => w.place / 64 = line) ||
    (if m.kind = .vldr then m.fetch.pieces.any (fun p => p.place / 64 = line)
     else (m.left core).any (fun r => (linePoints r.1 r.2).any (fun a => placeOf core (m.view c) a / 64 = line)))

/-- No access of the context before the one numbered id has still to touch a line (R217, R430). -/
def State.lineFree (s : State) (core plat id line : Nat) : Bool :=
  let c := s.ctx core plat
  !c.outLive.any (fun o => o.id < id && o.pieces.any (fun p => p.place / 64 = line)) &&
    !c.moves.any (fun m => m.id < id && m.touches core c line)

/-- The lines of a run of addresses, as a range. -/
def lineRange (r : Nat × Nat) : Nat × Nat := (r.1 / 64, (r.2 + 63) / 64)

/-- The lowest and the last byte of the rows of one side. -/
def sideSpan (base rows pitch len : Nat) : Nat × Nat := (base, base + (rows - 1) * pitch + len)

/-- From the lowest to the last byte of runs that lie in own S1; empty where none does. -/
def ownSpan (core : Nat) (rs : List (Nat × Nat)) : Nat × Nat :=
  let own := rs.filter (fun r => isOwn core r.1)
  match (own.map (·.1)).min?, (own.map (fun r => r.1 + r.2)).max? with
  | some a, some b => (a, b)
  | _, _ => (0, 0)

/-- The own-S1 spans that a move reads and writes (R430). -/
def Move.readSpan (m : Move) (core : Nat) : Nat × Nat := if m.kind.reads then ownSpan core (m.runs core true 0) else (0, 0)
def Move.writeSpan (m : Move) (core : Nat) : Nat × Nat := if m.kind.writes then ownSpan core (m.runs core false 0) else (0, 0)

/-- An own-S1 access to a run of addresses conflicts with an outstanding move (R430). -/
def Move.conflicts (m : Move) (core : Nat) (wr : Bool) (r : Nat × Nat) : Bool :=
  overlaps (lineRange (m.writeSpan core)) (lineRange r) || (wr && overlaps (lineRange (m.readSpan core)) (lineRange r))

/-- Some own-S1 run of an access made at issue conflicts with an outstanding move. -/
def Ctx.moveConflict (c : Ctx) (core : Nat) (wr : Bool) (spans : List (Nat × Nat)) : Bool :=
  spans.any (fun r => isOwn core r.1 && c.moves.any (fun m => m.conflicts core wr (r.1, r.1 + r.2)))

/-- A move has its own-S1 span in a group named by a mask (R430). -/
def Ctx.moveInGroups (c : Ctx) (core groups : Nat) : Bool :=
  c.moves.any (fun m => [m.readSpan core, m.writeSpan core].any (fun p =>
    (List.range 4).any (fun g => groups.testBit g && overlaps p (g * 0x200000, (g + 1) * 0x200000))))

end Sys2Proof.Machine
end

