-- ==== Sys2Proof/Machine/Operands.lean ====
section
/-! DEFINITION. What each slot instruction reads and writes: its guard (R77), the registers it reads at issue in field order
(R74, R79 to R84, R309), the registers it writes and when they land (R85, R89), and the memory it accesses from the A slot
(R363, R392, R406, R438, R458, R461, R463). -/
namespace Sys2Proof.Machine

/-! ## Small operand forms -/

def xr (n : BitVec 6) : RegId := .x n.toNat
def ar (n : BitVec 5) : RegId := .a n.toNat
def vr (n : BitVec 11) : RegId := .v n.toNat
def mr (n : BitVec 8) : RegId := .m n.toNat
def pr (n : BitVec 4) : RegId := .p n.toNat

/-- x0 and p0 are constants (R85, R86). -/
def RegId.real : RegId → Bool
  | .x n => n != 0
  | .p n => n != 0
  | .a _ => true
  | .v _ => true
  | .m _ => true

def RegId.isV : RegId → Bool
  | .v _ => true
  | .x _ => false | .p _ => false | .a _ => false | .m _ => false
def RegId.isM : RegId → Bool
  | .m _ => true
  | .x _ => false | .p _ => false | .a _ => false | .v _ => false
def RegId.isScalar : RegId → Bool
  | .x _ => true
  | .a _ => true
  | .v _ => false | .p _ => false | .m _ => false

end Sys2Proof.Machine

namespace Sys2Proof
open Sys2Proof.Machine

/-- Bytes of a size code (R81). -/
def Sz.bytes : Sz → Nat
  | .b => 1 | .h => 2 | .w => 4 | .d => 8

/-- The guard of a slot instruction; a NOP and the device's own steps have none (R77, R411). -/
def Instr.guard : Instr → Option Guard
  | .br g .. | .brx g .. | .call g .. | .callx g .. | .ret g | .halt g | .yield g | .park g | .tret g
  | .axleave g | .loop g .. | .loopi g .. | .trap g .. | .svc g .. | .fence g .. | .drain g .. | .barc g ..
  | .axenter g .. | .getc g .. | .setc g .. | .setci g .. | .add g .. | .sub g .. | .addi g .. | .mul g ..
  | .mulh g .. | .mulhu g .. | .div g .. | .divu g .. | .rem g .. | .remu g .. | .and g .. | .or g ..
  | .xor g .. | .andi g .. | .ori g .. | .xori g .. | .shl g .. | .shr g .. | .sra g .. | .shli g ..
  | .shri g .. | .srai g .. | .min g .. | .max g .. | .minu g .. | .maxu g .. | .clz g .. | .popc g ..
  | .li g .. | .lih g .. | .sel g .. | .cmpeq g .. | .cmpne g .. | .cmplt g .. | .cmpltu g .. | .cmple g ..
  | .cmpleu g .. | .cmpeqi g .. | .cmplti g .. | .pand g .. | .por g .. | .pxor g .. | .pnot g .. | .movxa g ..
  | .movax g .. | .aadd g .. | .aaddi g .. | .ali g .. | .vld g .. | .vst g .. | .vlds g .. | .vsts g ..
  | .vldr g .. | .vstr g .. | .vgath g .. | .vscat g .. | .ldx g .. | .stx g .. | .mld g .. | .mst g ..
  | .tld g .. | .tst g .. | .scopy g .. | .winset g .. | .amoadd g .. | .amoand g .. | .amoor g ..
  | .amomin g .. | .amomax g .. | .amoswap g .. | .amocas g .. | .vadd g .. | .vsub g .. | .vmul g ..
  | .vfma g .. | .vfms g .. | .vmin g .. | .vmax g .. | .vcmpeq g .. | .vcmplt g .. | .vcmple g ..
  | .vperm g .. | .vrot g .. | .vshl g .. | .vshr g .. | .vsra g .. | .vand g .. | .vor g .. | .vxor g ..
  | .vnot g .. | .vmov g .. | .vsel g .. | .vabs g .. | .vneg g .. | .vcvt g .. | .vbcst g .. | .vinsx g ..
  | .vextx g .. | .viota g .. | .vradd g .. | .vrmax g .. | .vrmin g .. | .vscan g .. | .vexp g .. | .vlog g ..
  | .vrcp g .. | .vrsq g .. | .vtanh g .. | .vsigm g .. | .madd g .. | .msub g .. | .mmul g .. | .maff g ..
  | .msqr g .. | .mmov g .. | .mrelu g .. | .mexp g .. | .mform g .. | .mcoll g .. | .tmma g .. | .tmmb g ..
  | .tmmm g .. | .tzero g .. | .tdrain g .. | .tfill g .. | .chstart g .. | .chstop g .. | .ringcfg g ..
  | .awaitf g .. | .rels g .. | .ringrd g .. | .ysort g .. | .ygath g .. | .ycomb g .. | .xa2av g ..
  | .xar g .. | .xag g .. | .xrun g .. | .sendh g .. | .sealL g .. | .openL g .. | .rqseed g .. | .axinv g ..
  | .axqry g .. | .boundInstruction g .. => some g
  | _ => none

end Sys2Proof

namespace Sys2Proof.Machine

/-! ## Registers read at issue, in field order (R74, R309) -/

end Sys2Proof.Machine

namespace Sys2Proof
open Sys2Proof.Machine

def Instr.reads : Instr → List RegId
  | .brx _ xa | .callx _ xa | .loop _ xa _ | .barc _ xa | .setc _ _ xa => [xr xa]
  | .add _ _ xa xb | .sub _ _ xa xb | .mul _ _ xa xb | .mulh _ _ xa xb | .mulhu _ _ xa xb | .div _ _ xa xb
  | .divu _ _ xa xb | .rem _ _ xa xb | .remu _ _ xa xb | .and _ _ xa xb | .or _ _ xa xb | .xor _ _ xa xb
  | .shl _ _ xa xb | .shr _ _ xa xb | .sra _ _ xa xb | .min _ _ xa xb | .max _ _ xa xb | .minu _ _ xa xb
  | .maxu _ _ xa xb => [xr xa, xr xb]
  | .cmpeq _ _ xa xb | .cmpne _ _ xa xb | .cmplt _ _ xa xb | .cmpltu _ _ xa xb | .cmple _ _ xa xb
  | .cmpleu _ _ xa xb => [xr xa, xr xb]
  | .addi _ _ xa _ | .andi _ _ xa _ | .ori _ _ xa _ | .xori _ _ xa _ => [xr xa]
  | .shli _ _ xa _ | .shri _ _ xa _ | .srai _ _ xa _ => [xr xa]
  | .cmpeqi _ _ xa _ | .cmplti _ _ xa _ => [xr xa]
  | .clz _ _ xa | .popc _ _ xa | .movxa _ _ xa => [xr xa]
  | .lih _ xd _ => [xr xd]
  | .sel _ _ pa xa xb => [xr xa, xr xb, pr pa]
  | .pand _ _ pa pb | .por _ _ pa pb | .pxor _ _ pa pb => [pr pa, pr pb]
  | .pnot _ _ pa => [pr pa]
  | .movax _ _ aa => [ar aa]
  | .aadd _ _ ab xa => [ar ab, xr xa]
  | .aaddi _ _ ab _ => [ar ab]
  | .vld _ _ aa _ | .vlds _ _ aa _ | .vldr _ _ aa _ => [ar aa]
  | .vst _ va aa _ | .vsts _ va aa _ | .vstr _ va aa _ => [ar aa, vr va]
  | .vgath _ _ _ aa vi => [ar aa, vr vi]
  | .vscat _ _ va aa vi => [ar aa, vr va, vr vi]
  | .ldx _ _ _ aa _ => [ar aa]
  | .stx _ _ xa aa _ => [ar aa, xr xa]
  | .mld _ _ aa _ => [ar aa]
  | .mst _ ma aa _ => [ar aa, mr ma]
  | .tld _ ad ab xa | .tst _ ad ab xa | .scopy _ ad ab xa => [ar ad, ar ab, xr xa]
  | .winset _ aa va => [ar aa, vr va]
  | .amoadd _ _ _ aa xn | .amoand _ _ _ aa xn | .amoor _ _ _ aa xn | .amomin _ _ _ aa xn | .amomax _ _ _ aa xn
  | .amoswap _ _ _ aa xn => [ar aa, xr xn]
  | .amocas _ _ xd aa xn => [ar aa, xr xd, xr xn]
  | .vadd _ _ _ _ _ va vb | .vsub _ _ _ _ _ va vb | .vmul _ _ _ _ _ va vb => [vr va, vr vb]
  | .vfma _ _ _ _ _ va vb vc | .vfms _ _ _ _ _ va vb vc => [vr va, vr vb, vr vc]
  | .vmin _ _ _ va vb | .vmax _ _ _ va vb | .vcmpeq _ _ _ va vb | .vcmplt _ _ _ va vb | .vcmple _ _ _ va vb
  | .vperm _ _ _ va vb | .vshl _ _ _ va vb | .vshr _ _ _ va vb | .vsra _ _ _ va vb => [vr va, vr vb]
  | .vand _ _ va vb | .vor _ _ va vb | .vxor _ _ va vb => [vr va, vr vb]
  | .vrot _ _ _ va _ => [vr va]
  | .vnot _ _ va | .vmov _ _ va => [vr va]
  | .vsel _ _ va vb vc => [vr va, vr vb, vr vc]
  | .vabs _ _ _ _ va | .vneg _ _ _ _ va => [vr va]
  | .vcvt _ _ _ _ _ _ va => [vr va]
  | .vbcst _ _ _ xa => [xr xa]
  | .vinsx _ _ _ va xa _ => [vr va, xr xa]
  | .vextx _ _ _ va _ => [vr va]
  | .vradd _ _ _ _ va | .vscan _ _ _ _ va => [vr va]
  | .vrmax _ _ _ _ va | .vrmin _ _ _ _ va => [vr va]
  | .madd _ _ ma mb | .msub _ _ ma mb | .mmul _ _ ma mb => [mr ma, mr mb]
  | .maff _ _ ma vb vc => [mr ma, vr vb, vr vc]
  | .msqr _ _ ma | .mmov _ _ ma => [mr ma]
  | .mform _ _ va vb => [vr va, vr vb]
  | .mcoll _ mode _ ma => if mode = .sample then [] else [mr ma]
  | .tmma _ _ aA aB xs .. | .tmmb _ _ aA aB xs .. => [ar aA, ar aB, xr xs]
  | .tmmm _ aA aB xs .. => [ar aA, ar aB, xr xs]
  | .tzero _ _ xs => [xr xs]
  | .tdrain _ _ aA ep vb => ar aA :: (List.range ep.regs).map (fun i => .v ((vb.toNat + i) % 2048))
  | .tfill _ _ aA => [ar aA]
  | .chstart _ _ aa => [ar aa]
  | .ringcfg _ _ xa => [xr xa]
  | .ysort _ aa .. | .ygath _ aa .. | .ycomb _ aa .. | .xa2av _ aa .. | .xar _ aa .. | .xag _ aa .. => [ar aa]
  | .xrun _ aa xa .. => [ar aa, xr xa]
  | .sendh _ va aa xa _ => [ar aa, xr xa, vr va]
  | .sealL _ aa xa .. | .openL _ aa xa .. => [ar aa, xr xa]
  | .rqseed _ va xa => [xr xa, vr va]
  | _ => []

end Sys2Proof

namespace Sys2Proof.Machine

/-- The registers an instruction reads at issue, with those the context decides: AXENTER the in register of its region,
AXLEAVE the out register of the open one (R369, R372). -/
def readsIn (desc : Nat → Option RegionDesc) (c : Ctx) (i : Instr) : List RegId :=
  match i with
  | .axenter _ id _ => match desc id.toNat with
    | some d => [.v d.input]
    | none => []
  | .axleave _ => match c.latch with
    | some l => match desc l.id with
      | some d => [.v d.output]
      | none => []
    | none => []
  | i => i.reads

/-! ## Memory accessed from the A slot -/

/-- a[aa][47:0] + 64 × off, wrapped at 48 bits (R392, R406, R438, R461). -/
def Ctx.memAddr (c : Ctx) (aa : BitVec 5) (off : BitVec 10) : Nat :=
  wrap (addrOf (c.rdA aa) + 64 * off.toInt) 48

/-- The six lines of VLDS and VSTS (R461). -/
def Ctx.pitchLines (c : Ctx) (aa : BitVec 5) (off : BitVec 10) : List (Nat × Nat) :=
  let p := max 1 (pitchOf (c.rdA aa))
  (List.range 6).map (fun j => (wrap48 (c.memAddr aa off + 64 * p * j), 64))

/-- The elements of VGATH and VSCAT (R458). -/
def Ctx.elements (c : Ctx) (sz : Sz) (aa : BitVec 5) (vi : BitVec 11) : List (Nat × Nat) :=
  let n := sz.bytes
  let idx := lanes (min (384 / n) 96) 32 (c.rdV vi).toNat
  idx.map (fun k => (wrap48 (addrOf (c.rdA aa) + n * k), n))

/-- A vector load of these lines; a claim and poison stop it at issue unless it is requested (R462, R463). -/
def vecLoad (spans : List (Nat × Nat)) (requested : Bool) : Access :=
  { spans := spans, align := 64, aligned := spans.map (·.1), rd := true, wr := false, amo := false, mst := false,
    vec := true, claim := !requested, hwRd := !requested, hwWr := false }

def vecStore (spans : List (Nat × Nat)) (requested : Bool) : Access :=
  { spans := spans, align := 64, aligned := spans.map (·.1), rd := false, wr := true, amo := false, mst := false,
    vec := true, claim := !requested, hwRd := false, hwWr := false }

/-- The access an A-slot instruction makes; poison stops a load at issue only where all of it is own S1 (R208). -/
def Ctx.access (c : Ctx) (i : Instr) : Option Access :=
  let fixed (a : Access) : Access := { a with hwRd := a.hwRd && a.own }
  match i with
  | .vld _ _ aa off => some (fixed (vecLoad [(c.memAddr aa off, 384)] false))
  | .vlds _ _ aa off => some (fixed (vecLoad (c.pitchLines aa off) false))
  | .vldr _ _ aa off => some (vecLoad [(c.memAddr aa off, 384)] true)
  | .vst _ _ aa off => some (vecStore [(c.memAddr aa off, 384)] false)
  | .vsts _ _ aa off => some (vecStore (c.pitchLines aa off) false)
  | .vstr _ _ aa off => some (vecStore [(c.memAddr aa off, 384)] true)
  | .vgath _ sz _ aa vi =>
    some (fixed { vecLoad (c.elements sz aa vi) false with align := sz.bytes })
  | .vscat _ sz _ aa vi =>
    some { vecStore (c.elements sz aa vi) false with align := sz.bytes, hwWr := true }
  | .ldx _ sz _ aa off =>
    some (fixed { vecLoad [(c.memAddr aa off, sz.bytes)] false with align := sz.bytes, vec := false })
  | .stx _ sz _ aa off =>
    some { vecStore [(c.memAddr aa off, sz.bytes)] false with align := sz.bytes, vec := false, hwWr := true }
  | .mld _ _ aa off => some (fixed (vecLoad [(c.memAddr aa off, 768)] false))
  | .mst _ _ aa off => some { vecStore [(c.memAddr aa off, 768)] false with mst := true }
  | .amoadd _ dbl _ aa _ | .amoand _ dbl _ aa _ | .amoor _ dbl _ aa _ | .amomin _ dbl _ aa _ | .amomax _ dbl _ aa _
  | .amoswap _ dbl _ aa _ | .amocas _ dbl _ aa _ =>
    let n := if dbl then 8 else 4
    let ad := addrOf (c.rdA aa)
    some { spans := [(ad, n)], align := n, aligned := [ad], rd := true, wr := true, amo := true, mst := false,
           vec := false, claim := true, hwRd := false, hwWr := false }
  | _ => none

/-! ## Registers written, with the latency where it is fixed (R89) -/

/-- A load's latency: 4 from own S1, else variable. A guarded-off load counts a write port by the same rule, from the addresses in
its registers, which R75 does not say (log entry 95). -/
def Ctx.loadLatency (c : Ctx) (i : Instr) : Option Nat :=
  match c.access i with
  | some a => if a.own then some 4 else none
  | none => none

def Ctx.writes (c : Ctx) (i : Instr) : List (RegId × Option Nat) :=
  let real (l : List (RegId × Option Nat)) := l.filter (fun p => p.1.real)
  match i with
  | .getc _ xd creg => real [(xr xd, if creg.toNat < 0x800 then some 1 else none)]
  | .mul _ xd .. | .mulh _ xd .. | .mulhu _ xd .. => real [(xr xd, some 3)]
  | .div _ xd .. | .divu _ xd .. | .rem _ xd .. | .remu _ xd .. => real [(xr xd, some 20)]
  | .add _ xd .. | .sub _ xd .. | .and _ xd .. | .or _ xd .. | .xor _ xd .. | .shl _ xd .. | .shr _ xd .. | .sra _ xd ..
  | .min _ xd .. | .max _ xd .. | .minu _ xd .. | .maxu _ xd .. => real [(xr xd, some 1)]
  | .addi _ xd .. | .andi _ xd .. | .ori _ xd .. | .xori _ xd .. => real [(xr xd, some 1)]
  | .shli _ xd .. | .shri _ xd .. | .srai _ xd .. => real [(xr xd, some 1)]
  | .clz _ xd _ | .popc _ xd _ => real [(xr xd, some 1)]
  | .li _ xd _ | .lih _ xd _ => real [(xr xd, some 1)]
  | .sel _ xd .. => real [(xr xd, some 1)]
  | .movax _ xd _ => real [(xr xd, some 1)]
  | .cmpeq _ pd .. | .cmpne _ pd .. | .cmplt _ pd .. | .cmpltu _ pd .. | .cmple _ pd .. | .cmpleu _ pd .. =>
    real [(pr pd, some 1)]
  | .cmpeqi _ pd .. | .cmplti _ pd .. => real [(pr pd, some 1)]
  | .pand _ pd .. | .por _ pd .. | .pxor _ pd .. => real [(pr pd, some 1)]
  | .pnot _ pd _ => real [(pr pd, some 1)]
  | .movxa _ ad _ => [(ar ad, some 1)]
  | .aadd _ ad .. => [(ar ad, some 1)]
  | .aaddi _ ad .. => [(ar ad, some 1)]
  | .ali _ ad _ => [(ar ad, some 1)]
  | .vld _ vd .. | .vlds _ vd .. => [(vr vd, c.loadLatency i)]
  | .vgath _ _ vd .. => [(vr vd, c.loadLatency i)]
  | .vldr _ vd .. => [(vr vd, none)]
  | .ldx _ _ xd .. => real [(xr xd, c.loadLatency i)]
  | .mld _ md .. => [(mr md, c.loadLatency i)]
  | .amoadd _ _ xd .. | .amoand _ _ xd .. | .amoor _ _ xd .. | .amomin _ _ xd .. | .amomax _ _ xd ..
  | .amoswap _ _ xd .. | .amocas _ _ xd .. => real [(xr xd, none)]
  | .vfma _ _ _ _ vd .. | .vfms _ _ _ _ vd .. => [(vr vd, some 4)]
  | .vperm _ _ vd .. => [(vr vd, some 4)]
  | .vadd _ _ _ _ vd .. | .vsub _ _ _ _ vd .. | .vmul _ _ _ _ vd .. => [(vr vd, some 2)]
  | .vmin _ _ vd .. | .vmax _ _ vd .. | .vcmpeq _ _ vd .. | .vcmplt _ _ vd .. | .vcmple _ _ vd .. | .vshl _ _ vd ..
  | .vshr _ _ vd .. | .vsra _ _ vd .. => [(vr vd, some 2)]
  | .vrot _ _ vd .. => [(vr vd, some 2)]
  | .vand _ vd .. | .vor _ vd .. | .vxor _ vd .. => [(vr vd, some 2)]
  | .vnot _ vd _ | .vmov _ vd _ => [(vr vd, some 2)]
  | .vsel _ vd .. => [(vr vd, some 2)]
  | .vabs _ _ _ vd _ | .vneg _ _ _ vd _ => [(vr vd, some 2)]
  | .viota _ _ vd _ => [(vr vd, some 2)]
  | .vcvt _ _ _ _ _ vd _ => [(vr vd, some 3)]
  | .vbcst _ _ vd _ => [(vr vd, some 3)]
  | .vinsx _ _ vd .. => [(vr vd, some 3)]
  | .vextx _ _ xd .. => real [(xr xd, some 3)]
  | .vradd _ _ _ vd _ | .vscan _ _ _ vd _ => [(vr vd, some 6)]
  | .vrmax _ _ _ vd _ | .vrmin _ _ _ vd _ => [(vr vd, some 6)]
  | .vrcp _ vd _ => [(vr vd, some 10)]
  | .vrsq _ vd _ => [(vr vd, some 12)]
  | .vexp _ vd _ => [(vr vd, some 14)]
  | .vlog _ vd _ => [(vr vd, some 16)]
  | .vtanh _ vd _ | .vsigm _ vd _ => [(vr vd, some 18)]
  | .madd _ md .. | .msub _ md .. => [(mr md, some 4)]
  | .maff _ md .. => [(mr md, some 4)]
  | .mmul _ md .. => [(mr md, some 6)]
  | .msqr _ md _ => [(mr md, some 6)]
  | .mmov _ md _ => [(mr md, some 2)]
  | .mform _ md .. => [(mr md, some 2)]
  | .mexp _ md _ => [(mr md, some 20)]
  | .mrelu _ md _ => [(mr md, some 24)]
  | .mcoll _ mode vd _ =>
    (vr vd, some 3) :: (if mode = .sample then [] else [(.v (vd.toNat + 1), some 3)])
  | .ringrd _ xd _ => real [(xr xd, none)]
  | .axqry _ xd _ => real [(xr xd, none)]
  | _ => []

end Sys2Proof.Machine

namespace Sys2Proof
open Sys2Proof.Machine

/-- The class of a control transfer (R94). -/
def Instr.isTransfer : Instr → Bool
  | .br .. | .brx .. | .call .. | .callx .. | .ret .. | .axenter .. => true
  | _ => false

def Instr.isLoop : Instr → Bool
  | .loop .. | .loopi .. => true
  | _ => false

def Instr.isBound : Instr → Bool
  | .boundInstruction .. => true
  | _ => false

/-- The offset field of LOOP and LOOPI (R95). -/
def Instr.loopOffset : Instr → Option Int
  | .loop _ _ off => some off.toInt
  | .loopi _ _ off => some off.toInt
  | _ => none

end Sys2Proof

namespace Sys2Proof.Machine

/-! ## Captures (R308, R309) -/

/-- The bytes of a vector or moment operand, as CAPTURE entries of 384 bytes. -/
def Ctx.captureOf (c : Ctx) (r : RegId) : List (List Byte) :=
  match r with
  | .v _ => [toBytes 384 (c.operand r)]
  | .m _ => [toBytes 384 (c.operand r), toBytes 384 (c.operand r >>> 3072)]
  | .x _ => []
  | .p _ => []
  | .a _ => []

/-- AOWN (R249). -/
def Core.aown (k : Core) : Word :=
  let lo := k.half0.owner
  let hi := if k.split then k.half1.owner else k.half0.owner
  BitVec.ofNat 64 (lo.getD 0 % 4 + hi.getD 0 % 4 * 4 + lo.isSome.toNat * 16 + hi.isSome.toNat * 32)

/-- A core-side register's value as GETC reads it (R150, R249, R253, R387, R389). -/
def readCreg (s : State) (core plat n : Nat) : Word :=
  let k := s.core core
  let c := k.ctx plat
  let h := k.half (k.halfOf plat)
  if n = 0x000 then c.ctxid
  else if n = 0x001 then BitVec.ofNat 64 plat
  else if n = 0x002 then BitVec.ofNat 64 core
  else if n = 0x003 then BitVec.ofNat 64 (clusterOf core)
  else if n = 0x004 then BitVec.ofNat 64 (dieOf core)
  else if n = 0x010 then BitVec.ofNat 64 s.now
  else if n = 0x011 then BitVec.ofNat 64 c.bundles
  else if n = 0x050 then BitVec.ofNat 64 k.split.toNat
  else if n = 0x051 then k.aown
  else if n = 0x052 then BitVec.ofNat 64 (h.cycles - (h.matTill - s.now))
  else if n = 0x053 then BitVec.ofNat 64 h.products
  else if n = 0x070 then BitVec.ofNat 64 (if c.seeding then 0 else c.queue.length)
  else c.creg n

/-- HTIME: hub-clock cycles, 24 to every 35 of the arithmetic clock (R9, R390). -/
def htime (s : State) : Word := BitVec.ofNat 64 (s.now * 24 / 35)

/-- The control-register operand of a GETC, whose value the record keeps (R308); a hub register's is not at the core. -/
def Instr.cregOperands (i : Instr) (s : State) (core plat : Nat) : List Nat :=
  match i with
  | .getc _ _ n => if n.toNat < 0x800 then [(readCreg s core plat n.toNat).toNat] else []
  | _ => []

/-- p0-p15 as a bundle reads them, p0 at bit 0 (R308). -/
def Ctx.predBits (c : Ctx) : Nat := packLanes 1 ((List.range 16).map (fun i => (c.operand (.p i)) % 2))

/-- What the record keeps of a slot's operands: its registers, and control registers by value. -/
def Ctx.capture (c : Ctx) (rs : List RegId) (done : Nat) (cregs : List Nat := []) : Capture :=
  { done := done
    preds := BitVec.ofNat 16 c.predBits
    scalars := (rs.filter RegId.isScalar).map c.operand ++ cregs
    vectors := rs.flatMap c.captureOf }

end Sys2Proof.Machine

namespace Sys2Proof
open Sys2Proof.Machine

/-- A replayed instruction with its repeated register operands told apart, so that each is read from its own capture
(R310): the second field names another register, which the replay reads from the record only. -/
def Instr.spread (i : Instr) : Instr :=
  match i with
  | .madd g md ma mb => .madd g md ma (if mb = ma then mb + 1 else mb)
  | .msub g md ma mb => .msub g md ma (if mb = ma then mb + 1 else mb)
  | .mmul g md ma mb => .mmul g md ma (if mb = ma then mb + 1 else mb)
  | .mform g md va vb => .mform g md va (if vb = va then vb + 1 else vb)
  | .maff g md ma vb vc => .maff g md ma vb (if vc = vb then vc + 1 else vc)
  | .vscat g sz va aa vi => .vscat g sz va aa (if vi = va then vi + 1 else vi)
  | .tld g ad ab xa => .tld g ad (if ab = ad then ab + 1 else ab) xa
  | .tst g ad ab xa => .tst g ad (if ab = ad then ab + 1 else ab) xa
  | .scopy g ad ab xa => .scopy g ad (if ab = ad then ab + 1 else ab) xa
  | .amocas g dbl xd aa xn =>
    .amocas g dbl xd aa (if xn = xd ∧ xd ≠ 0 then (if xd = 63 then 1 else xd + 1) else xn)
  | .tmma g pl aA aB xs kcl acc win => .tmma g pl aA (if aB = aA then aB + 1 else aB) xs kcl acc win
  | .tmmb g pl aA aB xs kcl acc => .tmmb g pl aA (if aB = aA then aB + 1 else aB) xs kcl acc
  | .tmmm g aA aB xs kcl acc => .tmmm g aA (if aB = aA then aB + 1 else aB) xs kcl acc
  | i => i

end Sys2Proof

namespace Sys2Proof.Machine

/-- The operands of a replay, read from the record as it stands (R310, R314). -/
def recordOperands (r : Record) (rs : List RegId) : List (RegId × Nat) :=
  let preds := (List.range 15).map (fun i => (RegId.p (i + 1), r.preds / 2 ^ (i + 1) % 2))
  let step (acc : Nat × Nat × List (RegId × Nat)) (reg : RegId) : Nat × Nat × List (RegId × Nat) :=
    let (xi, ci, l) := acc
    match reg with
    | .x n => (xi + 1, ci, if n = 0 ∨ 4 ≤ xi then l else l ++ [(reg, r.xcap.getD xi 0)])
    | .a _ => (xi + 1, ci, if 4 ≤ xi then l else l ++ [(reg, r.xcap.getD xi 0)])
    | .v _ => (xi, ci + 1, if ci < r.ncap then l ++ [(reg, r.capture.getD ci 0)] else l)
    | .m _ => (xi, ci + 2, if ci + 1 < r.ncap then
        l ++ [(reg, r.capture.getD ci 0 + (r.capture.getD (ci + 1) 0) <<< 3072)] else l)
    | .p _ => acc
  preds ++ (rs.foldl step (0, 0, [])).2.2

end Sys2Proof.Machine
end

