-- ==== Sys2Proof/Machine/Issue.lean ====
section
/-! DEFINITION. Issue of a bundle: the steps of R525 with the checks of R99, the selection of a platform (R53 to R55), what a
slot instruction is to the issue logic, the completion of a bundle (R54, R58, R94, R306, R394) and the start of a routine
(R90, R159). -/
namespace Sys2Proof.Machine

/-! ## What a slot instruction is to the issue logic -/

/-- What a slot sees: the state its bundle found, from which every operand is read (R12). -/
structure Env where
  core : Nat
  plat : Nat
  pre : State
  slot : SlotId
  hdr : Header
  /-- the word its bundle popped (R97, R309) -/
  word : Option Vec

def Env.c (e : Env) : Ctx := e.pre.ctx e.core e.plat
def Env.k (e : Env) : Core := e.pre.core e.core
def Env.mpc (e : Env) : Nat := e.c.flow.pc
def Env.now (e : Env) : Nat := e.pre.now

/-- How a slot's execution ends: the state with its effects, or a fault. -/
inductive SlotOut where
  | done (s : State)
  | fault (code value : Nat)

/-- A slot instruction: what it blocks on at step 5 of R525, and its effect on the state that the slots before it left. -/
structure SlotSem where
  block : Env → State → Option (BlockWhy × State)
  run : Env → State → SlotOut

/-- A slot instruction that never blocks. -/
def plain (run : Env → State → SlotOut) : SlotSem := { block := fun _ _ => none, run := run }

/-- Change the issuing context. -/
def Env.upd (e : Env) (s : State) (f : Ctx → Ctx) : State := s.setCtx e.core e.plat (f (s.ctx e.core e.plat))

/-- Send a result on its way, to land L cycles after issue (R89); a write to x0 or p0 is discarded (R86). -/
def Env.land (e : Env) (s : State) (l : Nat) (w : RegWrite) : State :=
  match w with
  | .x 0 _ => s
  | .p 0 _ => s
  | w => e.upd s (fun c => { c with flights := c.flights ++ [⟨e.now, e.slot.num, e.now + l, w⟩] })

/-- A slot instruction whose whole effect is one register's value after L cycles. -/
def lands (l : Nat) (f : Env → RegWrite) : SlotSem := plain (fun e s => .done (e.land s l (f e)))

/-! ## Blocks and faults at issue -/

/-- The bundle does not issue: its context is BLOCKED, nothing issues in this cycle and the next (R53, R54). -/
def State.blockCtx (s : State) (core plat : Nat) (why : BlockWhy) : State :=
  let c := s.ctx core plat
  (s.setCtx core plat { c with state := .blocked, why := some why }).yieldCore core plat (s.now + 2) (s.now + 2)

/-- The 127 of R308's DONE without the bit of a slot. -/
def doneBut (slot : Nat) : Nat := 0x7F - 2 ^ (slot - 1)

/-- Raise a fault on a bundle: operands of the faulting slot are captured as the bundle read them (R309). -/
def State.raiseAt (s : State) (core plat : Nat) (f : FaultInfo) (reads : List RegId) (pre : Ctx) (done : Nat)
    (cregs : List Nat := []) : State :=
  s.takeFault core plat f (pre.capture reads done cregs) s.now

/-! ## The checks of R99 -/

/-- The slot that holds a bundle bit; 0 for the header. -/
def slotAt (pos : Nat) : Nat :=
  match slotPlaces.find? (fun p => p.2.1 ≤ pos && pos < p.2.1 + p.2.2) with
  | some p => p.1.num
  | none => 0

/-- A part of a bundle: slot, instruction, its guard's value and its meaning. -/
structure Part where
  slot : SlotId
  instr : Instr
  on : Bool
  sem : SlotSem

/-- ILLEGAL that depends on the context: R95, R97 and R314; the position that orders it, and the fault value. A LOOP that breaks
two rules of R95 at once has value 1 (log entry 96). -/
def dynIllegal (c : Ctx) (hdr : Header) (ps : List Part) : List (Nat × Nat) :=
  ps.flatMap (fun p =>
    (if !hdr.rq && p.instr.needsRqDyn && (c.creg 0x030).extractLsb' 0 2 = 2#2 then [(1, 1)] else []) ++
    (match p.instr.loopOffset with
     | some off =>
       if p.on && 4 ≤ c.flow.loops.length then [(32, 1)]
       else if off < 1 then [(32, 2)]
       else match c.flow.loops with
         | l :: _ => if p.on && (l.last : Int) < c.flow.pc + off then [(32, 2)] else []
         | [] => []
     | none => []) ++
    (match p.instr with
     | .tret _ => if p.on && !(c.creg 0x062).getLsbD 15 then [(32, 32)] else []
     | _ => []))

/-- The ILLEGAL of the lowest slot: value and slot (R99); of several fields of one slot, which the spec does not order, the
lowest position is given (log entry 19). -/
def illegalOf (c : Ctx) (hdr : Header) (ps : List Part) (static : List Nat) : Option (Nat × Nat) :=
  let all := static.map (fun p => (p, p)) ++ dynIllegal c hdr ps
  match (all.map (·.1)).min? with
  | some m => all.findSome? (fun q => if q.1 = m then some (q.2, slotAt m) else none)
  | none => none

/-- The valid binding of a bound code (R157); class numbers 0 A, 1 V, 2 T. -/
def BoundClass.num : BoundClass → Nat
  | .a => 0 | .v => 1 | .t => 2

def Ctx.binding (c : Ctx) (cls : BoundClass) (code : BitVec 6) : Option Binding :=
  c.bindings.find? (fun b => b.cls = BoundClass.num cls && b.code = 0xC0 + code.toNat)

/-- UNBOUND: the first slot with a bound code that no binding backs (R99). -/
def unboundOf (c : Ctx) (ps : List Part) : Option (Nat × Nat) :=
  ps.findSome? (fun p => match p.instr with
    | .boundInstruction _ cls code _ =>
      if (c.binding cls code).isNone then some (0xC0 + code.toNat, p.slot.num) else none
    | _ => none)

/-- DELAYBR (R96): value and slot. -/
def delaybrOf (c : Ctx) (ps : List Part) : Option (Nat × Nat) :=
  let t := c.flow.pc
  let steer := ps.any (fun p => p.instr.isTransfer || p.instr.isLoop)
  let slot := if steer then 1 else 0
  let last := c.flow.loops.any (fun l => l.last = t)
  match c.flow.xfer with
  | some x => if steer then some (t - (3 - x.left), slot) else if last then some (t, slot) else none
  | none => if last && steer then some (t, slot) else none

/-- DUPDEST: the first slot with a register that a later slot writes as well (R99). -/
def dupdestOf (c : Ctx) (ps : List Part) : Option (Nat × Nat) :=
  match ps with
  | [] => none
  | p :: rest =>
    let later := rest.flatMap (fun q => (c.writes q.instr).map (·.1))
    match ((c.writes p.instr).map (·.1)).find? (fun r => later.contains r) with
    | some r => some (r.value, p.slot.num)
    | none => dupdestOf c rest

/-- Fixed-latency vector or moment writes of an instruction, by latency, as R75 and R76 count them. -/
def Ctx.portWrites (c : Ctx) (moment : Bool) (i : Instr) : List Nat :=
  if i.runsRoutine then []
  else (c.writes i).filterMap (fun p => if (if moment then p.1.isM else p.1.isV) then p.2 else none)

/-- Writes already on their way that land at a cycle, counted against the ports. A result that landed early at a fault and a
guarded-off slot's marker are no write of a later cycle and do not count (R75 leaves it open; log entry 39). -/
def Ctx.portsAt (c : Ctx) (moment : Bool) (cycle : Nat) : Nat :=
  (c.flights.filter (fun f => f.land = cycle && (match f.write with
    | .v .. => !moment
    | .portV => !moment
    | .m .. => moment
    | .portM => moment
    | .x .. => false | .p .. => false | .a .. => false | .creg .. => false | .fpflags _ => false
    | .mflags _ => false | .replay .. => false | .shadow _ => false))).length

def Header.allot (h : Header) : SlotId → Nat
  | .a => h.pa | .v0 => h.pv0 | .v1 => h.pv1 | .t => h.pt | .e => h.pe | .c => 0 | .x => 0

/-- PORT (R73, R75, R76): value and slot. -/
def portOf (c : Ctx) (now : Nat) (hdr : Header) (ps : List Part) : Option (Nat × Nat) :=
  if 6 < hdr.pe + hdr.pt + hdr.pa + hdr.pv0 + hdr.pv1 then some (0, 0)
  else
    match ps.find? (fun p => Header.allot hdr p.slot < p.instr.vectorReads) with
    | some p => some (0, p.slot.num)
    | none =>
      if 4 < ((ps.flatMap (fun p => p.instr.reads)).filter RegId.isM).length then some (0, 0)
      else
        let excess (moment : Bool) (cap : Nat) (l : Nat) : Bool :=
          let mine := ((ps.flatMap (fun p => c.portWrites moment p.instr)).filter (· = l)).length
          0 < mine && cap < mine + c.portsAt moment (now + l)
        match (List.range 8).find? (fun l => excess false 4 l || excess true 3 l) with
        | some l => some (l, 0)
        | none => none

/-- SHADOW (R91): value and slot; registers that a replay reads from its record are not checked (R310). -/
def shadowOf (c : Ctx) (now : Nat) (ps : List Part) (reads : Part → List RegId) : Option (Nat × Nat) :=
  let busy (r : RegId) : Bool := match c.inFlight r with | some l => now < l | none => false
  let late (r : RegId) (l : Nat) : Bool := match c.inFlight r with | some m => now < m && now + l ≤ m | none => false
  ps.findSome? (fun p =>
    let g := match p.instr.guard with | some g => [pr g.pg] | none => []
    let rs := (g ++ (if p.on then reads p else [])).filter (fun r => (c.override.lookup r).isNone)
    match rs.find? busy with
    | some r => some (r.value, p.slot.num)
    | none =>
      if !p.on then none
      else match (c.writes p.instr).find? (fun w => match w.2 with | some l => late w.1 l | none => false) with
        | some w => some (w.1.value, p.slot.num)
        | none => none)

/-- The first failing check of R99 after the fetch check: code, value and slot. -/
def encodingFault (c : Ctx) (now : Nat) (hdr : Header) (ps : List Part) (static : List Nat)
    (reads : Part → List RegId) : Option (Nat × Nat × Nat) :=
  match illegalOf c hdr ps static with
  | some f => some (cILLEGAL, f)
  | none =>
  match unboundOf c ps with
  | some f => some (cUNBOUND, f)
  | none =>
  match delaybrOf c ps with
  | some f => some (cDELAYBR, f)
  | none =>
  match dupdestOf c ps with
  | some f => some (cDUPDEST, f)
  | none =>
  match portOf c now hdr ps with
  | some f => some (cPORT, f)
  | none =>
  match shadowOf c now ps reads with
  | some f => some (cSHADOW, f)
  | none => none

/-! ## Safe points (R54, R58, R60, R61) -/

/-- PQOS.QUANT (R56, R329). -/
def Partition.quantum (p : Partition) : Nat := (p.pqos.extractLsb' 16 21).toNat

/-- A held member of the platform's group that a rotation may bring back has been held for more than the quantum. -/
def Core.rotationDue (k : Core) (plat : Nat) : Bool := k.held.any (fun h => h.plat = plat && h.due && !h.passedOver)

/-- The context is to leave its platform: it issues nothing more, keeps its state (R52) and is SAVING in the cycle in which the
shunter may start (R60, R61, R234). -/
def State.leave (s : State) (core plat : Nat) (back : PlatState) : State :=
  let c := s.ctx core plat
  s.setCtx core plat { c with why := some (.leaving back) }

/-- Another platform of the core has been READY for more than the quantum (R54). -/
def State.swapDue (s : State) (core plat : Nat) : Bool :=
  (s.core core).plats.any (fun o => o.1 != plat && o.2.mayRun && o.2.overdue)

/-- What a bundle that the platform issues in this cycle finds (R54, R61). -/
def State.found (s : State) (core plat : Nat) : Found := ⟨s.swapDue core plat, (s.core core).rotationDue plat⟩

/-- What the safe-point bundle t, issued at a cycle, does at the boundary after it: a pre-emption asked for, else the rotation
that its issue found due, else the switch of R54 that its issue found due. An asynchronous fault that has arrived goes first
(R60, R61, R305). -/
def State.safePoint (s : State) (core plat t at_ : Nat) (found : Found) : State :=
  let c := s.ctx core plat
  let s1 := s.setCtx core plat { c with safe := some t }
  let back : PlatState := if c.state == .parked then .parked else .ready
  if c.preempt.isSome && c.asyncFaults.isEmpty then
    (s1.leave core plat back).yieldCore core plat (s.now + 1) (max (at_ + 3) s.now)
  else if found.rotate && c.preempt.isNone && c.asyncFaults.isEmpty then
    ((s1.setCtx core plat { c with safe := some t, rotating := true }).leave core plat back).yieldCore core plat (s.now + 1)
      (max (at_ + 3) s.now)
  else if c.state = .running && found.swap then
    (s1.setCtx core plat { c with safe := some t, state := .ready, readySince := s.now, overdue := false }).yieldCore core
      plat (max (at_ + 3) s.now) (max (at_ + 3) s.now)
  else s1

/-! ## Completion of a bundle -/

/-- The oldest arrival leaves the queue; a taken siding is free again below capacity (R327, R417). -/
def Ctx.dropArrival (c : Ctx) : Ctx :=
  { c with arrivals := c.arrivals.tail, arrSiding := if c.arrivals.tail.length < 4 && c.arrSiding = 2 then 0 else c.arrSiding }

/-- Take an arrival's handler: the oldest leaves the queue (R64, R417). -/
def Ctx.takeArrival (c : Ctx) : Ctx :=
  match c.arrivals with
  | [] => c
  | h :: _ => { c.dropArrival with flow := { c.flow with pc := h, xfer := none } }

/-- A context leaves every barrier (R67). -/
def State.leaveBarriers (s : State) (core : Nat) (id : Word) : State :=
  let cl := s.cluster (clusterOf core)
  let drop (m : SMap (List (Word × Nat))) : SMap (List (Word × Nat)) := m.map (fun p => (p.1, p.2.filter (·.1 != id)))
  s.setCluster (clusterOf core) { cl with barriers := drop cl.barriers, passed := drop cl.passed }

/-- The platform leaves the handler: the micro shadow is restored, INH and SKIP are cleared (R314). -/
def Ctx.leaveHandler (c : Ctx) : Ctx :=
  let c1 := match c.shadow with
    | some sh => { c with micro := sh.micro, regs := { c.regs with h := sh.h, n := sh.n }, saved := sh.saved, shadow := none }
    | none => c
  { c1 with word := c.wordAside, wordAside := none }.setCreg 0x062 (c1.creg 0x062 &&& 0xFFFFFFFFFFFE7FFF#64)

/-- A HALT acts: the context is BLOCKED with its halt pending, it has left its barriers, its latch is discarded, no transfer is
made and a pre-emption asked for is refused (R391). -/
def State.haltNow (s : State) (core plat at_ : Nat) : State :=
  let c := s.ctx core plat
  let s1 := s.setCtx core plat { c with
    state := .blocked, why := some .halt, haltPending := true, latch := none,
    flow := { c.flow with xfer := none, after := none } }
  ((s1.leaveBarriers core c.ctxid).refusePreempt core plat).yieldCore core plat (s.now + 1) (at_ + 3)

/-- The C slot's PARK, HALT, YIELD, loop skip or TRET acts on a bundle issued at a cycle, whose flow has moved on. A PARK or a
YIELD acts here as its issue decided (R64, R417, R476); an arrival that came while the routine beside a PARK ran ends its wait. -/
def State.act (s : State) (core plat at_ : Nat) (onTret : State → State) : After → State
  | .skipTo n => let c := s.ctx core plat; s.setCtx core plat { c with flow := { c.flow with pc := n, xfer := none } }
  | .park =>
    let c := s.ctx core plat
    let c1 : Ctx := { c with state := .parked, flow := { c.flow with xfer := none } }
    (s.setCtx core plat (if c.arrivals.isEmpty then c1
      else { c1.takeArrival with state := .ready, readySince := s.now, wake := s.now + 1, overdue := false })).yieldCore core plat
      (s.now + 1) (max (at_ + 3) s.now)
  | .halt => s.haltNow core plat at_
  | .yield =>
    let c := s.ctx core plat
    (s.setCtx core plat { c with state := .ready, readySince := at_, overdue := false, yielded := true }).yieldCore core plat
      (max (at_ + 3) s.now) (max (at_ + 3) s.now)
  | .tret => onTret s

/-- The bundle at the PC is complete: the flow moves on (R94, R394), what its C slot still has to do is done, and a safe-point
bundle's boundary is a safe point (R54, R58, R64), but for one whose TRET leaves an interrupted bundle to complete (R319). A TRET
discards the transfer of its own code and leaves the loop stack as it is (R446). `at_` is the bundle's issue cycle, `found` what
that cycle found. -/
def State.completeWith (s : State) (core plat : Nat) (sp : Bool) (at_ : Nat) (found : Found) (onTret : State → State) : State :=
  let c0 := s.ctx core plat
  let flow := if c0.flow.after = some .tret then { c0.flow with xfer := none, after := none } else c0.flow.complete
  let s0 := s.setCtx core plat { c0 with flow := flow, resume := .none, override := [], safe := none }
  let s1 := match c0.flow.after with
    | none => s0
    | some a => s0.act core plat at_ onTret a
  let c1 := s1.ctx core plat
  if sp && !c1.killPending && c1.resume == .none && (c1.state == .running || c1.state == .ready || c1.state == .parked) then
    s1.safePoint core plat c0.flow.pc at_ found
  else s1

/-! ## Resuming (R310, R311, R314, R176) -/

/-- The fetch check of R45. -/
def Ctx.inRange (c : Ctx) (t : Nat) : Bool := c.place.ibase ≤ t && t < c.place.ibase + c.place.ilen

/-- The bundle that a context's instruction memory holds at an index. -/
def State.bundleAt (s : State) (core t : Nat) : Decoded := readBundle (SMap.get 0#512 (s.core core).imem t)

/-- The bundle at an index that the context may fetch from; outside its range none is fetched (R45). -/
def State.bundleIn (s : State) (core : Nat) (c : Ctx) (t : Nat) : Decoded :=
  if c.inRange t then s.bundleAt core t else readBundle 0#512

/-- Resume from the record in FREC as it stands (R310, R311). A skip that completes a bundle whose TRET committed performs that
TRET. -/
def State.resumeWith (s : State) (core plat : Nat) (skip : Bool) (onTret : State → State) : State :=
  let c := s.ctx core plat
  let r := readRecord s core c.place.frec
  let d := (s.bundleIn core c r.mpc).bundle
  let plan := r.plan skip
  let flow (again : Nat) (after : Option After) : Flow :=
    { c.flow with pc := r.mpc, xfer := r.xfer again c.recCloses, after := after }
  let micro (pc : Nat) : Micro := { c.micro with pc := pc }
  if plan = 0 then s.setCtx core plat { c with flow := flow 1 none, resume := .none }
  else if plan = 1 then
    let rs := match d.slots.find? (fun p => p.1.num = r.slot) with
      | some p => readsIn (fun id => c.descs.find? (·.id = id)) c p.2.spread
      | none => []
    s.setCtx core plat { c with
      flow := flow 1 c.recAfter, resume := .replay r.slot, override := recordOperands r rs }
  else if plan = 2 then
    s.setCtx core plat { c with flow := flow 1 c.recAfter, resume := .stitch, micro := micro (r.upc % 8192) }
  else if plan = 3 then
    s.setCtx core plat { c with flow := flow 1 c.recAfter, resume := .stitch, micro := micro ((r.upc + 1) % 8192) }
  else if plan = 4 then
    (s.setCtx core plat { c with flow := flow 1 (if r.whole then none else c.recAfter) }).completeWith core plat d.hdr.sp s.now
      (s.found core plat) onTret
  else if plan = 5 then s.setCtx core plat { c with flow := flow 0 none, resume := .none }
  else s.setCtx core plat { c with flow := flow 1 c.recAfter, resume := .abandon }

/-- TRET (R314, R446): a transfer pending in the handler's code is discarded; the resumed work issues at +3. The C slot of the
bundle that the record names has acted, where it is this TRET itself. -/
def State.tretWith (s : State) (core plat : Nat) (acted : Bool) (onTret : State → State) : State :=
  let c := s.ctx core plat
  let skip := (c.creg 0x062).getLsbD 16
  let s1 := (s.setCtx core plat { c.leaveHandler with
    flow := { c.flow with xfer := none }, recAfter := if acted then none else c.recAfter }).resumeWith core plat skip onTret
  let k := s1.core core
  s1.setCore core { k with nextIssue := max k.nextIssue (s.now + 3) }

/-- A TRET as the steward's RESUMESKIP completes it: the record in FREC is that of its own bundle. -/
def State.tretSkipped (s : State) (core plat : Nat) : State := s.tretWith core plat true id

def State.resumeFrom (s : State) (core plat : Nat) (skip : Bool) : State :=
  s.resumeWith core plat skip (fun t => t.tretSkipped core plat)

def State.tretNow (s : State) (core plat : Nat) : State :=
  s.tretWith core plat ((s.ctx core plat).recAfter == some .tret) (fun t => t.tretSkipped core plat)

def State.completeBundle (s : State) (core plat : Nat) (sp : Bool) (at_ : Nat) (found : Found) : State :=
  s.completeWith core plat sp at_ found (fun t => t.tretNow core plat)

/-! ## Starting a routine (R90, R159) -/

/-- The micro state at the start of a routine; a surrogate starts with n1 = h − 1 (R159, R184). -/
def Ctx.microStart (c : Ctx) (pc n1 : Nat) (word : Option Vec) : Ctx :=
  { c with
    micro := { Micro.empty with pc := pc, word := word }
    regs := { c.regs with n := SMap.set 0#16 [] 1 (BitVec.ofNat 16 n1) } }

/-- Start a routine for the context: issue on the core is suspended up to +span (R90). -/
def State.startRoutine (s : State) (core plat : Nat) (args : RoutineArgs) (n1 span : Nat) (word : Option Vec)
    (waiting : List RegId) (mpc : Nat) (sp : Bool) : State :=
  let s1 := s.setCtx core plat ((s.ctx core plat).microStart args.bind.start n1 word)
  let k := s1.core core
  s1.setCore core { k with
    nextIssue := max k.nextIssue (s.now + span)
    routine := some { plat := plat, args := args, start := s.now, stall := 0, next := s.now + 1, ended := false,
                      span := span, loads := [], stalled := false, waitHbm := none, waiting := waiting, mpc := mpc,
                      completes := true, sp := sp,
                      found := s.found core plat } }

/-- The routine of a resumed context goes on in this cycle; its suspension lasts for the steps not yet counted (R176). -/
def State.continueRoutine (s : State) (core plat : Nat) (ended : Bool) : State :=
  let c := s.ctx core plat
  match c.saved with
  | none => s.setCtx core plat { c with resume := .none }
  | some args =>
    let left := args.bind.bound - c.micro.steps
    let s1 := s.setCtx core plat { c with resume := .none, saved := none }
    let k := s1.core core
    s1.setCore core { k with
      nextIssue := max k.nextIssue (s.now + left), last := plat, acted := s.now + 1
      routine := some { plat := plat, args := args, start := s.now, stall := 0, next := s.now, ended := ended,
                        span := left, loads := [], stalled := false, waitHbm := none,
                        waiting := c.pending.filter (fun g => !args.own.contains g), mpc := c.flow.pc, completes := true,
                        sp := (s.bundleIn core c c.flow.pc).bundle.hdr.sp, found := s.found core plat } }

/-! ## One attempt to issue (R525) -/

/-- The registers a part reads at issue. -/
def partReads (c : Ctx) (p : Part) : List RegId := readsIn (fun id => c.descs.find? (·.id = id)) c p.instr

/-- Pending registers that the parts read or write (R92). -/
def pendingHits (c : Ctx) (ps : List Part) : List RegId :=
  let rs := ps.flatMap (fun p => (if p.on then partReads c p else []).filter (fun r => (c.override.lookup r).isNone))
  let ws := ps.flatMap (fun p => (c.writes p.instr).map (·.1))
  (rs ++ ws).filter c.isPending

/-- The mark of a poisoned register that a part reads: fault code and value (R92, R365). -/
def poisonHit (c : Ctx) (p : Part) : Option (Nat × Nat) :=
  (partReads c p).findSome? (fun r =>
    if (c.override.lookup r).isSome then none
    else c.poison.findSome? (fun m => if m.1 = r then some (m.2.2, m.2.1) else none))

/-- Flights that only count a port, for the writes of a guarded-off slot (R75, R77). -/
def portFlights (c : Ctx) (now : Nat) (p : Part) : List Flight :=
  (c.portWrites false p.instr).map (fun l => ⟨now, p.slot.num, now + l, .portV⟩) ++
    (c.portWrites true p.instr).map (fun l => ⟨now, p.slot.num, now + l, .portM⟩)

/-- The mark that the BARC of the bundle at the PC holds: its barrier let the context pass before the bundle was suppressed
(R374). -/
def State.marked (s : State) (core plat : Nat) : Bool :=
  let c := s.ctx core plat
  (s.cluster (clusterOf core)).passed.any (fun p => p.2.contains (c.ctxid, c.flow.pc))

/-- A bundle whose BARC is guarded off commits: the mark of its BARC clears (R374). -/
def State.unmark (s : State) (core plat : Nat) (i : Instr) : State :=
  match i with
  | .barc .. =>
    if s.marked core plat then
      let c := s.ctx core plat
      let cl := s.cluster (clusterOf core)
      s.setCluster (clusterOf core) { cl with
        passed := cl.passed.map (fun p => (p.1, p.2.filter (· != (c.ctxid, c.flow.pc)))) }
    else s
  | _ => s

/-- One slot acts: the state and the faults so far (slot, code, value). -/
def runPart (core plat : Nat) (hdr : Header) (word : Option Vec) (pre : State) (acc : State × List (Part × Nat × Nat))
    (p : Part) : State × List (Part × Nat × Nat) :=
  let c := pre.ctx core plat
  if !p.on then
    let s := acc.1.unmark core plat p.instr
    let a := s.ctx core plat
    let x : Option Xfer := if p.instr.isTransfer then some ⟨0, false, 3, false⟩ else a.flow.xfer
    (s.setCtx core plat { a with
      flights := a.flights ++ portFlights c pre.now p, flow := { a.flow with xfer := x } }, acc.2)
  else
    match poisonHit c p with
    | some (code, v) => (acc.1, acc.2 ++ [(p, code, v)])
    | none =>
      match p.sem.run { core := core, plat := plat, pre := pre, slot := p.slot, hdr := hdr, word := word } acc.1 with
      | .done s => (s, acc.2)
      | .fault code v => (acc.1.meetFault core code v, acc.2 ++ [(p, code, v)])

/-- The order in which the parts of a bundle act: a tile instruction's claims stand before the accesses of the other slots
(R232); every slot reads the state that its bundle found (R12). -/
def actOrder (ps : List Part) : List Part := ps.filter (·.slot == .t) ++ ps.filter (·.slot != .t)

/-- What a slot that is on waits for at step 5 of R525; one with a poisoned operand faults at step 6 instead. -/
def blockOf (core plat : Nat) (hdr : Header) (s : State) (ps : List Part) : Option (BlockWhy × State) :=
  ps.findSome? (fun p =>
    if p.on && (poisonHit (s.ctx core plat) p).isNone then
      p.sem.block { core := core, plat := plat, pre := s, slot := p.slot, hdr := hdr, word := none } s
    else none)

/-- The bundle's word: popped at issue, or the one that stays with the platform in a replay (R97, R309). -/
def popWord (c : Ctx) (rq : Bool) (replay : Option Nat) : Ctx × Option Vec :=
  match replay with
  | some _ => (c, if rq then c.word else none)
  | none => if rq then ({ c with word := c.queue.head?, queue := c.queue.tail }, c.queue.head?) else ({ c with word := none }, none)

/-- Steps 2 to 6 of R525 on a bundle of the platform; `replay` is the slot that is replayed alone (R310). A replay that fails a
check of R99 writes DONE zero and the slot that R99 names, as every fault of R99 does, so that its own resume re-issues the whole
bundle (log entry 90). -/
def issueParts (core plat : Nat) (hdr : Header) (ps : List Part) (static : List Nat) (replay : Option Nat) (s : State) :
    State :=
  let c := s.ctx core plat
  let mpc := c.flow.pc
  let hits := pendingHits c ps
  if !hits.isEmpty then s.blockCtx core plat (.pending hits)
  else if hdr.rq && replay.isNone && c.queue.isEmpty then s.blockCtx core plat .randomQueue
  else
  match encodingFault c s.now hdr ps static (partReads c) with
  | some (code, v, slot) =>
    let (rs, crs) := match ps.find? (fun p => p.slot.num = slot) with
      | some p => (partReads c p, Instr.cregOperands p.instr s core plat)
      | none => ([], [])
    s.raiseAt core plat ⟨code, slot, v, mpc, none⟩ rs c 0 crs
  | none =>
  match blockOf core plat hdr s ps with
  | some (why, s1) => s1.blockCtx core plat why
  | none =>
    let (c1, word) := popWord c hdr.rq replay
    let (s1, faults) := (actOrder ps).foldl (runPart core plat hdr word s) (s.setCtx core plat c1, [])
    let k1 := s1.core core
    let c2 := s1.ctx core plat
    let s2 := (s1.setCtx core plat { c2 with bundles := c2.bundles + 1 }).setCore core
      { ((s1.setCtx core plat { c2 with bundles := c2.bundles + 1 }).core core) with last := plat }
    match faults with
    | [] =>
      if k1.routine.any (fun r => r.plat = plat && r.start = s.now) then
        (if c2.flow.after = some .halt then s2.haltNow core plat s.now else s2)
      else s2.completeBundle core plat hdr.sp s.now (s.found core plat)
    | [(p, code, v)] =>
      let s3 := match (s2.core core).routine with
        | some r => if r.plat = plat && r.start = s.now then
            s2.setCore core { (s2.core core) with routine := some { r with completes := false } } else s2
        | none => s2
      s3.raiseAt core plat ⟨code, p.slot.num, v, mpc, none⟩ (partReads c p) c (doneBut p.slot.num)
    | f :: more =>
      let (p, code, v) := (ps.findSome? (fun q => (f :: more).find? (fun g => g.1.slot == q.slot))).getD f
      (s.meetFault core code v).raiseAt core plat ⟨code, p.slot.num, v, mpc, none⟩ (partReads c p) c 0

/-- The parts of a decoded bundle for a context, each with its guard's value (R77). -/
def mkParts (sem : Instr → SlotSem) (c : Ctx) (slots : List (SlotId × Instr)) : List Part :=
  slots.map (fun p => { slot := p.1, instr := p.2, sem := sem p.2,
                        on := match p.2.guard with | some g => c.guard g | none => true })

/-- One attempt to issue for the running platform of a core (R525): the context's resume if one is due, else the bundle
that `fetch` gives at its PC. -/
def attempt (sem : Instr → SlotSem) (fetch : Nat → Decoded) (core plat : Nat) (s0 : State) : State :=
  let s := s0.setCore core { (s0.core core) with acted := s0.now + 1 }
  let c := s.ctx core plat
  let t := c.flow.pc
  match c.resume with
  | .stitch => s.continueRoutine core plat false
  | .abandon => s.continueRoutine core plat true
  | .replay n =>
    if !c.inRange t then s.raiseAt core plat ⟨cPROT, 0, t, t, none⟩ [] c 0
    else
      let d := fetch t
      let slots := (d.bundle.slots.filter (fun p => p.1.num = n)).map (fun p => (p.1, p.2.spread))
      issueParts core plat d.bundle.hdr (mkParts sem c slots) (d.illegal.filter (fun p => slotAt p = n)) (some n) s
  | .none =>
    if !c.inRange t then s.raiseAt core plat ⟨cPROT, 0, t, t, none⟩ [] c 0
    else
      let d := fetch t
      issueParts core plat d.bundle.hdr (mkParts sem c d.bundle.slots) d.illegal none s

/-- The meaning of a slot instruction: an attempt to issue, at the focus, the bundle that holds it alone (R115, R525). -/
def issueAlone (i : Instr) (sem : SlotSem) (s : State) : Host.Outcome State Fault Refusal :=
  let core := s.focus.1
  let plat := s.focus.2
  let c := s.ctx core plat
  if (s.core core).running = some plat ∧ c.state = .running then
    .next (attempt (fun _ => sem) (fun _ => { bundle := alone i, illegal := [] }) core plat s)
  else .refused .notEnabled

/-! ## Selection of a platform (R54, R55) -/

/-- The READY platforms among which the core selects in this cycle (R55). -/
def Core.candidates (k : Core) (now : Nat) : List (Nat × Ctx) := k.plats.filter (fun p => p.2.mayRun && p.2.wake ≤ now)

/-- The switch cycles to another platform than the last one to issue have passed: those after the bundle that freed the core,
where one was READY by their end, else two of the idle core after one became READY (R54, R57; log entry 82). -/
def Core.switched (k : Core) (now : Nat) : Bool :=
  k.switchAt ≤ now && (k.candidates now).any (fun p =>
    p.1 != k.last && (p.2.wake ≤ k.switchAt || k.switchAt = 0 || p.2.wake + 2 ≤ now))

/-- Whether platform a goes before platform b (R55): overdue ones first, the longest waiting before; then the higher
priority; then round-robin from the platform after the last one to issue. -/
def Core.before (k : Core) (a b : Nat × Ctx) : Bool :=
  let rr (n : Nat) : Nat := (n + 7 - k.last) % 4
  if a.2.overdue != b.2.overdue then a.2.overdue
  else if a.2.overdue && a.2.readySince != b.2.readySince then a.2.readySince < b.2.readySince
  else if a.2.place.prio != b.2.place.prio then b.2.place.prio < a.2.place.prio
  else rr a.1 < rr b.1

/-- The platform that the core selects: the first of R55's order among the READY ones, a yielding one only where there is no
other (R476); the last one to issue pays no switch cycles, and nobody issues while another one waits for them (R54). -/
def Core.select (k : Core) (now : Nat) : Option Nat :=
  let cs := k.candidates now
  let pool := if (cs.filter (fun p => !p.2.yielded)).isEmpty then cs else cs.filter (fun p => !p.2.yielded)
  match pool with
  | [] => none
  | p :: rest =>
    let w := (rest.foldl (fun m q => if k.before q m then q else m) p).1
    if w = k.last || k.switched now then some w else none

/-- The platform whose bundle the core attempts in this cycle. -/
def Core.next (k : Core) (now : Nat) : Option Nat :=
  if now < k.nextIssue || now < k.acted || k.routine.isSome then none
  else match k.running with
    | some p => some p
    | none => k.select now

/-- The platform is RUNNING, and the focus of the machine. -/
def State.focusOn (s : State) (core plat : Nat) : State :=
  let k := s.core core
  if k.running = some plat then { s with focus := (core, plat) }
  else
    let ps := k.plats.map (fun p => (p.1, { p.2 with yielded := false }))
    let k1 := { k with running := some plat, plats := ps }
    let c := k1.ctx plat
    { s.setCore core (k1.setCtx plat { c with state := .running, why := none }) with focus := (core, plat) }

end Sys2Proof.Machine
end

