-- ==== Sys2Proof/Machine/AddrSlot.lean ====
section
/-! DEFINITION. The A slot: address arithmetic, loads and stores (R392, R406, R438, R458 to R463), the moves TLD, TST and SCOPY
(R426 to R431), WINSET (R196) and the atomics (R362 to R365). -/
namespace Sys2Proof.Machine

/-! ## Address arithmetic (R358, R359, R361) -/

/-- An address register's value from its address and its pitch field (R87). -/
def addrWord (addr : Int) (pitch : Nat) : Word := BitVec.ofNat 64 (wrap addr 48 + pitch * 2 ^ 48)

def slotAadd (ad ab : BitVec 5) (xa : BitVec 6) : SlotSem :=
  lands 1 (fun e => let b := e.c.rdA ab
    .a ad.toNat (addrWord (addrOf b + (e.c.rdX xa).toInt) (pitchOf b)))

def execAadd (g : Guard) (ad ab : BitVec 5) (xa : BitVec 6) (s : State) : Host.Outcome State Fault Refusal :=
  issueAlone (.aadd g ad ab xa) (slotAadd ad ab xa) s

def slotAaddi (ad ab : BitVec 5) (imm : BitVec 29) : SlotSem :=
  lands 1 (fun e => let b := e.c.rdA ab
    .a ad.toNat (addrWord (addrOf b + imm.toInt) (pitchOf b)))

def execAaddi (g : Guard) (ad ab : BitVec 5) (imm : BitVec 29) (s : State) : Host.Outcome State Fault Refusal :=
  issueAlone (.aaddi g ad ab imm) (slotAaddi ad ab imm) s

def slotAli (ad : BitVec 5) (imm : BitVec 45) : SlotSem :=
  lands 1 (fun _ => .a ad.toNat (BitVec.ofNat 64 (imm.toNat * 8)))

def execAli (g : Guard) (ad : BitVec 5) (imm : BitVec 45) (s : State) : Host.Outcome State Fault Refusal :=
  issueAlone (.ali g ad imm) (slotAli ad imm) s

/-! ## Loads and stores -/

/-- A slot blocks on a move conflict (R430), or on the outbound path where it would enter a full one (R386); one whose
checks up to FORM fail faults instead. A claim and poison are judged once the conflicting move is complete (R463). -/
def blockAccess (acc : Env → Access) (e : Env) (s : State) : Option (BlockWhy × State) :=
  let a := acc e
  let c := e.c
  if (checkAccess e.pre e.pre e.core c { a with claim := false, hwRd := false, hwWr := false }).isSome then none
  else if c.moveConflict e.core a.wr a.spans then some (.moveConflict, s)
  else if !a.own && 32 ≤ c.outLive.length then some (.outbound, s)
  else none

/-- What a load's bytes write, at its landing. -/
def Dest.write (d : Dest) (bytes : List Byte) : Option RegWrite :=
  match d with
  | .none => Option.none
  | .x n => some (.x n (BitVec.ofInt 64 (sext (ofBytes bytes) (8 * bytes.length))))
  | .v n => some (.v n (BitVec.ofNat 3072 (ofBytes bytes)))
  | .m n => some (.m n (BitVec.ofNat 6144 (ofBytes bytes)))

/-- A load of an access: from own S1 it lands at +4 with the bytes of its order point, else it enters the outbound path
with its own-S1 bytes read (R216, R458, R461). -/
def loadSem (acc : Env → Access) (size : Nat) (dest : Dest) : SlotSem :=
  { block := blockAccess acc
    run := fun e s =>
      let a := acc e
      match checkAccess e.pre s e.core e.c a with
      | some (code, v) => .fault code v
      | none =>
        let ps := a.pieces e.core e.c
        let data := readOwn e.pre e.core ps (List.replicate size 0#8)
        if a.own then
          match dest.write data with
          | some w => .done (e.land s 4 w)
          | none => .done s
        else
          let bad := if ownPoison e.pre e.core ps then some (a.addr, cHWERR) else none
          .done ((s.meetOwn e.core ps).sendOut e.core e.plat .r a data dest none bad) }

/-- A store of an access: its own-S1 bytes are written at the order point, the others enter the outbound path (R216,
R219). -/
def storeSem (acc : Env → Access) (data : Env → List Byte) : SlotSem :=
  { block := blockAccess acc
    run := fun e s =>
      let a := acc e
      match checkAccess e.pre s e.core e.c a with
      | some (code, v) => .fault code v
      | none =>
        let s1 := writeOwn s e.core a.spans (data e)
        if a.own then .done s1 else .done (s1.sendOut e.core e.plat .w a (data e) .none none none) }

/-- The access of an instruction; every instruction given to it makes one. -/
def accessOf (i : Instr) (e : Env) : Access := (e.c.access i).getD default

def slotVld (g : Guard) (vd : BitVec 11) (aa : BitVec 5) (off : BitVec 10) : SlotSem :=
  loadSem (accessOf (.vld g vd aa off)) 384 (.v vd.toNat)
def execVld (g : Guard) (vd : BitVec 11) (aa : BitVec 5) (off : BitVec 10) (s : State) :
    Host.Outcome State Fault Refusal := issueAlone (.vld g vd aa off) (slotVld g vd aa off) s

def slotVlds (g : Guard) (vd : BitVec 11) (aa : BitVec 5) (off : BitVec 10) : SlotSem :=
  loadSem (accessOf (.vlds g vd aa off)) 384 (.v vd.toNat)
def execVlds (g : Guard) (vd : BitVec 11) (aa : BitVec 5) (off : BitVec 10) (s : State) :
    Host.Outcome State Fault Refusal := issueAlone (.vlds g vd aa off) (slotVlds g vd aa off) s

def slotVst (g : Guard) (va : BitVec 11) (aa : BitVec 5) (off : BitVec 10) : SlotSem :=
  storeSem (accessOf (.vst g va aa off)) (fun e => toBytes 384 (e.c.rdV va).toNat)
def execVst (g : Guard) (va : BitVec 11) (aa : BitVec 5) (off : BitVec 10) (s : State) :
    Host.Outcome State Fault Refusal := issueAlone (.vst g va aa off) (slotVst g va aa off) s

def slotVsts (g : Guard) (va : BitVec 11) (aa : BitVec 5) (off : BitVec 10) : SlotSem :=
  storeSem (accessOf (.vsts g va aa off)) (fun e => toBytes 384 (e.c.rdV va).toNat)
def execVsts (g : Guard) (va : BitVec 11) (aa : BitVec 5) (off : BitVec 10) (s : State) :
    Host.Outcome State Fault Refusal := issueAlone (.vsts g va aa off) (slotVsts g va aa off) s

/-- VGATH: element i of the gathered bytes, zeros above (R458). -/
def slotVgath (g : Guard) (sz : Sz) (vd : BitVec 11) (aa : BitVec 5) (vi : BitVec 11) : SlotSem :=
  loadSem (accessOf (.vgath g sz vd aa vi)) 384 (.v vd.toNat)
def execVgath (g : Guard) (sz : Sz) (vd : BitVec 11) (aa : BitVec 5) (vi : BitVec 11) (s : State) :
    Host.Outcome State Fault Refusal := issueAlone (.vgath g sz vd aa vi) (slotVgath g sz vd aa vi) s

/-- VSCAT: elements stored in ascending order, so that the last of equal addresses stands (R458). -/
def slotVscat (g : Guard) (sz : Sz) (va : BitVec 11) (aa : BitVec 5) (vi : BitVec 11) : SlotSem :=
  storeSem (accessOf (.vscat g sz va aa vi)) (fun e => toBytes 384 (e.c.rdV va).toNat)
def execVscat (g : Guard) (sz : Sz) (va : BitVec 11) (aa : BitVec 5) (vi : BitVec 11) (s : State) :
    Host.Outcome State Fault Refusal := issueAlone (.vscat g sz va aa vi) (slotVscat g sz va aa vi) s

def slotLdx (g : Guard) (sz : Sz) (xd : BitVec 6) (aa : BitVec 5) (off : BitVec 10) : SlotSem :=
  loadSem (accessOf (.ldx g sz xd aa off)) sz.bytes (.x xd.toNat)
def execLdx (g : Guard) (sz : Sz) (xd : BitVec 6) (aa : BitVec 5) (off : BitVec 10) (s : State) :
    Host.Outcome State Fault Refusal := issueAlone (.ldx g sz xd aa off) (slotLdx g sz xd aa off) s

def slotStx (g : Guard) (sz : Sz) (xa : BitVec 6) (aa : BitVec 5) (off : BitVec 10) : SlotSem :=
  storeSem (accessOf (.stx g sz xa aa off)) (fun e => toBytes sz.bytes (e.c.rdX xa).toNat)
def execStx (g : Guard) (sz : Sz) (xa : BitVec 6) (aa : BitVec 5) (off : BitVec 10) (s : State) :
    Host.Outcome State Fault Refusal := issueAlone (.stx g sz xa aa off) (slotStx g sz xa aa off) s

def slotMld (g : Guard) (md : BitVec 8) (aa : BitVec 5) (off : BitVec 10) : SlotSem :=
  loadSem (accessOf (.mld g md aa off)) 768 (.m md.toNat)
def execMld (g : Guard) (md : BitVec 8) (aa : BitVec 5) (off : BitVec 10) (s : State) :
    Host.Outcome State Fault Refusal := issueAlone (.mld g md aa off) (slotMld g md aa off) s

def slotMst (g : Guard) (ma : BitVec 8) (aa : BitVec 5) (off : BitVec 10) : SlotSem :=
  storeSem (accessOf (.mst g ma aa off)) (fun e => toBytes 768 (e.c.rdM ma).toNat)
def execMst (g : Guard) (ma : BitVec 8) (aa : BitVec 5) (off : BitVec 10) (s : State) :
    Host.Outcome State Fault Refusal := issueAlone (.mst g ma aa off) (slotMst g ma aa off) s

/-! ## Atomics (R362 to R365) -/

/-- An atomic: in own S1 it performs at its issue and its result is on its way, else it enters the outbound path (R216,
R363). -/
def amoSem (i : Instr) (op : AmoOp) (dbl : Bool) (xd : BitVec 6) (xn : BitVec 6) : SlotSem :=
  { block := blockAccess (accessOf i)
    run := fun e s =>
      let a := accessOf i e
      let n := if dbl then 8 else 4
      let sv := e.c.rdX xn
      let cv := e.c.rdX xd
      match checkAccess e.pre s e.core e.c a with
      | some (code, v) => .fault code v
      | none =>
        if a.own then
          let (s1, res, bad) := amoHome e.pre s e.c.world false op (s1Place e.core a.addr) n sv cv
          .done (s1.sendOut e.core e.plat .a a (toBytes 8 res.toNat) (.x xd.toNat) (some (op, sv, cv))
            (bad.map (fun code => (a.addr, code))))
        else .done (s.sendOut e.core e.plat .a a (List.replicate 8 0#8) (.x xd.toNat) (some (op, sv, cv)) none) }

def slotAmoadd (g : Guard) (dbl : Bool) (xd : BitVec 6) (aa : BitVec 5) (xn : BitVec 6) : SlotSem :=
  amoSem (.amoadd g dbl xd aa xn) .add dbl xd xn
def execAmoadd (g : Guard) (dbl : Bool) (xd : BitVec 6) (aa : BitVec 5) (xn : BitVec 6) (s : State) :
    Host.Outcome State Fault Refusal := issueAlone (.amoadd g dbl xd aa xn) (slotAmoadd g dbl xd aa xn) s

def slotAmoand (g : Guard) (dbl : Bool) (xd : BitVec 6) (aa : BitVec 5) (xn : BitVec 6) : SlotSem :=
  amoSem (.amoand g dbl xd aa xn) .and dbl xd xn
def execAmoand (g : Guard) (dbl : Bool) (xd : BitVec 6) (aa : BitVec 5) (xn : BitVec 6) (s : State) :
    Host.Outcome State Fault Refusal := issueAlone (.amoand g dbl xd aa xn) (slotAmoand g dbl xd aa xn) s

def slotAmoor (g : Guard) (dbl : Bool) (xd : BitVec 6) (aa : BitVec 5) (xn : BitVec 6) : SlotSem :=
  amoSem (.amoor g dbl xd aa xn) .or dbl xd xn
def execAmoor (g : Guard) (dbl : Bool) (xd : BitVec 6) (aa : BitVec 5) (xn : BitVec 6) (s : State) :
    Host.Outcome State Fault Refusal := issueAlone (.amoor g dbl xd aa xn) (slotAmoor g dbl xd aa xn) s

def slotAmomin (g : Guard) (dbl : Bool) (xd : BitVec 6) (aa : BitVec 5) (xn : BitVec 6) : SlotSem :=
  amoSem (.amomin g dbl xd aa xn) .min dbl xd xn
def execAmomin (g : Guard) (dbl : Bool) (xd : BitVec 6) (aa : BitVec 5) (xn : BitVec 6) (s : State) :
    Host.Outcome State Fault Refusal := issueAlone (.amomin g dbl xd aa xn) (slotAmomin g dbl xd aa xn) s

def slotAmomax (g : Guard) (dbl : Bool) (xd : BitVec 6) (aa : BitVec 5) (xn : BitVec 6) : SlotSem :=
  amoSem (.amomax g dbl xd aa xn) .max dbl xd xn
def execAmomax (g : Guard) (dbl : Bool) (xd : BitVec 6) (aa : BitVec 5) (xn : BitVec 6) (s : State) :
    Host.Outcome State Fault Refusal := issueAlone (.amomax g dbl xd aa xn) (slotAmomax g dbl xd aa xn) s

def slotAmoswap (g : Guard) (dbl : Bool) (xd : BitVec 6) (aa : BitVec 5) (xn : BitVec 6) : SlotSem :=
  amoSem (.amoswap g dbl xd aa xn) .swap dbl xd xn
def execAmoswap (g : Guard) (dbl : Bool) (xd : BitVec 6) (aa : BitVec 5) (xn : BitVec 6) (s : State) :
    Host.Outcome State Fault Refusal := issueAlone (.amoswap g dbl xd aa xn) (slotAmoswap g dbl xd aa xn) s

def slotAmocas (g : Guard) (dbl : Bool) (xd : BitVec 6) (aa : BitVec 5) (xn : BitVec 6) : SlotSem :=
  amoSem (.amocas g dbl xd aa xn) .cas dbl xd xn
def execAmocas (g : Guard) (dbl : Bool) (xd : BitVec 6) (aa : BitVec 5) (xn : BitVec 6) (s : State) :
    Host.Outcome State Fault Refusal := issueAlone (.amocas g dbl xd aa xn) (slotAmocas g dbl xd aa xn) s

/-! ## Moves (R426 to R431, R463) -/

/-- The BFMT values of a context, by bank. -/
def Ctx.bankFmts (c : Ctx) : SMap Nat :=
  (List.range 64).filterMap (fun b => if c.bfmt b = 0 then none else some (b, c.bfmt b))

/-- The sides a move admits, by address range (R427). -/
def sideAdmits (k : MoveKind) (src : Bool) (core addr : Nat) : Bool :=
  match locate core addr with
  | .own _ => (match k, src with
    | .tld, true => false
    | .tst, false => false
    | _, _ => true)
  | .peer .. => k == .scopy || k == .vldr || k == .vstr
  | .s2 _ => (match k, src with
    | .tld, false => false
    | .tst, true => false
    | _, _ => true)
  | .s3 .. => (match k, src with
    | .tld, false => false
    | .tst, true => false
    | _, _ => true)
  | .virt _ => (match k, src with
    | .tld, false => false
    | .tst, true => false
    | .scopy, _ => false
    | _, _ => true)
  | .nowhere => false

/-- ALIGN of one row: the addresses that fail (R428, R140); TLD and TST move whole lines. -/
def Row.alignBad (r : Row) (k : MoveKind) : List Nat :=
  if k = .scopy then r.unaligned
  else (if r.len % 64 != 0 || r.src % 64 != 0 then [r.src] else []) ++ (if r.dst % 64 != 0 then [r.dst] else [])

/-- The checks of a move that reads its length register, in the order of R428: fault code and value. -/
def moveFault (s : State) (core : Nat) (c : Ctx) (m : Move) (lr : Word) : Option (Nat × Nat) :=
  let rows := (List.range m.rows).map (m.rowAt core)
  let side (src : Bool) (f : Nat → Bool) : Option Nat :=
    (rows.flatMap (fun r => (linePoints (if src then r.src else r.dst) (if src then r.len else r.dlen)).filter f)).min?
  let least (a b : Option Nat) : Option Nat := match a, b with
    | some x, some y => some (min x y)
    | some x, none => some x
    | none, y => y
  let both (f : Bool → Nat → Bool) : Option Nat := least (side true (f true)) (side false (f false))
  if lr.extractLsb' 48 16 != 0#16 || m.len = 0 || m.rows = 0 ||
      (m.kind == .scopy && overlaps (sideSpan m.src m.rows m.spitch m.len) (sideSpan m.dst m.rows m.dpitch m.dpLen)) then
    some (cSHAPE, lr.toNat)
  else
  match both (fun src p => !sideAdmits m.kind src core p || !inWindows s core c p) with
  | some v => some (cWINDOW, v)
  | none =>
  match (rows.flatMap (fun r => r.alignBad m.kind)).min? with
  | some v => some (cALIGN, v)
  | none =>
  match both (fun _ p => pageBad core c p) with
  | some v => some (cPAGE, v)
  | none =>
  match both (fun src p => protBad core c src (!src) false p) with
  | some v => some (cPROT, v)
  | none =>
  match (if m.kind = .tst then (rows.flatMap (fun r => (linePoints r.src m.len).filter (fun p =>
      hostAt core c (r.dst + (p - r.src)) && !cipherAt s core c p))).min? else none) with
  | some v => some (cFORM, v)
  | none =>
  match (if m.kind = .scopy then (rows.flatMap (fun r => r.misformed core)).min? else none) with
  | some v => some (cFMT, v)
  | none => none

/-- A move as its registers give it (R426); a packed destination steps by row 0's converted length. -/
def mkMove (c : Ctx) (core : Nat) (k : MoveKind) (ad ab lr : Word) : Move :=
  let len := (lr.extractLsb' 0 24).toNat
  let rows := (lr.extractLsb' 24 24).toNat
  let fmts := if k = .scopy then c.bankFmts else []
  let src := addrOf ab
  let dst := addrOf ad
  let d0 := (rowOf (latchedFmt fmts core) (latchedFmt fmts core) src dst len).dlen
  let sp := if pitchOf ab = 0 then len else 64 * pitchOf ab
  let dp := if pitchOf ad = 0 then d0 else 64 * pitchOf ad
  let m : Move := { id := c.nextId, kind := k, waitsR := [], waitsW := [], src := src, dst := dst, len := len, rows := rows,
                    spitch := sp, dpitch := dp, dpLen := d0, row := 0, at_ := 0, fetch := .empty, stores := [], reg := 0,
                    fmts := fmts, seed := c.seeds, window := [] }
  { m with dpLen := (List.range rows).foldl (fun n r => max n (m.rowAt core r).dlen) d0 }

/-- A move becomes outstanding, with a number for its reads (R221); behind one that writes a host frame comes a flush read
(R213). -/
def State.addMove (s : State) (core plat : Nat) (m : Move) : State :=
  let c := s.ctx core plat
  let host := m.kind.writes && (m.runs core false 0).any (fun r => (linePoints r.1 r.2).any (hostAt core c))
  s.setCtx core plat { c.number host with
    nextId := c.nextId + 3
    moves := c.moves ++ [{ m with id := c.nextId, waitsR := if m.kind.reads then c.fenceWaits .r else [],
                                  waitsW := if m.kind.writes then c.fenceWaits .w else [], window := c.window }]
    pending := if m.kind = .vldr then .v m.reg :: c.pending else c.pending }

/-- The ninth outstanding move of a platform blocks (R430). -/
def blockMove (bad : Env → Bool) (e : Env) (s : State) : Option (BlockWhy × State) :=
  if bad e then none else if 8 ≤ e.c.moves.length then some (.moves, s) else none

def moveSem (k : MoveKind) (ad ab : BitVec 5) (xa : BitVec 6) : SlotSem :=
  let mv (e : Env) : Move := mkMove e.c e.core k (e.c.rdA ad) (e.c.rdA ab) (e.c.rdX xa)
  let chk (e : Env) : Option (Nat × Nat) := moveFault e.pre e.core e.c (mv e) (e.c.rdX xa)
  { block := blockMove (fun e => (chk e).isSome)
    run := fun e s => match chk e with
      | some (code, v) => .fault code v
      | none => .done (s.addMove e.core e.plat (mv e)) }

def slotTld (ad ab : BitVec 5) (xa : BitVec 6) : SlotSem := moveSem .tld ad ab xa
def execTld (g : Guard) (ad ab : BitVec 5) (xa : BitVec 6) (s : State) : Host.Outcome State Fault Refusal :=
  issueAlone (.tld g ad ab xa) (slotTld ad ab xa) s

def slotTst (ad ab : BitVec 5) (xa : BitVec 6) : SlotSem := moveSem .tst ad ab xa
def execTst (g : Guard) (ad ab : BitVec 5) (xa : BitVec 6) (s : State) : Host.Outcome State Fault Refusal :=
  issueAlone (.tst g ad ab xa) (slotTst ad ab xa) s

def slotScopy (ad ab : BitVec 5) (xa : BitVec 6) : SlotSem := moveSem .scopy ad ab xa
def execScopy (g : Guard) (ad ab : BitVec 5) (xa : BitVec 6) (s : State) : Host.Outcome State Fault Refusal :=
  issueAlone (.scopy g ad ab xa) (slotScopy ad ab xa) s

/-- A requested vector access as a move of six lines (R463): its words read, or its words written. -/
def requested (k : MoveKind) (addr reg : Nat) (fetch : Fetch) (stores : List Store) : Move :=
  { id := 0, kind := k, waitsR := [], waitsW := [], src := addr, dst := addr, len := 64, rows := 6, spitch := 64, dpitch := 64,
    dpLen := 64, row := if k.reads then 0 else 6, at_ := 0, fetch := fetch, stores := stores, reg := reg, fmts := [], seed := 0,
    window := [] }

def requestSem (i : Instr) (mv : Env → Move) : SlotSem :=
  let chk (e : Env) : Option (Nat × Nat) := checkAccess e.pre e.pre e.core e.c (accessOf i e)
  { block := blockMove (fun e => (chk e).isSome)
    run := fun e s => match chk e with
      | some (code, v) => .fault code v
      | none => .done (s.addMove e.core e.plat (mv e)) }

def slotVldr (g : Guard) (vd : BitVec 11) (aa : BitVec 5) (off : BitVec 10) : SlotSem :=
  requestSem (.vldr g vd aa off) (fun e => requested .vldr (e.c.memAddr aa off) vd.toNat
    (Fetch.empty.begin e.core e.c (accessOf (.vldr g vd aa off) e).spans) [])
def execVldr (g : Guard) (vd : BitVec 11) (aa : BitVec 5) (off : BitVec 10) (s : State) :
    Host.Outcome State Fault Refusal := issueAlone (.vldr g vd aa off) (slotVldr g vd aa off) s

def slotVstr (g : Guard) (va : BitVec 11) (aa : BitVec 5) (off : BitVec 10) : SlotSem :=
  requestSem (.vstr g va aa off) (fun e =>
    let a := e.c.memAddr aa off
    requested .vstr a va.toNat .empty (cutStores 50 e.core e.c (a, 384) a (toBytes 384 (e.c.rdV va).toNat) false))
def execVstr (g : Guard) (va : BitVec 11) (aa : BitVec 5) (off : BitVec 10) (s : State) :
    Host.Outcome State Fault Refusal := issueAlone (.vstr g va aa off) (slotVstr g va aa off) s

/-! ## WINSET (R196) -/

/-- The descriptor that WINSET reads, or the value its SHAPE reports. -/
def winsetRead (aa : Word) (v : Vec) : Option (Nat × Replay) :=
  let w (i : Nat) : Nat := lane v.toNat i 32
  let st (i : Nat) : BitVec 32 := BitVec.ofNat 32 (w (4 + i))
  let d : Replay := { base := BitVec.ofNat 48 (addrOf aa), cn0 := w 1 % 65536, cn1 := w 1 / 65536, cn2 := w 2 / 65536,
                      cn3 := w 3 % 65536, ch := w 2 % 65536, st0 := st 0, st1 := st 1, st2 := st 2, st3 := st 3 }
  let zeros := w 0 / 4 = 0 && w 3 / 65536 = 0 && (List.range 8).all (fun i => w (8 + i) = 0)
  let counts := [d.cn0, d.cn1, d.cn2, d.cn3, d.ch].all (· != 0)
  let strides := (List.range 4).all (fun i => w (4 + i) % 64 = 0)
  if zeros && counts && strides then some (w 0 % 4, d) else none

def slotWinset (aa : BitVec 5) (va : BitVec 11) : SlotSem :=
  plain (fun e s => match winsetRead (e.c.rdA aa) (e.c.rdV va) with
    | some (n, d) => .done (e.land s 1 (.replay n d))
    | none => .fault cSHAPE ((e.c.rdV va).toNat % 2 ^ 32))

def execWinset (g : Guard) (aa : BitVec 5) (va : BitVec 11) (s : State) : Host.Outcome State Fault Refusal :=
  issueAlone (.winset g aa va) (slotWinset aa va) s

end Sys2Proof.Machine
end

