-- ==== Sys2Proof/Machine/Control.lean ====
section
/-! DEFINITION. The C slot: transfers, calls and the return stack, hardware loops, HALT, YIELD, PARK, TRAP, SVC, TRET, FENCE,
DRAIN, BARC and the control registers (R101, R374 to R446). Each instruction has its slot meaning and its meaning alone. -/
namespace Sys2Proof.Machine

/-! ## Transfers (R94, R375, R422) -/

/-- A control transfer: after two delay bundles the PC becomes the target (R94). -/
def Env.transfer (e : Env) (s : State) (target : Nat) (closes : Bool) : State :=
  e.upd s (fun c => { c with flow := { c.flow with xfer := some ⟨target, true, 3, closes⟩ } })

/-- t + sext(off24, 24), as a 64-bit index (R375). -/
def Env.relative (e : Env) (off : BitVec 24) : Nat := wrap (e.mpc + off.toInt) 64

def slotBr (off : BitVec 24) : SlotSem := plain (fun e s => .done (e.transfer s (e.relative off) true))

def execBr (g : Guard) (off : BitVec 24) (s : State) : Host.Outcome State Fault Refusal :=
  issueAlone (.br g off) (slotBr off) s

def slotBrx (xa : BitVec 6) : SlotSem := plain (fun e s => .done (e.transfer s (e.c.rdX xa).toNat true))

def execBrx (g : Guard) (xa : BitVec 6) (s : State) : Host.Outcome State Fault Refusal :=
  issueAlone (.brx g xa) (slotBrx xa) s

/-- BASE × 8 and LIMIT × 8 of SPAREA and SPLIM (R323). -/
def Ctx.spillBase (c : Ctx) : Nat := (c.creg 0x090 &&& 0x7FFFF8#64).toNat
def Ctx.spillLimit (c : Ctx) : Nat := (c.creg 0x091 &&& 0x7FFFF8#64).toNat

/-- The own-S1 access of a spill store or of its read (R324). The store meets HWERR on a word in error although it writes the whole
word, which R209 alone would let pass: R324 and R376 name it (log entry 94). -/
def spillAccess (addr : Nat) (wr : Bool) : Access :=
  { spans := [(addr, 8)], align := 8, aligned := [addr], rd := !wr, wr := wr, amo := false, mst := false, vec := false,
    claim := true, hwRd := true, hwWr := wr }

/-- The address of the entry that a CALL would spill to, where the on-core stack is full (R324). -/
def Ctx.pushSpill (c : Ctx) : Option Nat :=
  if 16 ≤ c.flow.rets.length then some (c.spillBase + 8 * c.spn) else none
/-- The address of the entry that a RET would read, where the on-core stack is empty. -/
def Ctx.popSpill (c : Ctx) : Option Nat :=
  if c.flow.rets.isEmpty && 0 < c.spn then some (c.spillBase + 8 * (c.spn - 1)) else none

/-- A spill access blocks while it conflicts with an outstanding move (R430). -/
def blockSpill (addr : Option Nat) (wr : Bool) (e : Env) (s : State) : Option (BlockWhy × State) :=
  match addr with
  | some a => if e.c.moveConflict e.core wr [(a, 8)] then some (.moveConflict, s) else none
  | none => none

/-- Push a return index, the oldest entry going to the spill area when 16 are held, and make the transfer (R324, R375). -/
def Env.call (e : Env) (s : State) (target : Nat) : SlotOut :=
  let c := e.c
  let push (st : State) (keep : List Nat) : State :=
    e.upd (e.transfer st target false) (fun d => { d with flow := { d.flow with rets := (e.mpc + 3) :: keep } })
  match c.pushSpill with
  | none => .done (push s c.flow.rets)
  | some a =>
    if c.spillLimit < c.spillBase + 8 * (c.spn + 1) then .fault cSPILL 1
    else
      match checkAccess e.pre s e.core c (spillAccess a true) with
      | some (code, v) => .fault code v
      | none =>
        let old := c.flow.rets.getLastD 0
        let s1 := s.store (s1Place e.core a) (toBytes 8 (old % 8192))
        .done (e.upd (push s1 c.flow.rets.dropLast) (fun d => d.setSpn (c.spn + 1)))

def slotCall (off : BitVec 24) : SlotSem :=
  { block := fun e s => blockSpill e.c.pushSpill true e s, run := fun e s => e.call s (e.relative off) }

def execCall (g : Guard) (off : BitVec 24) (s : State) : Host.Outcome State Fault Refusal :=
  issueAlone (.call g off) (slotCall off) s

def slotCallx (xa : BitVec 6) : SlotSem :=
  { block := fun e s => blockSpill e.c.pushSpill true e s, run := fun e s => e.call s (e.c.rdX xa).toNat }

def execCallx (g : Guard) (xa : BitVec 6) (s : State) : Host.Outcome State Fault Refusal :=
  issueAlone (.callx g xa) (slotCallx xa) s

/-- RET: the popped index becomes the target (R324, R422). -/
def Env.ret (e : Env) (s : State) : SlotOut :=
  let c := e.c
  match c.flow.rets with
  | r :: rest =>
    .done (e.upd (e.transfer s r false) (fun d => { d with flow := { d.flow with rets := rest } }))
  | [] =>
    match c.popSpill with
    | none => .fault cSPILL 2
    | some a =>
      match checkAccess e.pre s e.core c (spillAccess a false) with
      | some (code, v) => .fault code v
      | none =>
        .done (e.upd (e.transfer s (e.pre.word (s1Place e.core a) 8 % 8192) false) (fun d => d.setSpn (c.spn - 1)))

def slotRet : SlotSem :=
  { block := fun e s => blockSpill e.c.popSpill false e s, run := fun e s => e.ret s }

def execRet (g : Guard) (s : State) : Host.Outcome State Fault Refusal := issueAlone (.ret g) slotRet s

/-! ## Hardware loops (R95, R394) -/

/-- Open a loop of a count, or skip its body. -/
def Env.openLoop (e : Env) (s : State) (count : Nat) (off : BitVec 16) : State :=
  let last := (e.mpc + off.toInt).toNat
  e.upd s (fun c =>
    if count = 0 then { c with flow := { c.flow with after := some (.skipTo (last + 1)) } }
    else { c with flow := { c.flow with loops := ⟨e.mpc + 1, last, count - 1⟩ :: c.flow.loops } })

def slotLoop (xa : BitVec 6) (off : BitVec 16) : SlotSem := plain (fun e s => .done (e.openLoop s (e.c.rdX xa).toNat off))

def execLoop (g : Guard) (xa : BitVec 6) (off : BitVec 16) (s : State) : Host.Outcome State Fault Refusal :=
  issueAlone (.loop g xa off) (slotLoop xa off) s

def slotLoopi (count : BitVec 16) (off : BitVec 16) : SlotSem := plain (fun e s => .done (e.openLoop s count.toNat off))

def execLoopi (g : Guard) (count : BitVec 16) (off : BitVec 16) (s : State) : Host.Outcome State Fault Refusal :=
  issueAlone (.loopi g count off) (slotLoopi count off) s

/-! ## What acts once the bundle is complete (R391, R417, R446, R476) -/

def Env.afterwards (e : Env) (s : State) (a : After) : State :=
  e.upd s (fun c => { c with flow := { c.flow with after := some a } })

def slotHalt : SlotSem := plain (fun e s => .done (e.afterwards s .halt))
def execHalt (g : Guard) (s : State) : Host.Outcome State Fault Refusal := issueAlone (.halt g) slotHalt s

/-- YIELD gives the core up where another platform is READY at its issue (R476). -/
def slotYield : SlotSem :=
  plain (fun e s => .done (if e.pre.otherReady e.core e.plat then e.afterwards s .yield else s))
def execYield (g : Guard) (s : State) : Host.Outcome State Fault Refusal := issueAlone (.yield g) slotYield s

/-- PARK takes the oldest arrival at its issue, where one is queued, and goes on at its handler (R64, R417). -/
def slotPark : SlotSem :=
  plain (fun e s => match e.c.arrivals with
    | [] => .done (e.afterwards s .park)
    | h :: _ => .done (e.afterwards (e.upd s Ctx.dropArrival) (.skipTo h)))
def execPark (g : Guard) (s : State) : Host.Outcome State Fault Refusal := issueAlone (.park g) slotPark s

def slotTret : SlotSem := plain (fun e s => .done (e.afterwards s .tret))
def execTret (g : Guard) (s : State) : Host.Outcome State Fault Refusal := issueAlone (.tret g) slotTret s

/-! ## Calls to the handler and to the steward (R440, R441) -/

def slotTrap (imm : BitVec 16) : SlotSem := plain (fun _ _ => .fault cTRAP imm.toNat)
def execTrap (g : Guard) (imm : BitVec 16) (s : State) : Host.Outcome State Fault Refusal :=
  issueAlone (.trap g imm) (slotTrap imm) s

def slotSvc (imm : BitVec 16) : SlotSem := plain (fun _ _ => .fault cTRAP (0x10000 + imm.toNat))
def execSvc (g : Guard) (imm : BitVec 16) (s : State) : Host.Outcome State Fault Refusal :=
  issueAlone (.svc g imm) (slotSvc imm) s

/-! ## Order (R221, R223, R385, R386) -/

/-- FENCE: accesses of succ in this bundle or later wait until those of pred in earlier bundles have performed at the
scope. -/
def slotFence (pred succ : ClassSet) (scope : Scope) : SlotSem :=
  plain (fun e s =>
    let preds := e.pre.outstanding e.core e.plat pred scope
    .done (if preds.isEmpty then s else e.upd s (fun c => { c with fences := c.fences ++ [⟨succ, preds⟩] })))

def execFence (g : Guard) (pred succ : ClassSet) (scope : Scope) (s : State) : Host.Outcome State Fault Refusal :=
  issueAlone (.fence g pred succ scope) (slotFence pred succ scope) s

/-- DRAIN blocks until every earlier store and atomic has performed at the scope (R213, R223). -/
def slotDrain (scope : Scope) : SlotSem :=
  { block := fun e s =>
      let ids := e.pre.undrained e.core e.plat scope
      if ids.isEmpty then none else some (.drain ids, s)
    run := fun _ s => .done s }

def execDrain (g : Guard) (scope : Scope) (s : State) : Host.Outcome State Fault Refusal :=
  issueAlone (.drain g scope) (slotDrain scope) s

/-! ## Cluster barriers (R65, R66, R374) -/

/-- The conditions of R66 hold: earlier accesses have performed and earlier E commands have been accepted. -/
def State.settled (s : State) (core plat : Nat) : Bool :=
  (s.outstanding core plat ⟨true, true, true, true⟩ .cluster).isEmpty

/-- Count an arrival at a barrier, by the BARC of a bundle (R65). -/
def State.arrive (s : State) (core : Nat) (id : Word) (pc b : Nat) : State :=
  let cl := s.cluster (clusterOf core)
  s.setCluster (clusterOf core) { cl with barriers := SMap.put cl.barriers b ((SMap.get [] cl.barriers b) ++ [(id, pc)]) }

/-- BARC names a barrier of the context's BARMASK. -/
def Ctx.barOk (c : Ctx) (v : Word) : Bool := v.toNat < 32 && c.place.barmask.getLsbD v.toNat

def slotBarc (xa : BitVec 6) : SlotSem :=
  { block := fun e s =>
      let v := e.c.rdX xa
      let cl := s.cluster (clusterOf e.core)
      if !e.c.barOk v then none
      else if (SMap.get [] cl.passed v.toNat).contains (e.c.ctxid, e.mpc) then none
      else if (SMap.get [] cl.barriers v.toNat).any (·.1 = e.c.ctxid) || !s.settled e.core e.plat then
        some (.barrier v.toNat, s)
      else some (.barrier v.toNat, s.arrive e.core e.c.ctxid e.mpc v.toNat)
    run := fun e s =>
      let v := e.c.rdX xa
      if !e.c.barOk v then .fault cWINDOW v.toNat
      else
        let cl := s.cluster (clusterOf e.core)
        .done (s.setCluster (clusterOf e.core) { cl with
          passed := SMap.put cl.passed v.toNat ((SMap.get [] cl.passed v.toNat).filter (· != (e.c.ctxid, e.mpc))) }) }

def execBarc (g : Guard) (xa : BitVec 6) (s : State) : Host.Outcome State Fault Refusal :=
  issueAlone (.barc g xa) (slotBarc xa) s

/-! ## Control registers (R387 to R390, R435, R436) -/

/-- A variable-latency reply is asked for; x0 is marked by nothing (R86, R92). -/
def Ctx.await (c : Ctx) (xd : Nat) (r : Reply) (waits : List Nat) : Ctx :=
  { c with
    nextId := c.nextId + 1
    awaited := c.awaited ++ [⟨c.nextId, r, none, waits⟩]
    pending := if xd = 0 then c.pending else .x xd :: c.pending }

def slotGetc (xd : BitVec 6) (creg : BitVec 12) : SlotSem :=
  plain (fun e s =>
    if creg.toNat < 0x800 then .done (e.land s 1 (.x xd.toNat (readCreg e.pre e.core e.plat creg.toNat)))
    else .done (e.upd s (fun c => c.await xd.toNat (.hub xd.toNat) [])))

def execGetc (g : Guard) (xd : BitVec 6) (creg : BitVec 12) (s : State) : Host.Outcome State Fault Refusal :=
  issueAlone (.getc g xd creg) (slotGetc xd creg) s

/-- LR of AXCFG is below zero, infinite or a NaN; BATCH is out of range (R279). -/
def axcfgBad (v : Word) : Bool :=
  let lr := v.extractLsb' 32 32
  let batch := (v.extractLsb' 18 7).toNat
  (lr.getLsbD 31 && lr != 0x80000000#32) || (lr.extractLsb' 23 8).toNat = 255 || (1 ≤ batch && batch ≤ 7) || 65 ≤ batch

/-- The lowest line of an AXWIN range that is outside own S1 or in a bank outside BWIN (R279). -/
def axwinBad (c : Ctx) (v : Word) : Option Nat :=
  let base := (v.extractLsb' 0 17).toNat * 64
  let len := (v.extractLsb' 32 17).toNat * 64
  if len = 0 then none
  else
    let pts := base :: (List.range (len / 0x20000 + 1)).map (fun i => (base / 0x20000 + 1 + i) * 0x20000)
    ((pts.filter (fun p => p < base + len && (0x800000 ≤ p || !inBwin (c.creg 0x020) p)))).min?

/-- The check a register makes of a value before it takes it: fault code and value (R138, R256, R279, R323). -/
def cregRefused (c : Ctx) (n : Nat) (v : Word) : Option (Nat × Nat) :=
  if isBfmt n then
    if !(c.creg 0x020).getLsbD (n - 0x100) then some (cWINDOW, n - 0x100)
    else if v.extractLsb' 0 4 = 15#4 || v.extractLsb' 4 2 = 3#2 then some (cFMT, v.toNat)
    else none
  else if n = 0x040 then
    if v.extractLsb' 0 2 = 3#2 && 0x3F80 < (v.extractLsb' 16 15).toNat then some (cFMT, v.toNat) else none
  else if n = 0x080 then (if axcfgBad v then some (cFMT, v.toNat) else none)
  else if n = 0x081 then (axwinBad c v).map (fun a => (cWINDOW, a))
  else if n = 0x090 || n = 0x091 then (if 0 < c.spn then some (cSPILL, 3) else none)
  else none

/-- A write of a control register: its check at issue, its landing at +1 (R435, R436). -/
def writeCreg (n : Nat) (v : Env → Word) : SlotSem :=
  plain (fun e s => match cregRefused e.c n (v e) with
    | some (code, value) => .fault code value
    | none => .done (e.land s 1 (.creg n (v e))))

def slotSetc (creg : BitVec 12) (xa : BitVec 6) : SlotSem := writeCreg creg.toNat (fun e => e.c.rdX xa)

def execSetc (g : Guard) (creg : BitVec 12) (xa : BitVec 6) (s : State) : Host.Outcome State Fault Refusal :=
  issueAlone (.setc g creg xa) (slotSetc creg xa) s

def slotSetci (creg : BitVec 12) (imm : BitVec 16) : SlotSem := writeCreg creg.toNat (fun _ => imm.zeroExtend 64)

def execSetci (g : Guard) (creg : BitVec 12) (imm : BitVec 16) (s : State) : Host.Outcome State Fault Refusal :=
  issueAlone (.setci g creg imm) (slotSetci creg imm) s

/-! ## The register-write steps: a SETC of the focus context whose source holds the value (R138, R147, R256, R279, R323) -/

/-- The guard that is always true. -/
def always : Guard := ⟨0, false⟩

/-- A SETC of a register with a given value, alone. -/
def setcAlone (n : BitVec 12) (v : Word) (s : State) : Host.Outcome State Fault Refusal :=
  issueAlone (.setci always n 0) (writeCreg n.toNat (fun _ => v)) s

def execBfmtWrite (n : BitVec 6) (v : Word) (s : State) : Host.Outcome State Fault Refusal :=
  setcAlone (0x100#12 + n.zeroExtend 12) v s

def execMcfgWrite (v : Word) (s : State) : Host.Outcome State Fault Refusal := setcAlone 0x040 v s
def execRmodeWrite (v : Word) (s : State) : Host.Outcome State Fault Refusal := setcAlone 0x030 v s
def execAxcfgWrite (v : Word) (s : State) : Host.Outcome State Fault Refusal := setcAlone 0x080 v s
def execAxwinWrite (v : Word) (s : State) : Host.Outcome State Fault Refusal := setcAlone 0x081 v s
def execSpareaWrite (v : Word) (s : State) : Host.Outcome State Fault Refusal := setcAlone 0x090 v s
def execSplimWrite (v : Word) (s : State) : Host.Outcome State Fault Refusal := setcAlone 0x091 v s

/-! ## NOP (R411) -/

def execNop (s : State) : Host.Outcome State Fault Refusal := issueAlone .nop (plain (fun _ s => .done s)) s

end Sys2Proof.Machine
end

