-- ==== Sys2Proof/Machine/Transcend.lean ====
section
/-! DEFINITION. The functions of the lane units that are no polynomial of their operands: reciprocal and square-root
estimates, the normal distribution and its density, and the table of normal quantiles (R166, R168, R169). -/
namespace Sys2Proof.Machine

/-- The largest r with r² ≤ n, from r's bits n − 1 down to 0. -/
def isqrtBits (n : Nat) : Nat → Nat → Nat
  | 0, r => r
  | i + 1, r => isqrtBits n i (if (r + 2 ^ i) * (r + 2 ^ i) ≤ n then r + 2 ^ i else r)

/-- The integer square root, rounded down. -/
def isqrt (n : Nat) : Nat := isqrtBits n (Nat.log2 n / 2 + 1) 0

/-- m × 2^e rounded RNE to p significant bits with an unbounded exponent. -/
def roundBits (p : Nat) : FVal → FVal
  | .fin n m e =>
    if m = 0 then .fin n 0 0
    else
      let u := topExp m e - (p - 1 : Nat)
      .fin n (roundShift m (e - u) .rne) u
  | .nan => .nan
  | .inf n => .inf n

/-- A magnitude q × 2^u with an odd bit below it where the exact value is larger: it rounds as the exact value does. -/
def sticky (neg : Bool) (q : Nat) (u : Int) (more : Bool) : FVal := .fin neg (2 * q + more.toNat) (u - 1)

/-- The exact square root of a value that is not below zero, kept to at least 60 significant bits with what lies below
them as an odd bit. -/
def FVal.sqrt : FVal → FVal
  | .nan => .nan
  | .inf n => if n then .nan else .inf false
  | .fin n m e =>
    if m = 0 then .fin n 0 0
    else if n then .nan
    else
      let s := if e % 2 = 0 then 128 else 129
      let v := m <<< s
      let r := isqrt v
      sticky false r ((e - s) / 2) (r * r != v)

/-- 1/a kept to at least 40 significant bits with what lies below them as an odd bit. -/
def FVal.recip : FVal → FVal
  | .nan => .nan
  | .inf n => .fin n 0 0
  | .fin n m e =>
    if m = 0 then .inf n
    else
      let k := Nat.log2 m + 40
      sticky n (2 ^ k / m) (-e - k) (2 ^ k % m != 0)

/-- RCPE: 1/a rounded RNE to 12 significant bits with an unbounded exponent (R166); F32 follows. -/
def rcpe (a : FVal) : FVal := roundBits 12 a.recip

/-- RSQE: 1/√a rounded RNE to 12 significant bits (R166); −0 gives −∞ and a value below zero NaN. -/
def rsqe (a : FVal) : FVal :=
  match a with
  | .nan => .nan
  | .inf n => if n then .nan else .fin false 0 0
  | .fin n m e =>
    if m = 0 then .inf n
    else if n then .nan
    else
      let s : Nat := if e % 2 = 0 then 0 else 1
      let v := m <<< s
      let k := Nat.log2 v + 40
      let q := 2 ^ (2 * k) / v
      let r := isqrt q
      roundBits 12 (sticky false r (-((e - s) / 2) - k) (r * r * v != 2 ^ (2 * k)))

/-! ## The normal distribution -/

/-- Fraction bits of the fixed-point evaluation. -/
def fixBits : Nat := 512

/-- 1/√(2π) × 2^512, rounded down. -/
def invSqrt2Pi : Nat := 0x662114cf50d942343f2cf1402eae38bfd3829f30512706d8c0471b4802639d2e9df8ac55447d3db723f5d3abb374e88deb14277970be1513278e993445f08cff

/-- Σ (−r)^n / n! from a term on, in fixed point, alternating from `plus`. -/
def expSeries (r : Nat) : Nat → Nat → Nat → Bool → Int → Int
  | 0, _, _, _, acc => acc
  | fuel + 1, n, t, plus, acc =>
    let t' := (t * r) >>> fixBits / n
    expSeries r fuel (n + 1) t' (!plus) (if plus then acc + t' else acc - t')

def squareTimes : Nat → Nat → Nat
  | 0, v => v
  | k + 1, v => squareTimes k ((v * v) >>> fixBits)

/-- exp(−y) in fixed point, y below 2^7. -/
def expNeg (y : Nat) : Nat :=
  squareTimes 8 (expSeries (y >>> 8) 120 1 (1 <<< fixBits) false (1 <<< fixBits : Nat)).toNat

/-- Σ a^(2n+1) / (1·3·5···(2n+1)) in fixed point. -/
def phiSeries (a2 : Nat) : Nat → Nat → Nat → Nat → Nat
  | 0, _, _, acc => acc
  | fuel + 1, k, t, acc =>
    let t' := (t * a2) >>> fixBits / k
    if t' = 0 then acc else phiSeries a2 fuel (k + 2) t' (acc + t')

/-- A finite magnitude below 16 in fixed point. -/
def toFix (m : Nat) (e : Int) : Nat :=
  let s := e + fixBits
  if 0 ≤ s then m <<< s.toNat else m >>> (-s).toNat

/-- φ(a) × 2^512. -/
def densityFix (x : Nat) : Nat := (expNeg (((x * x) >>> fixBits) / 2) * invSqrt2Pi) >>> fixBits

/-- The magnitude is 16 or more. -/
def far (m : Nat) (e : Int) : Bool := m != 0 && 4 ≤ topExp m e

/-- Φ(a), exact to about 490 fraction bits with an odd bit below them (R166, NCDF). -/
def ncdf : FVal → FVal
  | .nan => .nan
  | .inf n => if n then .zero else .one
  | .fin n m e =>
    if m = 0 then .fin false 1 (-1)
    else if far m e then (if n then sticky false 0 (-512) true else sticky false (2 ^ 512 - 1) (-512) true)
    else
      let x := toFix m e
      let v := (densityFix x * phiSeries ((x * x) >>> fixBits) 1200 3 x x) >>> fixBits
      let half := 1 <<< (fixBits - 1)
      sticky false (if n then half - v else half + v) (-512) true

/-- φ(a) = exp(−a²/2)/√(2π), likewise (R166, NPDF). -/
def npdf : FVal → FVal
  | .nan => .nan
  | .inf _ => .zero
  | .fin _ m e => if far m e then sticky false 0 (-512) true else sticky false (densityFix (toFix m e)) (-512) true

/-! ## The table T of R169: T[j] is the F32 nearest the quantile (j + 1)/257 of the normal distribution -/

def nsclRow0 : List Nat :=
  [0xC02A540E, 0xC01AD087, 0xC0112251, 0xC009F286, 0xC0042B20, 0xBFFE9A1B, 0xBFF62642, 0xBFEEA6B3,
   0xBFE7E471, 0xBFE1B96F, 0xBFDC0A38, 0xBFD6C24F, 0xBFD1D1FB, 0xBFCD2CEA, 0xBFC8C93E, 0xBFC49EF5]

def nsclRow1 : List Nat :=
  [0xBFC0A774, 0xBFBCDD3A, 0xBFB93BA0, 0xBFB5BEB2, 0xBFB26309, 0xBFAF25B5, 0xBFAC0425, 0xBFA8FC1A,
   0xBFA60B97, 0xBFA330DA, 0xBFA06A51, 0xBF9DB696, 0xBF9B1464, 0xBF988299, 0xBF96002C, 0xBF938C2D]

def nsclRow2 : List Nat :=
  [0xBF9125C2, 0xBF8ECC21, 0xBF8C7E95, 0xBF8A3C73, 0xBF880521, 0xBF85D80F, 0xBF83B4B8, 0xBF819AA1,
   0xBF7F12AE, 0xBF7B00DE, 0xBF76FF0C, 0xBF730C7E, 0xBF6F2884, 0xBF6B527C, 0xBF6789CC, 0xBF63CDE4]

def nsclRow3 : List Nat :=
  [0xBF601E3B, 0xBF5C7A52, 0xBF58E1B0, 0xBF5553E1, 0xBF51D07B, 0xBF4E5715, 0xBF4AE74F, 0xBF4780CD,
   0xBF442336, 0xBF40CE36, 0xBF3D817E, 0xBF3A3CC3, 0xBF36FFBA, 0xBF33CA20, 0xBF309BB1, 0xBF2D742F]

def nsclRow4 : List Nat :=
  [0xBF2A535C, 0xBF2738FF, 0xBF2424E0, 0xBF2116C8, 0xBF1E0E84, 0xBF1B0BE4, 0xBF180EB6, 0xBF1516CE,
   0xBF1223FE, 0xBF0F361D, 0xBF0C4D01, 0xBF096882, 0xBF06887A, 0xBF03ACC3, 0xBF00D53A, 0xBEFC0378]

def nsclRow5 : List Nat :=
  [0xBEF6644E, 0xBEF0CCB4, 0xBEEB3C6B, 0xBEE5B336, 0xBEE030D8, 0xBEDAB518, 0xBED53FBC, 0xBECFD08D,
   0xBECA6756, 0xBEC503E3, 0xBEBFA600, 0xBEBA4D7B, 0xBEB4FA25, 0xBEAFABCD, 0xBEAA6245, 0xBEA51D60]

def nsclRow6 : List Nat :=
  [0xBE9FDCF1, 0xBE9AA0CD, 0xBE9568C9, 0xBE9034BC, 0xBE8B047B, 0xBE85D7E0, 0xBE80AEC3, 0xBE7711F7,
   0xBE6CCCCA, 0xBE628DB2, 0xBE585466, 0xBE4E209B, 0xBE43F20C, 0xBE39C86F, 0xBE2FA37F, 0xBE2582F8]

def nsclRow7 : List Nat :=
  [0xBE1B6693, 0xBE114E0E, 0xBE073925, 0xBDFA4F2D, 0xBDE63240, 0xBDD21AFF, 0xBDBE08EB, 0xBDA9FB82,
   0xBD95F244, 0xBD81ECB2, 0xBD5BD49A, 0xBD33D52F, 0xBD0BDA27, 0xBCC7C511, 0xBC6FB563, 0xBB9FCCF6]

def nsclRow8 : List Nat :=
  [0x3B9FCCF6, 0x3C6FB563, 0x3CC7C511, 0x3D0BDA27, 0x3D33D52F, 0x3D5BD49A, 0x3D81ECB2, 0x3D95F244,
   0x3DA9FB82, 0x3DBE08EB, 0x3DD21AFF, 0x3DE63240, 0x3DFA4F2D, 0x3E073925, 0x3E114E0E, 0x3E1B6693]

def nsclRow9 : List Nat :=
  [0x3E2582F8, 0x3E2FA37F, 0x3E39C86F, 0x3E43F20C, 0x3E4E209B, 0x3E585466, 0x3E628DB2, 0x3E6CCCCA,
   0x3E7711F7, 0x3E80AEC3, 0x3E85D7E0, 0x3E8B047B, 0x3E9034BC, 0x3E9568C9, 0x3E9AA0CD, 0x3E9FDCF1]

def nsclRow10 : List Nat :=
  [0x3EA51D60, 0x3EAA6245, 0x3EAFABCD, 0x3EB4FA25, 0x3EBA4D7B, 0x3EBFA600, 0x3EC503E3, 0x3ECA6756,
   0x3ECFD08D, 0x3ED53FBC, 0x3EDAB518, 0x3EE030D8, 0x3EE5B336, 0x3EEB3C6B, 0x3EF0CCB4, 0x3EF6644E]

def nsclRow11 : List Nat :=
  [0x3EFC0378, 0x3F00D53A, 0x3F03ACC3, 0x3F06887A, 0x3F096882, 0x3F0C4D01, 0x3F0F361D, 0x3F1223FE,
   0x3F1516CE, 0x3F180EB6, 0x3F1B0BE4, 0x3F1E0E84, 0x3F2116C8, 0x3F2424E0, 0x3F2738FF, 0x3F2A535C]

def nsclRow12 : List Nat :=
  [0x3F2D742F, 0x3F309BB1, 0x3F33CA20, 0x3F36FFBA, 0x3F3A3CC3, 0x3F3D817E, 0x3F40CE36, 0x3F442336,
   0x3F4780CD, 0x3F4AE74F, 0x3F4E5715, 0x3F51D07B, 0x3F5553E1, 0x3F58E1B0, 0x3F5C7A52, 0x3F601E3B]

def nsclRow13 : List Nat :=
  [0x3F63CDE4, 0x3F6789CC, 0x3F6B527C, 0x3F6F2884, 0x3F730C7E, 0x3F76FF0C, 0x3F7B00DE, 0x3F7F12AE,
   0x3F819AA1, 0x3F83B4B8, 0x3F85D80F, 0x3F880521, 0x3F8A3C73, 0x3F8C7E95, 0x3F8ECC21, 0x3F9125C2]

def nsclRow14 : List Nat :=
  [0x3F938C2D, 0x3F96002C, 0x3F988299, 0x3F9B1464, 0x3F9DB696, 0x3FA06A51, 0x3FA330DA, 0x3FA60B97,
   0x3FA8FC1A, 0x3FAC0425, 0x3FAF25B5, 0x3FB26309, 0x3FB5BEB2, 0x3FB93BA0, 0x3FBCDD3A, 0x3FC0A774]

def nsclRow15 : List Nat :=
  [0x3FC49EF5, 0x3FC8C93E, 0x3FCD2CEA, 0x3FD1D1FB, 0x3FD6C24F, 0x3FDC0A38, 0x3FE1B96F, 0x3FE7E471,
   0x3FEEA6B3, 0x3FF62642, 0x3FFE9A1B, 0x40042B20, 0x4009F286, 0x40112251, 0x401AD087, 0x402A540E]

def nsclTable : List Nat :=
  nsclRow0 ++ nsclRow1 ++ nsclRow2 ++ nsclRow3 ++ nsclRow4 ++ nsclRow5 ++ nsclRow6 ++ nsclRow7 ++ nsclRow8 ++ nsclRow9 ++
  nsclRow10 ++ nsclRow11 ++ nsclRow12 ++ nsclRow13 ++ nsclRow14 ++ nsclRow15

/-- z of R169, from a 16-bit word. -/
def nsclZ (w : Nat) : FVal :=
  let j := w / 256
  let tj := f32Val (nsclTable.getD j 0)
  let tn := f32Val (nsclTable.getD (Nat.min (j + 1) 255) 0)
  rneF32 (tj.add ((FVal.fin false (w % 256) (-8)).mul (tn.sub tj)))

/-- NSCL: √a × z before its one rounding (R166). -/
def nscl (a z : FVal) : FVal :=
  match a, z with
  | .fin false _ _, .fin nz mz ez =>
    if mz = 0 then (FVal.sqrt a).mul z
    else match (a.mul ((FVal.fin false mz ez).mul (.fin false mz ez))).sqrt with
      | .fin _ m e => .fin nz m e
      | v => v
  | _, _ => (FVal.sqrt a).mul z

end Sys2Proof.Machine
end

