-- ==== Sys2Proof/Machine/Flags.lean ====
section
/-! DEFINITION. Flags of results: FPFLAGS of the V slots' floating-point and conversion instructions (R147, R449, R456) and
MFLAGS of the fixed-latency moment instructions (R257). -/
namespace Sys2Proof.Machine

/-- A float result encoded once, with NV for a NaN that comes from operands that are none (R147, R449). -/
def roundElem (f : Elem) (mode : RMode) (sat nanIn : Bool) (t : FVal) : Nat × FFlags :=
  let r := encodeFloat f mode sat t
  (r.1, { r.2 with nv := r.2.nv || (t.isNan && !nanIn) })

/-- An exact result as its format holds it: integers wrap or saturate and set no flag (R449). -/
def resultElem (f : Elem) (mode : RMode) (sat nanIn : Bool) (t : FVal) : Nat × FFlags :=
  if f.isInt then (encodeIntInt f sat (roundInt .rtz t), {}) else roundElem f mode sat nanIn t

/-- VCVT of one element (R456). -/
def convertElem (fs ft : Elem) (mode : RMode) (sat : Bool) (bits : Nat) : Nat × FFlags :=
  let x := fs.val bits
  if ft.isInt then (if fs.isInt then (encodeIntInt ft sat (roundInt .rtz x), {}) else encodeInt ft mode sat x)
  else encodeFloat ft mode sat x

/-- Every flag of a list of results. -/
def allFlags (l : List FFlags) : FFlags := l.foldl FFlags.or {}

/-- MFLAGS bits MOF 4, MNAN 2, NVC 1 (R257). -/
structure MFlags where
  mof : Bool := false
  mnan : Bool := false
  nvc : Bool := false
  deriving DecidableEq, Repr, Inhabited

def MFlags.or (a b : MFlags) : MFlags := { mof := a.mof || b.mof, mnan := a.mnan || b.mnan, nvc := a.nvc || b.nvc }

def MFlags.bits (f : MFlags) : Nat := f.mof.toNat * 4 + f.mnan.toNat * 2 + f.nvc.toNat

/-- MOF and MNAN of one lane: its inputs and its two results (R257). -/
def momentFlags (ins outs : List FVal) : MFlags :=
  { mof := ins.all (fun x => !x.isNan && !x.isInf) && outs.any FVal.isInf
    mnan := ins.all (fun x => !x.isNan) && outs.any FVal.isNan }

end Sys2Proof.Machine
end

