-- ==== Sys2Proof/Machine/Vector.lean ====
section
/-! DEFINITION. The vector instructions of the V slots that run no routine (R448 to R456, R460, R464 to R468). -/
namespace Sys2Proof.Machine

/-! ## Elements (R448) -/

/-- The element format of a V instruction's fmt. -/
def fmtOf : Fmt → Elem
  | .f32 => .f32 | .bf16 => .bf16 | .f16 => .f16 | .i32 => .i32 | .i16 => .i16 | .i8 => .i8 | .f8a => .f8a | .f8b => .f8b

/-- The number of elements of a register. -/
def elemCount (f : Elem) : Nat := 3072 / f.width

/-- The elements of a register, element 0 first. -/
def elemsOf (f : Elem) (v : Vec) : List Nat := lanes (elemCount f) f.width v.toNat

/-- The register made of elements. -/
def vecOf (w : Nat) (l : List Nat) : Vec := BitVec.ofNat 3072 (packLanes w l)

/-! ## Rounding at issue (R145, R449) -/

/-- The slot's part of the byte number of R145. -/
def byteBase : SlotId → Nat
  | .v1 => 48
  | .c | .x | .a | .v0 | .t | .e => 0

/-- Byte k of the word the bundle popped. -/
def Env.wordByte (e : Env) (k : Nat) : Byte :=
  match e.word with
  | some w => BitVec.ofNat 8 (lane w.toNat (k % 384) 8)
  | none => 0#8

/-- The rounding of element i under rm (R145, R449). -/
def Env.rounding (e : Env) (rm : Rm) (i : Nat) : RMode :=
  let sr : RMode := .sr (e.wordByte (i + byteBase e.slot))
  match rm with
  | .rne => .rne
  | .rtz => .rtz
  | .sr => sr
  | .dyn =>
    let m := ((e.c.creg 0x030).extractLsb' 0 2).toNat
    if m = 1 then .rtz else if m = 2 then sr else .rne

/-- A vector result lands with its flags (R449). -/
def Env.landV (e : Env) (s : State) (l : Nat) (vd : BitVec 11) (v : Vec) (f : FFlags) : State :=
  let s1 := e.land s l (.v vd.toNat v)
  if f.bits = 0 then s1 else e.land s1 l (.fpflags f.bits)

/-- The result of an element-wise instruction: bits and flags of each element, by number. -/
def landElems (l w : Nat) (vd : BitVec 11) (f : Env → List (Nat × FFlags)) : SlotSem :=
  plain (fun e s => let r := f e
    .done (e.landV s l vd (vecOf w (r.map (·.1))) (allFlags (r.map (·.2)))))

/-! ## Element arithmetic (R449, R452) -/

/-- The exact results of VADD, VSUB, VMUL, VFMA and VFMS (R452). -/
def exactAdd (a b _ : FVal) : FVal := a.add b
def exactSub (a b _ : FVal) : FVal := a.sub b
def exactMul (a b _ : FVal) : FVal := a.mul b
def exactFma (a b c : FVal) : FVal := (a.mul b).add c
def exactFms (a b c : FVal) : FVal := (a.mul b).sub c

/-- Element arithmetic on three lists of elements; `mode i` is the rounding of element i. -/
def arithElems (f : Elem) (mode : Nat → RMode) (sat : Bool) (op : FVal → FVal → FVal → FVal) (a b c : List Nat) :
    List (Nat × FFlags) :=
  ((a.zip b).zip c).zipIdx.map (fun p =>
    let x := f.val p.1.1.1
    let y := f.val p.1.1.2
    let z := f.val p.1.2
    resultElem f (mode p.2) sat (x.isNan || y.isNan || z.isNan) (op x y z))

def arithSem (l : Nat) (f : Fmt) (rm : Rm) (sat : Bool) (op : FVal → FVal → FVal → FVal) (vd : BitVec 11)
    (a b c : Env → Vec) : SlotSem :=
  let el := fmtOf f
  landElems l el.width vd (fun e =>
    arithElems el (e.rounding rm) sat op (elemsOf el (a e)) (elemsOf el (b e)) (elemsOf el (c e)))

def slotVadd (f : Fmt) (rm : Rm) (sat : Bool) (vd va vb : BitVec 11) : SlotSem :=
  arithSem 2 f rm sat exactAdd vd (fun e => e.c.rdV va) (fun e => e.c.rdV vb) (fun _ => 0)
def execVadd (g : Guard) (f : Fmt) (rm : Rm) (sat : Bool) (vd va vb : BitVec 11) (s : State) :
    Host.Outcome State Fault Refusal := issueAlone (.vadd g f rm sat vd va vb) (slotVadd f rm sat vd va vb) s

def slotVsub (f : Fmt) (rm : Rm) (sat : Bool) (vd va vb : BitVec 11) : SlotSem :=
  arithSem 2 f rm sat exactSub vd (fun e => e.c.rdV va) (fun e => e.c.rdV vb) (fun _ => 0)
def execVsub (g : Guard) (f : Fmt) (rm : Rm) (sat : Bool) (vd va vb : BitVec 11) (s : State) :
    Host.Outcome State Fault Refusal := issueAlone (.vsub g f rm sat vd va vb) (slotVsub f rm sat vd va vb) s

def slotVmul (f : Fmt) (rm : Rm) (sat : Bool) (vd va vb : BitVec 11) : SlotSem :=
  arithSem 2 f rm sat exactMul vd (fun e => e.c.rdV va) (fun e => e.c.rdV vb) (fun _ => 0)
def execVmul (g : Guard) (f : Fmt) (rm : Rm) (sat : Bool) (vd va vb : BitVec 11) (s : State) :
    Host.Outcome State Fault Refusal := issueAlone (.vmul g f rm sat vd va vb) (slotVmul f rm sat vd va vb) s

def slotVfma (f : Fmt) (rm : Rm) (sat : Bool) (vd va vb vc : BitVec 11) : SlotSem :=
  arithSem 4 f rm sat exactFma vd (fun e => e.c.rdV va) (fun e => e.c.rdV vb) (fun e => e.c.rdV vc)
def execVfma (g : Guard) (f : Fmt) (rm : Rm) (sat : Bool) (vd va vb vc : BitVec 11) (s : State) :
    Host.Outcome State Fault Refusal := issueAlone (.vfma g f rm sat vd va vb vc) (slotVfma f rm sat vd va vb vc) s

def slotVfms (f : Fmt) (rm : Rm) (sat : Bool) (vd va vb vc : BitVec 11) : SlotSem :=
  arithSem 4 f rm sat exactFms vd (fun e => e.c.rdV va) (fun e => e.c.rdV vb) (fun e => e.c.rdV vc)
def execVfms (g : Guard) (f : Fmt) (rm : Rm) (sat : Bool) (vd va vb vc : BitVec 11) (s : State) :
    Host.Outcome State Fault Refusal := issueAlone (.vfms g f rm sat vd va vb vc) (slotVfms f rm sat vd va vb vc) s

/-! ## Extremes and compares (R455, R464) -/

/-- A value that the format holds, as its bits; a NaN as the canonical one. -/
def exactBits (f : Elem) (x : FVal) : Nat :=
  if f.isInt then encodeIntInt f false (roundInt .rtz x) else (encodeFloat f .rne false x).1

def maxElem (f : Elem) (a b : Nat) : Nat := exactBits f ((f.val a).max (f.val b))
def minElem (f : Elem) (a b : Nat) : Nat := exactBits f ((f.val a).min (f.val b))

/-- A mask element: all ones or all zeros (R455). -/
def maskElem (f : Elem) (b : Bool) : Nat := if b then 2 ^ f.width - 1 else 0

/-- An element-wise instruction of two operands that sets no flag. -/
def binarySem (l : Nat) (f : Fmt) (op : Elem → Nat → Nat → Nat) (vd va vb : BitVec 11) : SlotSem :=
  let el := fmtOf f
  lands l (fun e => .v vd.toNat (vecOf el.width ((elemsOf el (e.c.rdV va)).zipWith (op el) (elemsOf el (e.c.rdV vb)))))

def slotVmin (f : Fmt) (vd va vb : BitVec 11) : SlotSem := binarySem 2 f minElem vd va vb
def execVmin (g : Guard) (f : Fmt) (vd va vb : BitVec 11) (s : State) : Host.Outcome State Fault Refusal :=
  issueAlone (.vmin g f vd va vb) (slotVmin f vd va vb) s

def slotVmax (f : Fmt) (vd va vb : BitVec 11) : SlotSem := binarySem 2 f maxElem vd va vb
def execVmax (g : Guard) (f : Fmt) (vd va vb : BitVec 11) (s : State) : Host.Outcome State Fault Refusal :=
  issueAlone (.vmax g f vd va vb) (slotVmax f vd va vb) s

def slotVcmpeq (f : Fmt) (vd va vb : BitVec 11) : SlotSem :=
  binarySem 2 f (fun el a b => maskElem el ((el.val a).eq (el.val b))) vd va vb
def execVcmpeq (g : Guard) (f : Fmt) (vd va vb : BitVec 11) (s : State) : Host.Outcome State Fault Refusal :=
  issueAlone (.vcmpeq g f vd va vb) (slotVcmpeq f vd va vb) s

def slotVcmplt (f : Fmt) (vd va vb : BitVec 11) : SlotSem :=
  binarySem 2 f (fun el a b => maskElem el ((el.val a).lt (el.val b))) vd va vb
def execVcmplt (g : Guard) (f : Fmt) (vd va vb : BitVec 11) (s : State) : Host.Outcome State Fault Refusal :=
  issueAlone (.vcmplt g f vd va vb) (slotVcmplt f vd va vb) s

def slotVcmple (f : Fmt) (vd va vb : BitVec 11) : SlotSem :=
  binarySem 2 f (fun el a b => maskElem el ((el.val a).le (el.val b))) vd va vb
def execVcmple (g : Guard) (f : Fmt) (vd va vb : BitVec 11) (s : State) : Host.Outcome State Fault Refusal :=
  issueAlone (.vcmple g f vd va vb) (slotVcmple f vd va vb) s

/-! ## Permutations and shifts (R465, R468) -/

def slotVperm (f : Fmt) (vd va vb : BitVec 11) : SlotSem :=
  let el := fmtOf f
  lands 4 (fun e =>
    let a := elemsOf el (e.c.rdV va)
    .v vd.toNat (vecOf el.width ((elemsOf el (e.c.rdV vb)).map (fun k => a.getD (k % elemCount el) 0))))
def execVperm (g : Guard) (f : Fmt) (vd va vb : BitVec 11) (s : State) : Host.Outcome State Fault Refusal :=
  issueAlone (.vperm g f vd va vb) (slotVperm f vd va vb) s

def slotVrot (f : Fmt) (vd va : BitVec 11) (imm : BitVec 16) : SlotSem :=
  let el := fmtOf f
  lands 2 (fun e =>
    let a := elemsOf el (e.c.rdV va)
    let k := imm.toNat % elemCount el
    .v vd.toNat (vecOf el.width (a.drop k ++ a.take k)))
def execVrot (g : Guard) (f : Fmt) (vd va : BitVec 11) (imm : BitVec 16) (s : State) :
    Host.Outcome State Fault Refusal := issueAlone (.vrot g f vd va imm) (slotVrot f vd va imm) s

/-- The shifts of R468 on one element. -/
def shlElem (f : Elem) (a b : Nat) : Nat := (a <<< (b % f.width)) % 2 ^ f.width
def shrElem (f : Elem) (a b : Nat) : Nat := a >>> (b % f.width)
def sraElem (f : Elem) (a b : Nat) : Nat := wrap (sext a f.width / 2 ^ (b % f.width)) f.width

def slotVshl (f : Fmt) (vd va vb : BitVec 11) : SlotSem := binarySem 2 f shlElem vd va vb
def execVshl (g : Guard) (f : Fmt) (vd va vb : BitVec 11) (s : State) : Host.Outcome State Fault Refusal :=
  issueAlone (.vshl g f vd va vb) (slotVshl f vd va vb) s

def slotVshr (f : Fmt) (vd va vb : BitVec 11) : SlotSem := binarySem 2 f shrElem vd va vb
def execVshr (g : Guard) (f : Fmt) (vd va vb : BitVec 11) (s : State) : Host.Outcome State Fault Refusal :=
  issueAlone (.vshr g f vd va vb) (slotVshr f vd va vb) s

def slotVsra (f : Fmt) (vd va vb : BitVec 11) : SlotSem := binarySem 2 f sraElem vd va vb
def execVsra (g : Guard) (f : Fmt) (vd va vb : BitVec 11) (s : State) : Host.Outcome State Fault Refusal :=
  issueAlone (.vsra g f vd va vb) (slotVsra f vd va vb) s

/-! ## Bitwise operations (R453, R467) -/

def slotVand (vd va vb : BitVec 11) : SlotSem := lands 2 (fun e => .v vd.toNat (e.c.rdV va &&& e.c.rdV vb))
def execVand (g : Guard) (vd va vb : BitVec 11) (s : State) : Host.Outcome State Fault Refusal :=
  issueAlone (.vand g vd va vb) (slotVand vd va vb) s

def slotVor (vd va vb : BitVec 11) : SlotSem := lands 2 (fun e => .v vd.toNat (e.c.rdV va ||| e.c.rdV vb))
def execVor (g : Guard) (vd va vb : BitVec 11) (s : State) : Host.Outcome State Fault Refusal :=
  issueAlone (.vor g vd va vb) (slotVor vd va vb) s

def slotVxor (vd va vb : BitVec 11) : SlotSem := lands 2 (fun e => .v vd.toNat (e.c.rdV va ^^^ e.c.rdV vb))
def execVxor (g : Guard) (vd va vb : BitVec 11) (s : State) : Host.Outcome State Fault Refusal :=
  issueAlone (.vxor g vd va vb) (slotVxor vd va vb) s

def slotVnot (vd va : BitVec 11) : SlotSem := lands 2 (fun e => .v vd.toNat (~~~(e.c.rdV va)))
def execVnot (g : Guard) (vd va : BitVec 11) (s : State) : Host.Outcome State Fault Refusal :=
  issueAlone (.vnot g vd va) (slotVnot vd va) s

def slotVmov (vd va : BitVec 11) : SlotSem := lands 2 (fun e => .v vd.toNat (e.c.rdV va))
def execVmov (g : Guard) (vd va : BitVec 11) (s : State) : Host.Outcome State Fault Refusal :=
  issueAlone (.vmov g vd va) (slotVmov vd va) s

def slotVsel (vd va vb vc : BitVec 11) : SlotSem :=
  lands 2 (fun e => let m := e.c.rdV vc
    .v vd.toNat ((e.c.rdV va &&& m) ||| (e.c.rdV vb &&& ~~~m)))
def execVsel (g : Guard) (vd va vb vc : BitVec 11) (s : State) : Host.Outcome State Fault Refusal :=
  issueAlone (.vsel g vd va vb vc) (slotVsel vd va vb vc) s

/-! ## Absolute value and negation (R451) -/

/-- The sign bit of a float format cleared or inverted, a NaN canonical; integers encoded under R449. -/
def absElem (f : Elem) (sat : Bool) (a : Nat) : Nat :=
  if f.isInt then encodeIntInt f sat (if sext a f.width < 0 then -(sext a f.width) else sext a f.width)
  else if (f.val a).isNan then f.nanCode else a % 2 ^ (f.width - 1)
def negElem (f : Elem) (sat : Bool) (a : Nat) : Nat :=
  if f.isInt then encodeIntInt f sat (-(sext a f.width))
  else if (f.val a).isNan then f.nanCode else a ^^^ 2 ^ (f.width - 1)

def slotVabs (f : Fmt) (sat : Bool) (vd va : BitVec 11) : SlotSem :=
  let el := fmtOf f
  lands 2 (fun e => .v vd.toNat (vecOf el.width ((elemsOf el (e.c.rdV va)).map (absElem el sat))))
def execVabs (g : Guard) (f : Fmt) (sat : Bool) (vd va : BitVec 11) (s : State) : Host.Outcome State Fault Refusal :=
  issueAlone (.vabs g f sat vd va) (slotVabs f sat vd va) s

def slotVneg (f : Fmt) (sat : Bool) (vd va : BitVec 11) : SlotSem :=
  let el := fmtOf f
  lands 2 (fun e => .v vd.toNat (vecOf el.width ((elemsOf el (e.c.rdV va)).map (negElem el sat))))
def execVneg (g : Guard) (f : Fmt) (sat : Bool) (vd va : BitVec 11) (s : State) : Host.Outcome State Fault Refusal :=
  issueAlone (.vneg g f sat vd va) (slotVneg f sat vd va) s

/-! ## Conversion (R456) -/

/-- The converted elements, zeros above the narrower count. -/
def convertElems (fs ft : Elem) (mode : Nat → RMode) (sat : Bool) (a : List Nat) : List (Nat × FFlags) :=
  let n := min (elemCount fs) (elemCount ft)
  (a.take n).zipIdx.map (fun p => convertElem fs ft (mode p.2) sat p.1) ++ List.replicate (elemCount ft - n) (0, FFlags.none)

def slotVcvt (fs ft : Fmt) (rm : Rm) (sat : Bool) (vd va : BitVec 11) : SlotSem :=
  landElems 3 (fmtOf ft).width vd (fun e =>
    convertElems (fmtOf fs) (fmtOf ft) (e.rounding rm) sat (elemsOf (fmtOf fs) (e.c.rdV va)))
def execVcvt (g : Guard) (fs ft : Fmt) (rm : Rm) (sat : Bool) (vd va : BitVec 11) (s : State) :
    Host.Outcome State Fault Refusal := issueAlone (.vcvt g fs ft rm sat vd va) (slotVcvt fs ft rm sat vd va) s

/-! ## Moves between x and v registers (R454), element indices (R460) -/

/-- The lowest element of a 32-bit lane. -/
def laneElem (f : Elem) (n : Nat) : Nat := n * 32 / f.width

def slotVbcst (f : Fmt) (vd : BitVec 11) (xa : BitVec 6) : SlotSem :=
  let el := fmtOf f
  lands 3 (fun e => .v vd.toNat (vecOf el.width (List.replicate (elemCount el) (e.c.rdX xa).toNat)))
def execVbcst (g : Guard) (f : Fmt) (vd : BitVec 11) (xa : BitVec 6) (s : State) : Host.Outcome State Fault Refusal :=
  issueAlone (.vbcst g f vd xa) (slotVbcst f vd xa) s

def slotVinsx (f : Fmt) (vd va : BitVec 11) (xa : BitVec 6) (ln : BitVec 7) : SlotSem :=
  let el := fmtOf f
  lands 3 (fun e =>
    .v vd.toNat (vecOf el.width (setAt (elemsOf el (e.c.rdV va)) (laneElem el ln.toNat) (e.c.rdX xa).toNat)))
def execVinsx (g : Guard) (f : Fmt) (vd va : BitVec 11) (xa : BitVec 6) (ln : BitVec 7) (s : State) :
    Host.Outcome State Fault Refusal := issueAlone (.vinsx g f vd va xa ln) (slotVinsx f vd va xa ln) s

/-- The extracted element, sign-extended for an integer fmt. -/
def extractedWord (f : Elem) (v : Vec) (ln : Nat) : Word :=
  let x := lane v.toNat (laneElem f ln) f.width
  if f.isInt then BitVec.ofInt 64 (sext x f.width) else BitVec.ofNat 64 x

def slotVextx (f : Fmt) (xd : BitVec 6) (va : BitVec 11) (ln : BitVec 7) : SlotSem :=
  lands 3 (fun e => .x xd.toNat (extractedWord (fmtOf f) (e.c.rdV va) ln.toNat))
def execVextx (g : Guard) (f : Fmt) (xd : BitVec 6) (va : BitVec 11) (ln : BitVec 7) (s : State) :
    Host.Outcome State Fault Refusal := issueAlone (.vextx g f xd va ln) (slotVextx f xd va ln) s

def slotViota (f : Fmt) (vd : BitVec 11) (imm : BitVec 16) : SlotSem :=
  let el := fmtOf f
  landElems 2 el.width vd (fun _ =>
    (List.range (elemCount el)).map (fun (i : Nat) => resultElem el .rne false false (.ofInt (imm.toInt + (i : Int)))))
def execViota (g : Guard) (f : Fmt) (vd : BitVec 11) (imm : BitVec 16) (s : State) : Host.Outcome State Fault Refusal :=
  issueAlone (.viota g f vd imm) (slotViota f vd imm) s

/-! ## Reductions and scans (R466) -/

/-- The first element as a reduction starts from it: a NaN is the canonical one. -/
def startElem (f : Elem) (a : Nat) : Nat := if f.isInt then a else if (f.val a).isNan then f.nanCode else a

/-- One step of a sum: its bits and flags. -/
def sumStep (f : Elem) (mode : RMode) (s a : Nat) : Nat × FFlags :=
  let x := f.val s
  let y := f.val a
  resultElem f mode false (x.isNan || y.isNan) (x.add y)

/-- The inclusive prefix sums from element j on, each with its flags. -/
def scanFrom (f : Elem) (mode : Nat → RMode) (j s : Nat) (l : List Nat) : List (Nat × FFlags) :=
  match l with
  | [] => []
  | a :: t =>
    let r := sumStep f (mode j) s a
    r :: scanFrom f mode (j + 1) r.1 t

/-- All prefix sums of a register's elements. -/
def scanElems (f : Elem) (mode : Nat → RMode) (l : List Nat) : List (Nat × FFlags) :=
  match l with
  | [] => []
  | a :: t => (startElem f a, {}) :: scanFrom f mode 1 (startElem f a) t

/-- Every element holds the last of a list of steps, with the flags of all. -/
def spreadLast (f : Elem) (l : List (Nat × FFlags)) : List (Nat × FFlags) :=
  List.replicate (elemCount f) ((l.getLastD (0, {})).1, allFlags (l.map (·.2)))

def slotVradd (f : Fmt) (rm : Rm) (vd va : BitVec 11) : SlotSem :=
  let el := fmtOf f
  landElems 6 el.width vd (fun e => spreadLast el (scanElems el (e.rounding rm) (elemsOf el (e.c.rdV va))))
def execVradd (g : Guard) (f : Fmt) (rm : Rm) (vd va : BitVec 11) (s : State) : Host.Outcome State Fault Refusal :=
  issueAlone (.vradd g f rm vd va) (slotVradd f rm vd va) s

def slotVscan (f : Fmt) (rm : Rm) (vd va : BitVec 11) : SlotSem :=
  let el := fmtOf f
  landElems 6 el.width vd (fun e => scanElems el (e.rounding rm) (elemsOf el (e.c.rdV va)))
def execVscan (g : Guard) (f : Fmt) (rm : Rm) (vd va : BitVec 11) (s : State) : Host.Outcome State Fault Refusal :=
  issueAlone (.vscan g f rm vd va) (slotVscan f rm vd va) s

/-- A reduction by R464's extremes. -/
def reduceSem (f : Fmt) (op : Elem → Nat → Nat → Nat) (vd va : BitVec 11) : SlotSem :=
  let el := fmtOf f
  lands 6 (fun e =>
    let r := match elemsOf el (e.c.rdV va) with
      | [] => 0
      | a :: t => t.foldl (op el) (startElem el a)
    .v vd.toNat (vecOf el.width (List.replicate (elemCount el) r)))

def slotVrmax (f : Fmt) (vd va : BitVec 11) : SlotSem := reduceSem f maxElem vd va
def execVrmax (g : Guard) (f : Fmt) (rm : Rm) (vd va : BitVec 11) (s : State) : Host.Outcome State Fault Refusal :=
  issueAlone (.vrmax g f rm vd va) (slotVrmax f vd va) s

def slotVrmin (f : Fmt) (vd va : BitVec 11) : SlotSem := reduceSem f minElem vd va
def execVrmin (g : Guard) (f : Fmt) (rm : Rm) (vd va : BitVec 11) (s : State) : Host.Outcome State Fault Refusal :=
  issueAlone (.vrmin g f rm vd va) (slotVrmin f vd va) s

end Sys2Proof.Machine
end

