-- ==== Sys2Proof/Machine/Moment.lean ====
section
/-! DEFINITION. The fixed-latency moment instructions MADD, MSUB, MMUL, MAFF, MSQR, MFORM, MMOV and MCOLL.MV and .MSD: the
lanes of R262 and R263, the input and output rules of R258 to R260, and the flags of R257. -/
namespace Sys2Proof.Machine

/-! ## Lanes (R254) -/

/-- The bits of mean and variance of each lane. -/
def momLanes (m : Mom) : List (Nat × Nat) :=
  (lanes 96 64 m.toNat).map (fun x => (x % 2 ^ 32, x / 2 ^ 32))

def momOf (l : List (Nat × Nat)) : Mom := BitVec.ofNat 6144 (packLanes 64 (l.map (fun p => p.1 + p.2 * 2 ^ 32)))

/-- One lane's mean and variance. -/
structure Pair where
  mean : FVal
  var : FVal
  deriving DecidableEq, Repr, Inhabited

def pairOf (p : Nat × Nat) : Pair := ⟨f32Val p.1, f32Val p.2⟩

/-! ## The correlation (R255) -/

def mcfgCov (m : Word) : Nat := (m.extractLsb' 0 2).toNat
def mcfgNvf (m : Word) : Bool := m.getLsbD 2

/-- ρ of MCFG. -/
def rho (m : Word) : FVal :=
  let k := mcfgCov m
  if k = 0 then .zero else if k = 1 then .one else if k = 2 then .neg .one
  else Elem.bf16.val (m.extractLsb' 16 16).toNat

/-! ## The lanes of R262 -/

def FVal.two : FVal := .fin false 1 1

/-- sd(v) of R262: the rounded root, +0 for −0. -/
def sd (v : FVal) : FVal := if v.isZero then .zero else rneF32 v.sqrt

/-- MADD, and MSUB with the second mean negated. -/
def addLane (m : Word) (a b : Pair) : Pair :=
  let cross := rneF32 ((sd a.var).mul (sd b.var))
  { mean := rneF32 (a.mean.add b.mean)
    var := if mcfgCov m = 0 then rneF32 (a.var.add b.var)
           else rneF32 ((rneF32 (a.var.add b.var)).add (rneF32 (((FVal.two).mul (rho m)).mul cross))) }

def subLane (m : Word) (a b : Pair) : Pair := addLane m a { b with mean := b.mean.neg }

def mulLane (m : Word) (a b : Pair) : Pair :=
  let r := rho m
  let ind := mcfgCov m = 0
  let cross := rneF32 ((sd a.var).mul (sd b.var))
  let t1 := rneF32 ((a.mean.mul a.mean).mul b.var)
  let t2 := rneF32 ((b.mean.mul b.mean).mul a.var)
  let t3 := rneF32 (((FVal.one.add (r.mul r)).mul a.var).mul b.var)
  let t4 := if ind then FVal.zero else rneF32 ((((FVal.two.mul r).mul a.mean).mul b.mean).mul cross)
  { mean := if ind then rneF32 (a.mean.mul b.mean) else rneF32 ((a.mean.mul b.mean).add (r.mul cross))
    var := rneF32 ((rneF32 ((rneF32 (t1.add t2)).add t3)).add t4) }

/-- MAFF with the scale and the offset of the lane. -/
def affLane (x : Pair) (a b : FVal) : Pair :=
  { mean := rneF32 ((a.mul x.mean).add b), var := rneF32 ((a.mul a).mul x.var) }

def sqrLane (x : Pair) : Pair :=
  { mean := rneF32 ((x.mean.mul x.mean).add x.var)
    var := rneF32 ((((FVal.fin false 1 2).mul (x.mean.mul x.mean)).mul x.var).add (FVal.two.mul (x.var.mul x.var))) }

/-! ## The rules on negative variances (R258 to R260) -/

/-- The lowest lane at which a test holds. -/
def lowestLane {α : Type} (bad : α → Bool) (l : List α) : Option Nat :=
  (l.zipIdx.find? (fun p => bad p.1)).map (·.2)

/-- A lane as it is written: a negative variance clamped, −0 written +0; and whether it was clamped. -/
def clampLane (p : Pair) : (Nat × Nat) × Bool :=
  if p.var.isNeg then ((rneF32Bits p.mean, 0), true)
  else if p.var.isZero then ((rneF32Bits p.mean, 0), false)
  else ((rneF32Bits p.mean, rneF32Bits p.var), false)

/-- The mean and the variance that a lane writes: those on which R398 judges MOF and MNAN. -/
def Pair.written (p : Pair) : List FVal := [p.mean, if p.var.isNeg then .zero else p.var]

/-- What a moment instruction ends in: NEGVAR with its kind and lane (R260), or its lanes and its flags. -/
inductive MomentResult where
  | negvar (value : Nat)
  | lanes (l : List (Nat × Nat)) (f : MFlags)

/-- The two rules and the flags around the lanes of an instruction: the variances it reads, its inputs lane by lane, its
computed lanes, and whether the output rule applies to it (R257 to R260). -/
def finishMoment (nvf outRule : Bool) (reads : List (List FVal)) (ins : List (List FVal)) (outs : List Pair) :
    MomentResult :=
  match lowestLane (fun vs => vs.any FVal.isNeg) reads with
  | some i => .negvar (0x100 + i)
  | none =>
    match (if outRule && nvf then lowestLane (fun (p : Pair) => p.var.isNeg) outs else none) with
    | some i => .negvar (0x200 + i)
    | none =>
      let ws := outs.map clampLane
      let fl := (ins.zip outs).foldl (fun f p => f.or (momentFlags p.1 p.2.written)) ({} : MFlags)
      .lanes (ws.map (·.1)) { fl with nvc := fl.nvc || ws.any (·.2) }

/-- A moment result lands with its flags, or raises NEGVAR (R260). -/
def Env.landMoment (e : Env) (s : State) (l : Nat) (md : BitVec 8) (r : MomentResult) : SlotOut :=
  match r with
  | .negvar v => .fault cNEGVAR v
  | .lanes ls f =>
    let s1 := e.land s l (.m md.toNat (momOf ls))
    .done (if f.bits = 0 then s1 else e.land s1 l (.mflags f.bits))

/-- A moment instruction of two moment operands under MCFG. -/
def momentSem (l : Nat) (f : Word → Pair → Pair → Pair) (md ma mb : BitVec 8) : SlotSem :=
  plain (fun e s =>
    let m := e.c.creg 0x040
    let ab := ((momLanes (e.c.rdM ma)).map pairOf).zip ((momLanes (e.c.rdM mb)).map pairOf)
    e.landMoment s l md (finishMoment (mcfgNvf m) true (ab.map (fun p => [p.1.var, p.2.var]))
      (ab.map (fun p => [p.1.mean, p.1.var, p.2.mean, p.2.var])) (ab.map (fun p => f m p.1 p.2))))

def slotMadd (md ma mb : BitVec 8) : SlotSem := momentSem 4 addLane md ma mb
def execMadd (g : Guard) (md ma mb : BitVec 8) (s : State) : Host.Outcome State Fault Refusal :=
  issueAlone (.madd g md ma mb) (slotMadd md ma mb) s

def slotMsub (md ma mb : BitVec 8) : SlotSem := momentSem 4 subLane md ma mb
def execMsub (g : Guard) (md ma mb : BitVec 8) (s : State) : Host.Outcome State Fault Refusal :=
  issueAlone (.msub g md ma mb) (slotMsub md ma mb) s

def slotMmul (md ma mb : BitVec 8) : SlotSem := momentSem 6 mulLane md ma mb
def execMmul (g : Guard) (md ma mb : BitVec 8) (s : State) : Host.Outcome State Fault Refusal :=
  issueAlone (.mmul g md ma mb) (slotMmul md ma mb) s

/-- MAFF: a scale and an offset from the F32 lanes of vb and vc. -/
def slotMaff (md ma : BitVec 8) (vb vc : BitVec 11) : SlotSem :=
  plain (fun e s =>
    let x := (momLanes (e.c.rdM ma)).map pairOf
    let a := (elemsOf .f32 (e.c.rdV vb)).map f32Val
    let b := (elemsOf .f32 (e.c.rdV vc)).map f32Val
    let all := (x.zip a).zip b
    e.landMoment s 4 md (finishMoment false false (x.map (fun p => [p.var]))
      (all.map (fun p => [p.1.1.mean, p.1.1.var, p.1.2, p.2])) (all.map (fun p => affLane p.1.1 p.1.2 p.2))))

def execMaff (g : Guard) (md ma : BitVec 8) (vb vc : BitVec 11) (s : State) : Host.Outcome State Fault Refusal :=
  issueAlone (.maff g md ma vb vc) (slotMaff md ma vb vc) s

def slotMsqr (md ma : BitVec 8) : SlotSem :=
  plain (fun e s =>
    let x := (momLanes (e.c.rdM ma)).map pairOf
    e.landMoment s 6 md (finishMoment false false (x.map (fun p => [p.var])) (x.map (fun p => [p.mean, p.var]))
      (x.map sqrLane)))

def execMsqr (g : Guard) (md ma : BitVec 8) (s : State) : Host.Outcome State Fault Refusal :=
  issueAlone (.msqr g md ma) (slotMsqr md ma) s

/-- MFORM: the input rule on vb, the bits raw but for a variance of −0 (R258, R262). -/
def slotMform (md : BitVec 8) (va vb : BitVec 11) : SlotSem :=
  plain (fun e s =>
    let mu := elemsOf .f32 (e.c.rdV va)
    let v := elemsOf .f32 (e.c.rdV vb)
    match lowestLane (fun b => (f32Val b).isNeg) v with
    | some i => .fault cNEGVAR (0x100 + i)
    | none => .done (e.land s 2 (.m md.toNat (momOf (mu.zip (v.map (fun b => if b = 0x80000000 then 0 else b)))))))

def execMform (g : Guard) (md : BitVec 8) (va vb : BitVec 11) (s : State) : Host.Outcome State Fault Refusal :=
  issueAlone (.mform g md va vb) (slotMform md va vb) s

/-- MMOV: the 768 bytes raw (R407). -/
def slotMmov (md ma : BitVec 8) : SlotSem := lands 2 (fun e => .m md.toNat (e.c.rdM ma))

def execMmov (g : Guard) (md ma : BitVec 8) (s : State) : Host.Outcome State Fault Refusal :=
  issueAlone (.mmov g md ma) (slotMmov md ma) s

/-- MCOLL.MV and MCOLL.MSD: the means raw, and the variances raw or their roots (R258, R263). -/
def collapse (root : Bool) (vd : BitVec 11) (ma : BitVec 8) : SlotSem :=
  plain (fun e s =>
    let x := momLanes (e.c.rdM ma)
    match lowestLane (fun p => (f32Val p.2).isNeg) x with
    | some i => .fault cNEGVAR (0x100 + i)
    | none =>
      let second := x.map (fun p => if root then rneF32Bits (sd (f32Val p.2)) else p.2)
      let s1 := e.land s 3 (.v vd.toNat (vecOf 32 (x.map (·.1))))
      .done (e.land s1 3 (.v (vd.toNat + 1) (vecOf 32 second))))

end Sys2Proof.Machine
end

