-- ==== Sys2Proof/Machine/Lanes.lean ====
section
/-! DEFINITION. The lane operations of a stitch on lists of elements (R165 to R170). -/
namespace Sys2Proof.Machine

/-- The element format of a lane format; PAIR holds F32 (R165). -/
def laneElemFmt : LaneFmt → Elem
  | .f32 => .f32 | .bf16 => .bf16 | .f16 => .f16 | .i32 => .i32 | .i16 => .i16 | .i8 => .i8 | .f8a => .f8a | .pair => .f32

/-- Bytes of an operand of a lane format, and its elements (R165). -/
def laneBytes (f : LaneFmt) : Nat := if f = .pair then 768 else 384
def laneCount (f : LaneFmt) : Nat := laneBytes f * 8 / (laneElemFmt f).width

/-- What a lane operation sees besides its operands: the word of the macro's bundle and the macro's byte base (R169), the
word its stitch pops (R167), CVT's rounding code, h14 and h15, n0 and the element flags. -/
structure LaneAux where
  word : Option Vec
  base : Nat
  popped : Option Vec
  mode : Nat
  h14 : Vec
  h15 : Vec
  n0 : Nat
  flags : BitVec 384

/-- What a lane operation gives: the elements written, the FPFLAGS of a FIX operation, and a compare's flags. -/
structure LaneOut where
  elems : Option (List Nat)
  fp : FFlags
  flags : Option (BitVec 384)

def LaneOut.of (l : List Nat) : LaneOut := ⟨some l, {}, none⟩

/-! ## Single elements -/

/-- A float or integer result of the lane format (R165). -/
def laneRound (f : Elem) (sat : Bool) (t : FVal) : Nat := (resultElem f .rne sat true t).1

/-- CLMPS: min(max(a, −|b|), |b|). -/
def clampElem (a b : FVal) : FVal := (a.max b.abs.neg).min b.abs

/-- RNDI: rounded to an integral value, ties to even. -/
def rndi : FVal → FVal
  | .fin n m e => .fin n (roundShift m e .rne) 0
  | .nan => .nan
  | .inf n => .inf n

/-- trunc(b), kept within ±1000, beyond which no scaled F32 differs (R166, SCALB). -/
def truncSmall (m : Nat) (e : Int) (neg : Bool) : Int :=
  if m = 0 then 0
  else
    let k := if 10 < topExp m e then 1000 else min 1000 (roundShift m e .rtz)
    if neg then -(k : Int) else k

/-- SCALB (R166). -/
def scalb (a b : FVal) : FVal :=
  match a, b with
  | .nan, _ => .nan
  | _, .nan => .nan
  | .inf n, _ => .inf n
  | .fin n m _, .inf neg => if m = 0 then .fin n 0 0 else if neg then .fin n 0 0 else .inf n
  | .fin n m e, .fin nb mb eb => .fin n m (e + truncSmall mb eb nb)

/-- The e and m of MANTC for a finite value that is not zero (R166): m is m' / 2^k. -/
def mantExp (m : Nat) (e : Int) : FVal × Int :=
  let k := Nat.log2 m
  let t := topExp m e
  if 2 * 4 ^ k < m * m then (.fin false m (-(k : Int) - 1), t + 1) else (.fin false m (-(k : Int)), t)

def mantc : FVal → FVal
  | .fin _ m e => if m = 0 then .nan else (mantExp m e).1
  | .nan => .nan
  | .inf _ => .nan

def expc (a b : FVal) : FVal :=
  match a with
  | .fin _ m e => if m = 0 then .nan else (FVal.ofInt (mantExp m e).2).mul b
  | .nan => .nan
  | .inf _ => .nan

/-- c − a × b, where a product of ∞ and 0 counts as 0 (R166, RECS and RSQS). -/
def stepFrom (c : Int) (a b : FVal) : FVal :=
  let p := a.mul b
  if p.isNan && !a.isNan && !b.isNan then .ofInt c else (FVal.ofInt c).sub p

/-- The special values of R168: the value and its flags, or none where the operation passes a. -/
def fixSpecial (op : Nat) (b : FVal) : Option (FVal × FFlags) :=
  let dz : FFlags := { dz := true }
  let nv : FFlags := { nv := true }
  match b with
  | .nan => some (.nan, {})
  | .inf n =>
    if op = 0x22 then some (.fin n 0 0, {})
    else if n then some (.nan, nv)
    else if op = 0x23 then some (.zero, {})
    else some (.inf false, {})
  | .fin n m e =>
    if m = 0 then some (if op = 0x24 then .inf true else .inf n, dz)
    else if op = 0x22 then (if topExp m e < -128 then some (.inf n, { of := true }) else none)
    else if n then some (.nan, nv)
    else none

/-- One element of NETU with the weights of unit k (R170). -/
def netuElem (h15 : Vec) (k d a : Nat) : Nat :=
  let w (i : Nat) : FVal := f32Val (lane h15.toNat i 32)
  let t := rneF32 (((f32Val a).mul (w (3 * k + 1))).add (w (3 * k + 2)))
  rneF32Bits ((f32Val d).add ((w (3 * k + 3)).mul (t.max .zero)))

/-- One element of an operation that combines the destination, a and b element by element (R166); none for the others. -/
def laneElemOp (op : Nat) (f : Elem) (sat flag : Bool) (d a b : Nat) : Nat :=
  let x := f.val d
  let y := f.val a
  let z := f.val b
  match op with
  | 0x01 => a
  | 0x02 => laneRound f sat (y.add z)
  | 0x03 => laneRound f sat (y.sub z)
  | 0x04 => laneRound f sat (y.mul z)
  | 0x05 => laneRound f false ((y.mul z).add x)
  | 0x06 => laneRound f false (x.sub (y.mul z))
  | 0x07 => laneRound f false ((x.mul y).add z)
  | 0x08 => minElem f a b
  | 0x09 => maxElem f a b
  | 0x0A => absElem f sat a
  | 0x0B => negElem f sat a
  | 0x0C => laneRound f false (clampElem y z)
  | 0x0D => a &&& b
  | 0x0E => a ||| b
  | 0x0F => a ^^^ b
  | 0x10 => shlElem f a b
  | 0x11 => shrElem f a b
  | 0x12 => sraElem f a b
  | 0x16 => if flag then a else b
  | 0x17 => if z.isZero then a else d
  | 0x18 => laneRound f false (rndi y)
  | 0x1A => laneRound f false (scalb y z)
  | 0x1B => laneRound f false (mantc y)
  | 0x1C => laneRound f false (expc y z)
  | 0x1D => laneRound f false (rcpe y)
  | 0x1E => laneRound f false (rsqe y)
  | 0x1F => laneRound f false (stepFrom 2 y z)
  | 0x20 => laneRound f false ((stepFrom 3 y z).scale (-1))
  | 0x21 => laneRound f false (FVal.one.sub (y.mul z))
  | 0x25 => laneRound f false (ncdf y)
  | 0x26 => laneRound f false (npdf y)
  | _ => 0

/-- Whether an operation works element by element. -/
def laneIsElem (op : Nat) : Bool :=
  (0x01 ≤ op && op ≤ 0x12) || op = 0x16 || op = 0x17 || op = 0x18 || (0x1A ≤ op && op ≤ 0x21) || op = 0x25 || op = 0x26

/-- Whether a compare holds (R166). -/
def laneCompare (op : Nat) (a b : FVal) : Bool :=
  if op = 0x13 then a.lt b else if op = 0x14 then a.le b else a.eq b

/-- The rounding of CVT's target element i (R167). -/
def LaneAux.rounding (x : LaneAux) (i : Nat) : RMode :=
  modeOf' x.mode (match x.popped with | some w => BitVec.ofNat 8 (lane w.toNat (i % 384) 8) | none => 0#8)
where
  modeOf' (m : Nat) (b : Byte) : RMode := if m = 1 then .rtz else if m = 2 then .sr b else .rne

/-- CVT: the elements of the destination in the target format (R167). Stochastic rounding takes the byte of the element's index i in
R167's lines; where a half of the source is converted, which has no i there, of the target element's index (log entry 46). -/
def laneCvtElems (x : LaneAux) (f : Elem) (sat : Bool) (raw : Nat) (a : List Nat) (dOld : Vec) : Elem × List Nat :=
  let t := laneElemFmt (LaneFmt.ofCode (raw % 8))
  let half := raw / 8 % 2
  let cs := elemCount f
  let ct := elemCount t
  let conv (l : List Nat) (base : Nat) : List Nat :=
    l.zipIdx.map (fun p => (convertElem f t (x.rounding (base + p.2)) sat p.1).1)
  if cs = ct then (t, conv a 0)
  else if cs = 2 * ct then (t, conv ((a.drop (half * ct)).take ct) 0)
  else
    let old := elemsOf t dOld
    let new := conv a 0
    (t, if half = 0 then new ++ old.drop cs else old.take cs ++ new)

/-- The pair of elements that BCE and FMAB name in PAIR (R166). -/
def pairElems (l : List Nat) (k : Nat) : List Nat :=
  List.replicate 96 (l.getD (2 * k % 192) 0) ++ List.replicate 96 (l.getD ((2 * k + 1) % 192) 0)

/-- The reduction of RADD and RMAX (R166). -/
def laneReduce (op : Nat) (f : Elem) (a : List Nat) : Nat :=
  match a with
  | [] => 0
  | x :: t =>
    if op = 0x28 then t.foldl (fun s y => laneRound f false ((f.val s).add (f.val y))) (startElem f x)
    else t.foldl (maxElem f) (startElem f x)

/-- A lane operation on the elements of its destination and sources; `raw` is source B where R164 reads it raw, `dOld` the
destination's bits. -/
def laneCompute (x : LaneAux) (op : Nat) (fmt : LaneFmt) (sat : Bool) (d a b : List Nat) (raw : Nat) (dOld : Vec) :
    LaneOut :=
  let f := laneElemFmt fmt
  if laneIsElem op then
    .of (((d.zip a).zip b).zipIdx.map (fun p => laneElemOp op f sat (x.flags.getLsbD p.2) p.1.1.1 p.1.1.2 p.1.2))
  else if op = 0x13 ∨ op = 0x14 ∨ op = 0x15 then
    ⟨none, {}, some (BitVec.ofNat 384 (packLanes 1
      ((a.zip b).map (fun p => (laneCompare op (f.val p.1) (f.val p.2)).toNat))))⟩
  else if op = 0x19 then
    let r := laneCvtElems x f sat raw a dOld
    .of (lanes (elemCount f) f.width (packLanes r.1.width r.2))
  else if op = 0x22 ∨ op = 0x23 ∨ op = 0x24 then
    let r := (a.zip b).map (fun p => match fixSpecial op (f32Val p.2) with
      | some (v, fl) => (rneF32Bits v, fl)
      | none => (p.1, FFlags.none))
    ⟨some (r.map (·.1)), allFlags (r.map (·.2)), none⟩
  else if op = 0x27 then
    let w (i : Nat) : Nat := match x.word with
      | some v => lane v.toNat ((2 * i + x.base) % 384) 8 + 256 * lane v.toNat ((2 * i + 1 + x.base) % 384) 8
      | none => 0
    .of (a.zipIdx.map (fun p => rneF32Bits (nscl (f32Val p.1) (nsclZ (w p.2)))))
  else if op = 0x28 ∨ op = 0x29 then .of (List.replicate (laneCount fmt) (laneReduce op f a))
  else if op = 0x2A then
    if fmt = .pair then .of (pairElems a (raw + x.n0))
    else .of (List.replicate (laneCount fmt) (a.getD ((raw + x.n0) % laneCount fmt) 0))
  else if op = 0x2B then .of ((d.zip a).map (fun p => netuElem x.h15 raw p.1 p.2))
  else
    let h := elemsOf .f32 x.h14 ++ elemsOf .f32 x.h15
    let xs := if fmt = .pair then pairElems h (raw + x.n0)
      else List.replicate (laneCount fmt) (h.getD ((raw + x.n0) % 192) 0)
    .of (((d.zip a).zip xs).map (fun p =>
      laneRound f false (((f.val p.1.2).mul (f.val p.2)).add (f.val p.1.1))))

/-! ## What the lane field decides of MICRO (R164 to R170, R175) -/

/-- CVT keeps a half of its destination: its target has twice as many elements as its source (R167). -/
def cvtKeepsHalf (l : LaneArgs) : Bool :=
  elemCount (laneElemFmt (LaneFmt.ofCode (l.b.code.toNat % 8))) = 2 * elemCount (laneElemFmt l.fmt)

/-- Operations that read the old destination (R166, R167). -/
def laneReadsDest (op : Nat) (l : LaneArgs) : Bool :=
  op = 0x05 || op = 0x06 || op = 0x07 || op = 0x17 || (op = 0x19 && cvtKeepsHalf l) || op = 0x2B || op = 0x2C

/-- Temporaries that an operation reads beside its operands: h15 of NETU, h14 and h15 of FMAB (R166, R170). -/
def laneReadsTemps (op : Nat) (l : LaneArgs) : List (BitVec 4) :=
  if op = 0x2B then [15] else if op = 0x2C then (if l.fmt = .pair || l.fmt = .f32 then [14, 15] else []) else []

/-- Positions of fields that make a lane field MICRO. -/
def laneMicro (op : Nat) (l : LaneArgs) (mode : Nat) (rpop word : Bool) : List Nat :=
  match laneRule op with
  | none => [20]
  | some r =>
    laneBad r l ++ (if op = 0x19 && mode = 2 && !rpop then [39] else []) ++ (if op = 0x27 && !word then [20] else [])

end Sys2Proof.Machine
end

