-- ==== Sys2Proof/Machine/Rom.lean ====
section
/-! DEFINITION. The ROM of the control store: its entries and bounds (R179) and the stitches of its routines (R180 to R184).
The routines of R183 name no registers for their steps: those below are the model's (log entry 12). -/
namespace Sys2Proof.Machine

/-- The fields of a lane operation of the ROM. -/
def romArgs (fmt : LaneFmt) (d a b : Sel) (lit : Option (BitVec 32)) : LaneArgs :=
  { fmt := fmt, sat := false, d := d, a := a, b := b, lit := lit }

/-- A stitch of one lane operation. -/
def romLane (fmt : LaneFmt) (op : Nat) (d a b : Sel) (lit : Option (BitVec 32) := none) : Stitch :=
  let l := romArgs fmt d a b lit
  { seq := .next, lane := some (op, l), agu := none, tile := none, cld := none, rpop := false, negin := false,
    negchk := false, neg := l, lit := lit }

/-- A stitch that does nothing. -/
def romIdle : Stitch :=
  { seq := .next, lane := none, agu := none, tile := none, cld := none, rpop := false, negin := false, negchk := false,
    neg := romArgs .f32 (.h 0) (.h 0) (.h 0) none, lit := none }

def withSeq (q : Seq) (s : Stitch) : Stitch := { s with seq := q }
def withNegin (s : Stitch) : Stitch := { s with negin := true }
def withNegchk (s : Stitch) : Stitch := { s with negchk := true }

def hN (n : Nat) : Sel := .h (BitVec.ofNat 4 n)
def f1 (op : Nat) (d a : Sel) : Stitch := romLane .f32 op d a (.h 0)
def f2 (op : Nat) (d a b : Sel) : Stitch := romLane .f32 op d a b
/-- An operation whose source B is a literal. -/
def fL (op : Nat) (d a : Sel) (v : BitVec 32) : Stitch := romLane .f32 op d a .lit (some v)
/-- A MOV of a literal. -/
def fMov (d : Sel) (v : BitVec 32) : Stitch := romLane .f32 0x01 d .lit (.h 0) (some v)

/-- VRCP (R180). -/
def romVrcp : List Stitch :=
  [f1 0x1D (hN 0) (.p 1), f2 0x1F (hN 1) (.p 1) (hN 0), f2 0x04 (hN 0) (hN 0) (hN 1), f2 0x1F (hN 1) (.p 1) (hN 0),
   f2 0x04 (hN 0) (hN 0) (hN 1), f2 0x21 (hN 1) (.p 1) (hN 0), f2 0x05 (hN 0) (hN 0) (hN 1),
   withSeq .stop (f2 0x22 (.p 0) (hN 0) (.p 1))]

/-- One Newton step of VRSQ (R180). -/
def romRsqStep : List Stitch :=
  [f2 0x04 (hN 1) (.p 1) (hN 0), f2 0x20 (hN 1) (hN 1) (hN 0), f2 0x04 (hN 0) (hN 0) (hN 1)]

/-- VRSQ (R180). -/
def romVrsq : List Stitch :=
  [f1 0x1E (hN 0) (.p 1)] ++ romRsqStep ++ romRsqStep ++ romRsqStep ++ [withSeq .stop (f2 0x23 (.p 0) (hN 0) (.p 1))]

/-- The body of VEXP and EXPH, from its first operand to its last destination (R181). -/
def romExpBody (src dst : Sel) (q : Seq) : List Stitch :=
  [fL 0x0C (hN 1) src 0x42D00000#32, fL 0x04 (hN 0) (hN 1) 0x3FB8AA3B#32, f1 0x18 (hN 0) (hN 0),
   fL 0x06 (hN 1) (hN 0) 0x3F317218#32, fMov (hN 2) 0x39500D01#32, fL 0x07 (hN 2) (hN 1) 0x3AB60B61#32,
   fL 0x07 (hN 2) (hN 1) 0x3C088889#32, fL 0x07 (hN 2) (hN 1) 0x3D2AAAAB#32, fL 0x07 (hN 2) (hN 1) 0x3E2AAAAB#32,
   fL 0x07 (hN 2) (hN 1) 0x3F000000#32, f2 0x07 (hN 2) (hN 1) .one, f2 0x07 (hN 2) (hN 1) .one,
   withSeq q (f2 0x1A dst (hN 2) (hN 0))]

/-- VLOG (R183). -/
def romVlog : List Stitch :=
  [f1 0x1B (hN 0) (.p 1), f2 0x03 (hN 1) (hN 0) .one, f2 0x02 (hN 2) (hN 0) .one, f1 0x1D (hN 3) (hN 2),
   f2 0x1F (hN 4) (hN 2) (hN 3), f2 0x04 (hN 3) (hN 3) (hN 4), f2 0x04 (hN 5) (hN 1) (hN 3), f2 0x04 (hN 6) (hN 5) (hN 5),
   fMov (hN 7) 0x3E924925#32, fL 0x07 (hN 7) (hN 6) 0x3ECCCCCD#32, fL 0x07 (hN 7) (hN 6) 0x3F2AAAAB#32,
   fL 0x07 (hN 7) (hN 6) 0x40000000#32, fL 0x1C (hN 8) (.p 1) 0x3F317218#32, f2 0x07 (hN 7) (hN 5) (hN 8),
   withSeq .stop (f2 0x24 (.p 0) (hN 7) (.p 1))]

/-- VTANH (R183). -/
def romVtanh : List Stitch :=
  [fL 0x0C (hN 1) (.p 1) 0x41200000#32, fL 0x04 (hN 0) (hN 1) 0xC038AA3B#32, f1 0x18 (hN 0) (hN 0),
   fL 0x05 (hN 1) (hN 0) 0x3EB17218#32, fMov (hN 2) 0x3DB60B61#32, fL 0x07 (hN 2) (hN 1) 0xBE888889#32,
   fL 0x07 (hN 2) (hN 1) 0x3F2AAAAB#32, fL 0x07 (hN 2) (hN 1) 0xBFAAAAAB#32, fL 0x07 (hN 2) (hN 1) 0x40000000#32,
   fL 0x07 (hN 2) (hN 1) 0xC0000000#32, f2 0x07 (hN 2) (hN 1) .one, f2 0x1A (hN 2) (hN 2) (hN 0),
   f2 0x02 (hN 2) (hN 2) .one, f1 0x1D (hN 3) (hN 2), f2 0x1F (hN 4) (hN 2) (hN 3), f2 0x04 (.p 0) (hN 3) (hN 4),
   withSeq .stop (romLane .f32 0x07 (.p 0) .lit .neg1 (some 0x40000000#32))]

/-- VSIGM (R183). -/
def romVsigm : List Stitch :=
  [fL 0x0C (hN 1) (.p 1) 0x42D00000#32, fL 0x04 (hN 0) (hN 1) 0xBFB8AA3B#32, f1 0x18 (hN 0) (hN 0),
   fL 0x05 (hN 1) (hN 0) 0x3F317218#32, fMov (hN 2) 0xB9500D01#32, fL 0x07 (hN 2) (hN 1) 0x3AB60B61#32,
   fL 0x07 (hN 2) (hN 1) 0xBC088889#32, fL 0x07 (hN 2) (hN 1) 0x3D2AAAAB#32, fL 0x07 (hN 2) (hN 1) 0xBE2AAAAB#32,
   fL 0x07 (hN 2) (hN 1) 0x3F000000#32, f2 0x07 (hN 2) (hN 1) .neg1, f2 0x07 (hN 2) (hN 1) .one,
   f2 0x1A (hN 2) (hN 2) (hN 0), f2 0x02 (hN 2) (hN 2) .one, f1 0x1D (hN 3) (hN 2), f2 0x1F (hN 4) (hN 2) (hN 3),
   withSeq .stop (f2 0x04 (.p 0) (hN 3) (hN 4))]

/-- MRELU (R182). -/
def romMrelu : List Stitch :=
  [withNegin (f1 0x1E (hN 0) (.pv 1)), f2 0x04 (hN 1) (.pv 1) (hN 0), f2 0x20 (hN 1) (hN 1) (hN 0),
   f2 0x04 (hN 0) (hN 0) (hN 1), f2 0x04 (hN 1) (.pv 1) (hN 0), f2 0x20 (hN 1) (hN 1) (hN 0),
   f2 0x04 (hN 0) (hN 0) (hN 1), f2 0x04 (hN 3) (.pm 1) (hN 0), f2 0x04 (hN 4) (.pv 1) (hN 0), f1 0x25 (hN 5) (hN 3),
   f1 0x26 (hN 6) (hN 3), f2 0x04 (hN 7) (hN 4) (hN 6), f2 0x04 (hN 8) (.pm 1) (hN 7), f2 0x05 (hN 7) (.pm 1) (hN 5),
   f2 0x04 (hN 9) (.pm 1) (.pm 1), f2 0x02 (hN 9) (hN 9) (.pv 1), f2 0x05 (hN 8) (hN 9) (hN 5),
   f2 0x06 (hN 8) (hN 7) (hN 7), f2 0x09 (hN 9) (.pm 1) .zero, f2 0x17 (hN 7) (hN 9) (.pv 1),
   f2 0x17 (hN 8) .zero (.pv 1), f1 0x01 (.pm 0) (hN 7), withSeq .stop (withNegchk (f2 0x09 (.pv 0) (hN 8) .zero))]

/-- A PAIR operation with a literal as source B. -/
def pL (op : Nat) (d a : Sel) (v : BitVec 32) : Stitch := romLane .pair op d a .lit (some v)

/-- MEXP (R183). -/
def romMexp : List Stitch :=
  [withNegin (f1 0x01 (hN 1) (.pv 1)), f1 0x01 (hN 0) (.pm 1), fL 0x05 (hN 0) (hN 1) 0x3F000000#32,
   fL 0x05 (hN 1) (hN 0) 0x40000000#32, pL 0x0C (hN 0) (hN 0) 0x42D00000#32, pL 0x04 (hN 2) (hN 0) 0x3FB8AA3B#32,
   romLane .pair 0x18 (hN 2) (hN 2) (.h 0), pL 0x06 (hN 0) (hN 2) 0x3F317218#32,
   romLane .pair 0x01 (hN 4) .lit (.h 0) (some 0x3AB60B61#32), pL 0x07 (hN 4) (hN 0) 0x3C088889#32,
   pL 0x07 (hN 4) (hN 0) 0x3D2AAAAB#32, pL 0x07 (hN 4) (hN 0) 0x3E2AAAAB#32, pL 0x07 (hN 4) (hN 0) 0x3F000000#32,
   romLane .pair 0x07 (hN 4) (hN 0) .one, romLane .pair 0x07 (hN 4) (hN 0) .one, romLane .pair 0x1A (hN 4) (hN 4) (hN 2),
   f2 0x06 (hN 5) (hN 4) (hN 4), f1 0x01 (.pm 0) (hN 4), withSeq .stop (withNegchk (f2 0x09 (.pv 0) (hN 5) .zero))]

/-- NSAMPLE (R183). -/
def romNsample : List Stitch :=
  [withNegin (f1 0x27 (hN 0) (.pv 1)), withSeq .stop (f2 0x02 (.p 0) (.pm 1) (hN 0))]

/-- The load of the weights at the start of ELEM (R184). -/
def romElemLoad : Stitch :=
  { romIdle with agu := some (1, { fmt := .f32, reg := hN 15, base := 4, ix := false, ixn := 0, stride := 0, off := 0,
                                   ovr := none, gen := 0 }) }

/-- The stitch of unit k of ELEM and its final move (R184). -/
def romElemUnit (k : Nat) : Stitch :=
  let s := f2 0x2B (hN 0) (.p 1) (Sel.ofCode (BitVec.ofNat 6 k))
  if k = 15 then s else withSeq (.loop 1 (BitVec.ofNat 13 (0x10CE + 2 * k + 2))) s

def romElemMove : Stitch := withSeq .stop (f1 0x01 (.p 0) (hN 0))

/-- The stitch at a ROM address, none outside the routines (R179); the stitches of DENSE depend on its region (denseProgram). -/
def romStitch (a : Nat) : Option Stitch :=
  let at_ (base : Nat) (l : List Stitch) : Option Stitch := l[a - base]?
  if a < 0x1000 then none
  else if a < 0x1010 then at_ 0x1000 romVrcp
  else if a < 0x1020 then at_ 0x1010 romVrsq
  else if a < 0x1030 then at_ 0x1020 (romExpBody (.p 1) (.p 0) .stop)
  else if a < 0x1040 then at_ 0x1030 (romExpBody (hN 1) (hN 2) .retrom)
  else if a < 0x1050 then at_ 0x1040 romVlog
  else if a < 0x1068 then at_ 0x1050 romVtanh
  else if a < 0x1080 then at_ 0x1068 romVsigm
  else if a < 0x10A0 then at_ 0x1080 romMrelu
  else if a < 0x10C0 then at_ 0x10A0 romMexp
  else if a < 0x10C8 then at_ 0x10C0 romNsample
  else if a = 0x10C8 then some romElemLoad
  else if a < 0x10CD then some romIdle
  else if a = 0x10CD then some (f2 0x2A (hN 0) (hN 15) (.h 0))
  else if a < 0x10EE then some (if a % 2 = 0 then romElemUnit ((a - 0x10CE) / 2) else romElemMove)
  else none

/-! ### DENSE (R184, R280): its stitches follow from the layer sizes of its region. R184 names no registers beside h14:h15;
those below are the model's (log entry 13). -/

/-- A load in PAIR or F32 at K × 64 + 64 × (n3 + more). -/
def romDenseLoad (fmt : LaneFmt) (h more : Nat) (s : Stitch) : Stitch :=
  { s with agu := some (1, { fmt := fmt, reg := hN h, base := 4, ix := true, ixn := 3, stride := 1,
                             off := BitVec.ofNat 10 more, ovr := none, gen := 0 }) }

/-- CLD of a literal into a counter. -/
def romCld (n : BitVec 2) (v : Nat) (s : Stitch) : Stitch :=
  { s with cld := some n, lit := some (BitVec.ofNat 32 v) }

/-- One block of 96 outputs over `pairs` input pairs into the accumulator pair at h`acc`; its words begin `base` 64-byte
units into the buffer, and n3 holds `base` when it starts. The weights of pair p are loaded into one of five register pairs
five steps before the FMAB that reads them; n0 is 64 from pair 64 on. -/
def denseBlock (acc pairs base : Nat) : List Stitch :=
  let unit (p : Nat) : Nat := base + 6 + 12 * p
  let load (p : Nat) (s : Stitch) : Stitch :=
    if p < pairs then romDenseLoad .pair (2 * (p % 5)) (if p = 69 then 12 else 0) s else s
  let aim (p : Nat) (s : Stitch) : Stitch := if p < pairs then romCld 3 (unit p) s else s
  [aim 0 (romDenseLoad .f32 acc 0 (f1 0x01 (hN (acc + 1)) .zero))] ++
  (List.range 5).map (fun i => load i (aim (i + 1) romIdle)) ++
  (List.range pairs).map (fun p =>
    let s := load (p + 5) (romLane .pair 0x2C (hN acc) (hN (2 * (p % 5))) (Sel.ofCode (BitVec.ofNat 6 (p % 64))))
    if p = 63 && 64 < pairs then romCld 0 64 s
    else if 64 < pairs && p + 1 = pairs then romCld 0 0 s
    else aim (p + 6) s) ++
  [romCld 3 (unit pairs) (f2 0x02 (hN acc) (hN acc) (hN (acc + 1)))]

/-- One layer of n_in inputs and n_out outputs: its blocks, then their outputs in place of the inputs, through MAX with
ZERO where another layer follows. -/
def denseLayerStitches (nIn nOut base : Nat) (relu : Bool) : List Stitch :=
  let pairs := (nIn + 1) / 2
  let out (h acc : Nat) : Stitch := if relu then f2 0x09 (hN h) (hN acc) .zero else f1 0x01 (hN h) (hN acc)
  if nOut ≤ 96 then denseBlock 10 pairs base ++ [out 14 10]
  else denseBlock 10 pairs base ++ denseBlock 12 pairs (base + 6 + 12 * pairs) ++ [out 14 10, out 15 12]

/-- The layers of DENSE from the buffer's unit `base` on. -/
def denseLayersFrom (base : Nat) : List Nat → List Stitch
  | a :: b :: t =>
    denseLayerStitches a b base (!t.isEmpty) ++
      denseLayersFrom (base + (b + 95) / 96 * (6 + 12 * ((a + 1) / 2))) (b :: t)
  | _ => []

/-- A CVT between BF16 and F32 with the given half. -/
def romCvt (fmt : LaneFmt) (d a : Sel) (code : Nat) : Stitch := romLane fmt 0x19 d a (Sel.ofCode (BitVec.ofNat 6 code))

/-- DENSE (R184): the input widened into h14:h15, the layers, the outputs rounded to BF16 with the other lanes zero. -/
def denseProgram (sizes : List Nat) : List Stitch :=
  [romCvt .bf16 (hN 14) (.p 1) 0, romCvt .bf16 (hN 15) (.p 1) 8] ++ denseLayersFrom 0 sizes ++
  [f1 0x01 (.p 0) .zero, romCvt .f32 (.p 0) (hN 14) 1, romCvt .f32 (.p 0) (hN 15) 9,
   romLane .i16 0x13 .zero .lane .lit (some (BitVec.ofNat 32 (sizes.getLastD 0))),
   withSeq .stop (romLane .i16 0x16 (.p 0) (.p 0) .zero)]

/-- The published entries of the ROM (R179). -/
def romEntries : List Nat :=
  [0x1000, 0x1010, 0x1020, 0x1030, 0x1040, 0x1050, 0x1068, 0x1080, 0x10A0, 0x10C0, 0x10C8, 0x1100]

end Sys2Proof.Machine
end

