-- ==== Sys2Proof/Machine/Micro.lean ====
section
/-! DEFINITION. One step of the micro sequencer: operand selectors (R164), sequencing (R163), the address generator (R171), the
tile field (R172), the miscellaneous field (R173), the checks of R175 and the effects of a stitch at the end of its step
(R160). -/
namespace Sys2Proof.Machine

/-! ## Operands (R164, R165) -/

def RoutineArgs.param (a : RoutineArgs) (n : BitVec 2) : Nat :=
  match n.toNat with
  | 0 => a.p0 | 1 => a.p1 | 2 => a.p2 | _ => a.p3

/-- Registers of the context that a selector names. -/
def selRegs (a : RoutineArgs) (f : LaneFmt) : Sel → List RegId
  | .p n => if f = .pair then [.v (a.param n), .v (a.param n + 1)] else [.v (a.param n)]
  | .pm n => [.m (a.param n)]
  | .pv n => [.m (a.param n)]
  | .px n => [.x (a.param n)]
  | .h _ | .k | .lane | .zero | .lit | .one | .neg1 | .bad _ => []

/-- Temporaries that a selector names. -/
def selTemps (f : LaneFmt) : Sel → List Nat
  | .h n => if f = .pair then [n.toNat, n.toNat + 1] else [n.toNat]
  | .p _ | .pm _ | .pv _ | .k | .lane | .zero | .lit | .px _ | .one | .neg1 | .bad _ => []

/-- A selector names a register that the context does not hold (R164, R165). -/
def selFres (a : RoutineArgs) (f : LaneFmt) : Sel → Bool
  | .p n => 2048 ≤ a.param n || (f = .pair && a.param n = 2047)
  | .pm n => 256 ≤ a.param n
  | .pv n => 256 ≤ a.param n
  | .px n => 64 ≤ a.param n
  | .h _ | .k | .lane | .zero | .lit | .one | .neg1 | .bad _ => false

/-- The same bits in every element. -/
def everyElem (f : LaneFmt) (v : Nat) : Nat :=
  packLanes (laneElemFmt f).width (List.replicate (laneCount f) v)

/-- The bits of an operand in a lane format. LANE gives the integer bits of each element's index, in float formats too (R164; log
entry 101). -/
def selRead (c : Ctx) (a : RoutineArgs) (f : LaneFmt) (lit : Option (BitVec 32)) : Sel → Nat
  | .h n => if f = .pair then (c.regs.getH n.toNat).toNat + (c.regs.getH (n.toNat + 1)).toNat <<< 3072
            else (c.regs.getH n.toNat).toNat
  | .p n => if f = .pair then (c.regs.getV (a.param n)).toNat + (c.regs.getV (a.param n + 1)).toNat <<< 3072
            else (c.regs.getV (a.param n)).toNat
  | .pm n =>
    let l := momLanes (c.regs.getM (a.param n))
    if f = .pair then packLanes 32 (l.map (·.1) ++ l.map (·.2)) else packLanes 32 (l.map (·.1))
  | .pv n => packLanes 32 ((momLanes (c.regs.getM (a.param n))).map (·.2))
  | .k => everyElem f a.k
  | .lane => packLanes (laneElemFmt f).width (List.range (laneCount f))
  | .zero => 0
  | .lit => everyElem f (match lit with | some v => v.toNat | none => 0)
  | .px n => everyElem f (c.regs.getX (a.param n)).toNat
  | .one => everyElem f (exactBits (laneElemFmt f) FVal.one)
  | .neg1 => everyElem f (exactBits (laneElemFmt f) (FVal.neg FVal.one))
  | .bad _ => 0

/-- Write an operand's bits. -/
def selWrite (c : Ctx) (a : RoutineArgs) (f : LaneFmt) (v : Nat) (sel : Sel) : Ctx :=
  let two : Bool := f == LaneFmt.pair
  match sel with
  | .h n =>
    let r : Regs := c.regs.setH n.toNat (BitVec.ofNat 3072 v)
    { c with regs := if two then r.setH (n.toNat + 1) (BitVec.ofNat 3072 (v >>> 3072)) else r }
  | .p n =>
    let k : Nat := a.param n
    let r : Regs := c.regs.setV k (BitVec.ofNat 3072 v)
    let c1 : Ctx := { c with regs := if two then r.setV (k + 1) (BitVec.ofNat 3072 (v >>> 3072)) else r }
    if two then (c1.unpoison (.v k)).unpoison (.v (k + 1)) else c1.unpoison (.v k)
  | .pm n =>
    let k : Nat := a.param n
    let hi : List Nat := if two then lanes 96 32 (v >>> 3072) else (momLanes (c.regs.getM k)).map (fun p => p.2)
    { c with regs := c.regs.setM k (momOf ((lanes 96 32 v).zip hi)) }.unpoison (.m k)
  | .pv n =>
    let k : Nat := a.param n
    let lo : List Nat := (momLanes (c.regs.getM k)).map (fun p => p.1)
    { c with regs := c.regs.setM k (momOf (lo.zip (lanes 96 32 v))) }.unpoison (.m k)
  | .k | .lane | .zero | .lit | .px _ | .one | .neg1 | .bad _ => c

/-- The elements of an operand. -/
def laneElems (f : LaneFmt) (v : Nat) : List Nat := lanes (laneCount f) (laneElemFmt f).width v

/-! ## Sequencing (R163) -/

def condHolds (c : Ctx) : Cond → Bool
  | .always => true
  | .any => c.micro.flags.toNat % 2 ^ c.micro.count != 0
  | .all => c.micro.flags.toNat % 2 ^ c.micro.count = 2 ^ c.micro.count - 1
  | .none => c.micro.flags.toNat % 2 ^ c.micro.count = 0
  | .zero n => c.regs.getN n.toNat = 0
  | .nvf => mcfgNvf (c.creg 0x040)
  | .reserved _ => false

/-- A target of JUMP, BRIF or LOOP is in the region of its stitch and holds a stitch (R163). -/
def targetBad (c : Ctx) (upc : Nat) (t : BitVec 13) : Bool :=
  (0x1000 ≤ t.toNat) != (0x1000 ≤ upc) || !microRegionOk t.toNat || (t.toNat < 0x0C00 && c.place.cslen ≤ t.toNat)

/-- Positions of sequencer fields that are MICRO. -/
def seqMicro (c : Ctx) (upc : Nat) : Seq → List Nat
  | .next => []
  | .stop => []
  | .jump t => if targetBad c upc t then [3] else []
  | .brif k t => (if targetBad c upc t then [3] else []) ++ (if k.ok then [] else [16])
  | .loop _ t => if targetBad c upc t then [3] else []
  | .callrom t => (if t.toNat < 0x1000 then [3] else []) ++ (if c.micro.link.isSome then [0] else [])
  | .retrom => if c.micro.link.isNone then [0] else []
  | .raise k code => (if raiseCodeOk (code.toNat % 256) then [] else [3]) ++ (if k.ok then [] else [16])

/-- The micro state after the sequencing of a stitch that completes. -/
def seqStep (c : Ctx) (upc : Nat) (q : Seq) : Ctx :=
  let go (t : Nat) : Ctx := { c with micro := { c.micro with pc := t } }
  match q with
  | .next => go (upc + 1)
  | .stop => c
  | .jump t => go t.toNat
  | .brif k t => go (if condHolds c k then t.toNat else upc + 1)
  | .loop n t =>
    let v := c.regs.getN n.toNat
    if v = 0 then go (upc + 1)
    else { c with micro := { c.micro with pc := t.toNat }, regs := c.regs.setN n.toNat (v - 1) }
  | .callrom t => { c with micro := { c.micro with pc := t.toNat, link := some (upc + 1) } }
  | .retrom => { c with micro := { c.micro with pc := c.micro.link.getD 0, link := none } }
  | .raise _ _ => go (upc + 1)

/-! ## The address generator (R171) -/

/-- What an AGU field does: its address, bytes, bank-format code where it converts, and whether it goes to HBM. -/
structure AguPlan where
  op : Nat
  addr : Nat
  len : Nat
  /-- the format code of LDC and STC; none where HBM has no override -/
  code : Option Nat
  hbm : Bool
  fmt : LaneFmt
  deriving DecidableEq, Repr, Inhabited

def aguBank (core : Nat) (c : Ctx) (addr : Nat) : Nat := if isOwn core addr then c.bfmt (bankOf addr) else 0

/-- The plan of an AGU field. Base 4 is K × 64; the K of an A class is signed (R127, R171), a surrogate's is the window's
buffer (R184). -/
def aguPlan (core : Nat) (c : Ctx) (a : RoutineArgs) (op : Nat) (u : AguArgs) : AguPlan :=
  let base : Nat := if u.base.toNat < 4 then
      addrOf (c.regs.getA (a.param (u.base.setWidth 2)))
    else 0
  let kBase : Int := if u.base.toNat < 4 then 0
    else if a.cls = 0 && a.region.isNone then (BitVec.ofNat 18 a.k).toInt * 64 else (a.k : Int) * 64
  let idx : Nat := if u.ix then 64 * u.stride.toNat * (c.regs.getN u.ixn.toNat).toNat else 0
  let addr := wrap ((base : Int) + kBase + 64 * u.off.toInt + idx) 48
  let own := isOwn core addr
  let code : Option Nat := match u.ovr with
    | some f => some f.toNat
    | none => if own then some (fmtCode (aguBank core c addr)) else none
  let n := laneCount u.fmt
  let len := if op ≤ 2 then laneBytes u.fmt
    else match code with
      | none => laneBytes u.fmt
      | some k => if k = 0 ∨ 13 ≤ k then laneBytes u.fmt
        else if isBlockFmt k then n / 32 * blockBytes k else n * elemBytes k
  { op := op, addr := addr, len := len, code := code, hbm := 0x100000000000 ≤ addr, fmt := u.fmt }

/-- The access of an AGU field; R175 and R485 list no FORM among its faults (log entry 84). -/
def AguPlan.access (p : AguPlan) : Access :=
  let rd := p.op = 1 || p.op = 3
  { spans := [(p.addr, p.len)], align := 64, aligned := [p.addr], rd := rd, wr := !rd, amo := false, mst := false,
    vec := false, claim := true, hwRd := rd && !p.hbm, hwWr := !rd }

/-- Groups that an own-S1 run touches. -/
def runGroups (addr len : Nat) : List Nat :=
  (List.range 4).filter (fun g => overlaps (addr, addr + len) (g * 0x200000, (g + 1) * 0x200000))

/-- Confinement of an AGU access: FRES (R175). -/
def AguPlan.fres (p : AguPlan) (c : Ctx) (a : RoutineArgs) (u : AguArgs) : Bool :=
  (u.base.toNat < 4 && 32 ≤ a.param (u.base.setWidth 2)) ||
  (if p.hbm then !a.bind.hbm
   else !spanOwn p.addr p.len || (linePoints p.addr p.len).any (fun q => !inBwin (c.creg 0x020) q) ||
     (runGroups p.addr p.len).any (fun g => !a.bind.groups.testBit g))

/-- GEN confines own-S1 accesses (R171). -/
def AguPlan.genBad (p : AguPlan) (u : AguArgs) : Bool :=
  u.gen != 0#4 && spanOwn p.addr p.len && (runGroups p.addr p.len).any (fun g => !u.gen.getLsbD g)

/-- The BFMT value that LDC and STC work with in an own-S1 bank: the bank's, with the override's code. -/
def AguPlan.bank (p : AguPlan) (core : Nat) (c : Ctx) : Nat := aguBank core c p.addr / 16 * 16 + p.code.getD 0

/-- The bytes move unchanged: RAW, or equal formats (R140; log entry 84). -/
def AguPlan.raw (p : AguPlan) : Bool :=
  p.op ≤ 2 || (match p.code with
    | none => false
    | some k => k = 0 || (!isBlockFmt k && !isMoFmt k && fmtElem k = laneElemFmt p.fmt))

/-- The run crosses into a bank for which the access has another format (R140; log entry 84). -/
def AguPlan.crosses (p : AguPlan) (core : Nat) (c : Ctx) (ovr : Bool) : Bool :=
  let last := p.addr + p.len - 1
  p.addr / 0x20000 != last / 0x20000 &&
    (!p.raw || (!ovr && fmtCode (aguBank core c p.addr) != fmtCode (aguBank core c last)))

/-- The scale bytes of a block access (R136). -/
def AguPlan.scaleRun (p : AguPlan) (core : Nat) (c : Ctx) : List (Nat × Nat) :=
  let k := p.code.getD 0
  if 3 ≤ p.op && !p.hbm && isBlockFmt k then
    [(p.addr / 0x20000 * 0x20000 + scaleOff (p.bank core c) (p.addr % 0x20000), p.len / blockBytes k)] else []

/-- The faults of an AGU access, in the order of R192 (R175, step 6); those of its scale bytes and HWERR after the
checks that place them. LDC or STC to an HBM address without a format for it is FMT wherever the address may lie (R171, R485).
A converting run that crosses into a bank of another format raises FMT (log entry 84). -/
def AguPlan.fault (p : AguPlan) (s : State) (core : Nat) (c : Ctx) (ovr : Bool) : Option (Nat × Nat) :=
  let acc := p.access
  let conv := 3 ≤ p.op
  let k := p.code.getD 0
  let blk := conv && !p.hbm && isBlockFmt k
  let off := p.addr % 0x20000
  let f := p.bank core c
  let value := if p.op = 3 then k else k * 16
  let outside := blk && scaleBad f off p.len (p.op = 4)
  let all := if outside then acc else { acc with spans := acc.spans ++ p.scaleRun core c }
  let noFmt := conv && p.hbm && (p.code.isNone || isMoFmt k || isBlockFmt k)
  match (checkAccess s s core c { acc with claim := false, hwRd := false, hwWr := false }).filter
      (fun e => !noFmt || (e.1 != cPAGE && e.1 != cPROT)) with
  | some e => some e
  | none =>
    if blk && off % blockBytes k != 0 then some (cALIGN, p.addr)
    else
    match (if noFmt then none else checkAccess s s core c { all with claim := false, hwRd := false, hwWr := false }) with
    | some e => some e
    | none =>
      if conv && (p.code.isNone || isMoFmt k || (p.hbm && isBlockFmt k) ||
          (!p.hbm && (p.crosses core c ovr || outside))) then some (cFMT, value)
      else checkAccess s s core c all

/-- The bytes that an LDC's or LD's memory bytes give the register; between equal formats they move as they are, a NaN's
payload with them (R140, R171; log entry 84). -/
def aguLoaded (s : State) (core : Nat) (c : Ctx) (p : AguPlan) (fmt : LaneFmt) (bytes : List Byte) : List Byte :=
  match (if p.raw then none else p.code) with
  | none => bytes
  | some k =>
    let sc := (p.scaleRun core c).flatMap (fun r => s.bytes (s1Place core r.1) r.2)
    let e := laneElemFmt fmt
    toBytes (laneBytes fmt) (packLanes e.width
      ((decodeRun k bytes sc).map (encodePlain e (isIntFmt k) .rne false)))

/-- A store's bytes, its scale codes and the random bytes it draws (R146, R171). A store to HBM has no bank to name RND and
SAT: it rounds to nearest even with SAT 0 (log entry 84). -/
def aguStored (core : Nat) (c : Ctx) (a : RoutineArgs) (p : AguPlan) (fmt : LaneFmt) (v : Nat) : Converted :=
  let e := laneElemFmt fmt
  match (if p.raw then none else p.code) with
  | none => { bytes := toBytes (laneBytes fmt) v, scales := [], drawn := 0 }
  | some k =>
    encodeRun (if p.hbm then k else p.bank core c) e.isInt (c.drawByte a.seed 4) ((laneElems fmt v).map e.val)

/-! ## Accumulators (R243, R172) -/

/-- The key of an accumulator. -/
def accKey (plane row col : Nat) : Nat := (plane * 96 + row) * 192 + col

/-- A row of a plane as F32 bits. -/
def Core.accRow (k : Core) (plane row : Nat) : List F32 :=
  let b := accKey plane row 0
  let mine := k.acc.filter (fun p => b ≤ p.1 && p.1 < b + 192)
  (List.range 192).map (fun j => SMap.get 0#32 mine (b + j))

/-- Write a row of a plane. -/
def Core.setAccRow (k : Core) (plane row : Nat) (vals : List F32) : Core :=
  let b := accKey plane row 0
  let mine := (((vals.take 192).zipIdx.filter (fun p => p.1 != 0#32)).map (fun p => (b + p.2, p.1)))
  { k with acc := k.acc.filter (fun p => p.1 < b) ++ mine ++ k.acc.filter (fun p => b + 192 ≤ p.1) }

/-- Rows of the array as a HALF field allows them (R157). -/
def halfRows (h : Nat) : List Nat :=
  if h = 1 then List.range 48 else if h = 2 then (List.range 48).map (· + 48) else if h = 3 then List.range 96 else []

/-- The half of an array row. -/
def Core.halfOfRow (k : Core) (row : Nat) : Nat := if k.split && 48 ≤ row then 1 else 0

/-- The rows a stitch may work: those of HALF that the platform owns (R172, R250). -/
def Core.microRows (k : Core) (plat half : Nat) : List Nat :=
  (halfRows half).filter (fun r => (k.half (k.halfOfRow r)).owner = some plat)

/-- The array row of a row field (R172). -/
def Core.rowField (k : Core) (plat : Nat) (row : BitVec 7) : Option Nat :=
  if (if k.split then 48 else 96) ≤ row.toNat then none else some (48 * k.halfOf plat + row.toNat)

/-- The rows a TILE field works: all for FEED, its one row for the others; none where it is FRES. -/
def Core.tileRows (k : Core) (plat half op : Nat) (t : TileArgs) : List Nat :=
  if op = 1 then k.microRows plat half
  else match k.rowField plat t.row with
    | some r => (k.microRows plat half).filter (· = r)
    | none => []

/-- The value of an exact sum of products into an accumulator (R154). -/
def beat (z : F32) (terms : List FVal) : F32 :=
  BitVec.ofNat 32 (rneF32Bits ((f32Val z.toNat).add (terms.foldl FVal.add (.fin true 0 0))))

/-- Elements of one 32-bit word that a beat takes, low ones first (R152, R172). -/
def feedWord (f : LaneFmt) (w : Nat) : List FVal :=
  let e := laneElemFmt f
  let k := if f = .f16 then 1 else 32 / e.width
  (lanes k e.width w).map e.val

/-- FEED into one row: the words of A's row and of B's columns. -/
def feedRow (f : LaneFmt) (acc : Bool) (old : List F32) (aw : Nat) (bws : List Nat) : List F32 :=
  let a := feedWord f aw
  (old.zip bws).map (fun p => beat (if acc then p.1 else 0#32) (a.zipWith FVal.mul (feedWord f p.2)))

/-- The effect of a TILE field that writes a plane: FEED and FROW. -/
def tileWrite (k : Core) (plat half op : Nat) (t : TileArgs) (a b : Nat) : Core :=
  let plane := t.plane.toNat
  let bw := lanes 192 32 b
  (k.tileRows plat half op t).foldl (fun k r =>
    if op = 1 then k.setAccRow plane r (feedRow t.fmt t.acc (k.accRow plane r) (lane a (r - 48 * k.halfOf plat) 32) bw)
    else if op = 3 then k.setAccRow plane r (bw.map (BitVec.ofNat 32))
    else k) k

/-! ## One stitch -/

/-- A stitch with the positions of its set reserved bits; none where no stitch is. -/
abbrev Fetched := Option (Stitch × List Nat)

/-- The stitch at a micro address: of the ROM, or of the context's bank (R163, R178, R179). -/
def fetchStitch (c : Ctx) (upc : Nat) : Fetched :=
  if upc < 0x0C00 then let w := SMap.get 0#128 c.bank upc; some (readStitch w, stitchBad w)
  else (romStitch upc).map (fun s => (s, []))

/-- What of a stitch is used: each selector read with its position and format; the temporaries that NETU and FMAB read
beside their operands count as the LANE operation's (R166, R170). -/
def stitchReads (st : Stitch) : List (Nat × LaneFmt × Sel) :=
  (match st.lane with
   | some (op, l) =>
     (33, l.fmt, l.a) :: (match laneRule op with
       | some r => if r.b = .sel then [(39, l.fmt, l.b)] else []
       | none => []) ++ (if laneReadsDest op l then [(27, l.fmt, l.d)] else []) ++
     (laneReadsTemps op l).map (fun h => (20, .f32, .h h))
   | none => if st.negin || st.negchk then [(33, st.neg.fmt, st.neg.a)] else []) ++
  (match st.agu with
   | some (op, u) => if op = 2 ∨ op = 4 then [(52, u.fmt, u.reg)] else []
   | none => []) ++
  (match st.tile with
   | some (op, t) => (if op = 1 then [(90, t.fmt, t.a)] else []) ++ (if op = 2 then [] else [(96, .pair, t.b)])
   | none => [])

/-- Each selector written with its position and format. -/
def stitchWrites (st : Stitch) : List (Nat × LaneFmt × Sel) :=
  (match st.lane with
   | some (_, l) => [(27, l.fmt, l.d)]
   | none => []) ++
  (match st.agu with
   | some (op, u) => if op = 1 ∨ op = 3 then [(52, u.fmt, u.reg)] else []
   | none => []) ++
  (match st.tile with
   | some (op, t) => if op = 2 then [(96, .pair, t.b)] else []
   | none => [])

/-- CVT's rounding code in a routine: a V class's rm, with RMODE for 3, else RNE (R167). -/
def cvtMode (c : Ctx) (a : RoutineArgs) : Nat :=
  if a.cls != 1 then 0 else if a.rm = 3 then ((c.creg 0x030).extractLsb' 0 2).toNat else a.rm

/-- A read of a register whose micro load has not landed (R171). -/
def loadPending (r : Routine) (f : LaneFmt) (s : Sel) : Bool :=
  r.loads.any (fun l =>
    (selTemps l.fmt l.sel).any (fun h => (selTemps f s).contains h) ||
      (selRegs r.args l.fmt l.sel).any (fun g => (selRegs r.args f s).contains g))

/-- Positions of the fields that make a stitch MICRO (R175, step 2). -/
def stitchMicro (k : Core) (core : Nat) (c : Ctx) (r : Routine) (st : Stitch) (bad : List Nat) : List Nat :=
  let _ := k
  bad ++ seqMicro c c.micro.pc st.seq ++
  (match st.lane with
   | some (op, l) => laneMicro op l (cvtMode c r.args) st.rpop c.micro.word.isSome
   | none => if (st.negin || st.negchk) && !st.neg.a.readable st.neg.fmt st.lit.isSome then [33] else []) ++
  (match st.agu with
   | some (op, u) => if 4 < op then [48] else
       aguBad (op = 1 || op = 3) st.lit.isSome u ++ (if (aguPlan core c r.args op u).genBad u then [104] else [])
   | none => []) ++
  (match st.tile with | some (op, t) => tileBad op t | none => []) ++
  (stitchReads st).filterMap (fun p => if loadPending r p.2.1 p.2.2 then some p.1 else none)

/-- FRES (R175, step 3). -/
def stitchFres (k : Core) (core : Nat) (c : Ctx) (r : Routine) (st : Stitch) : Bool :=
  (stitchReads st ++ stitchWrites st).any (fun p => selFres r.args p.2.1 p.2.2) ||
  (match st.agu with
   | some (op, u) => (aguPlan core c r.args op u).fres c r.args u
   | none => false) ||
  (match st.tile with
   | some (op, t) => (k.tileRows r.plat r.args.bind.half op t).isEmpty
   | none => false) ||
  (st.rpop && !r.args.bind.rand)

/-- The lowest element of an operand that is below zero (R173). -/
def negElemAt (f : LaneFmt) (v : Nat) : Option Nat :=
  lowestLane (fun x => ((laneElemFmt f).val x).isNeg) (laneElems f v)

/-- SHADOW of R161: a register of the stitch that an earlier bundle's result has not reached. -/
def stitchShadow (c : Ctx) (now : Nat) (r : Routine) (st : Stitch) : Option RegId :=
  let rs := (stitchReads st ++ stitchWrites st).flatMap (fun p => selRegs r.args p.2.1 p.2.2)
  rs.find? (fun g =>
    g.real && ((c.isPending g && r.waiting.contains g) ||
      c.flights.any (fun f => f.write.reg? = some g && !f.write.isShadow && f.issued < r.start && now < f.land)))

/-- How a step of the sequencer ends. -/
inductive StitchOut where
  | done (s : State)
  | stall (s : State)
  | fault (code value : Nat)

/-- Land the micro loads that are due at the end of a step, or all of them (R171, R176). -/
def Ctx.landLoads (c : Ctx) (a : RoutineArgs) (ls : List MicroLoad) : Ctx :=
  ls.foldl (fun c l => selWrite c a l.fmt (ofBytes l.data) l.sel) c

/-- The busy cycles left in the halves that a TILE field works (R172). -/
def tileBusyLeft (k : Core) (now : Nat) (rows : List Nat) : Nat :=
  rows.foldl (fun m r => max m ((k.half (k.halfOfRow r)).busy - now)) 0

/-- The HBM bytes of a stitch's load: those that have come, or none while they are on their way (R160). -/
def hbmReady (r : Routine) : Option Outbound :=
  match r.waitHbm with
  | some o => if o.pieces.isEmpty then some o else none
  | none => none

/-- Steps 2 to 6 of R175 on a stitch, but for the HWERR of HBM data still on their way. -/
def stitchFault (s : State) (core : Nat) (c : Ctx) (r : Routine) (st : Stitch) (bad : List Nat) : Option (Nat × Nat) :=
  let k := s.core core
  match (stitchMicro k core c r st bad).min? with
  | some p => some (cMICRO, p)
  | none =>
    if stitchFres k core c r st then some (cFRES, c.micro.pc)
    else
      match (if st.negin then negElemAt st.neg.fmt (selRead c r.args st.neg.fmt st.lit st.neg.a) else none) with
      | some i => some (cNEGVAR, 0x100 + i)
      | none =>
        match stitchShadow c s.now r st with
        | some g => some (cSHADOW, g.value)
        | none => match st.agu with | some (op, u) => (aguPlan core c r.args op u).fault s core c u.ovr.isSome | none => none

/-- Steps 7 and 8 of R175: TBUSY, and NEGVAR from NEGCHK. -/
def stitchLate (s : State) (core : Nat) (c : Ctx) (r : Routine) (st : Stitch) : Option (Nat × Nat) :=
  let k := s.core core
  let left := match st.tile with
    | some (op, t) => tileBusyLeft k s.now (k.tileRows r.plat r.args.bind.half op t)
    | none => 0
  if 0 < left then some (cTBUSY, left)
  else
    match (if st.negchk && mcfgNvf (c.creg 0x040) then
        negElemAt st.neg.fmt (selRead c r.args st.neg.fmt st.lit st.neg.a) else none) with
    | some i => some (cNEGVAR, 0x200 + i)
    | none => none

/-- What a lane operation sees (R167, R169). -/
def laneAux (c : Ctx) (a : RoutineArgs) : LaneAux :=
  { word := c.micro.word, base := if a.slot = 5 then 48 else 0, popped := c.queue.head?, mode := cvtMode c a,
    h14 := c.regs.getH 14, h15 := c.regs.getH 15, n0 := (c.regs.getN 0).toNat, flags := c.micro.flags }

/-- The LANE field's effect on the context; `pre` is the context the step found. -/
def laneEffect (pre : Ctx) (a : RoutineArgs) (st : Stitch) (c : Ctx) : Ctx :=
  match st.lane with
  | none => c
  | some (op, l) =>
    let rd (s : Sel) : Nat := selRead pre a l.fmt st.lit s
    let d := rd l.d
    let out := laneCompute (laneAux pre a) op l.fmt l.sat (laneElems l.fmt d) (laneElems l.fmt (rd l.a))
      (laneElems l.fmt (rd l.b)) l.b.code.toNat (BitVec.ofNat 3072 d)
    let c1 := match out.elems with
      | some es => selWrite c a l.fmt (packLanes (laneElemFmt l.fmt).width es) l.d
      | none => c
    let c2 := match out.flags with
      | some f => { c1 with micro := { c1.micro with flags := f, count := laneCount l.fmt } }
      | none => c1
    if a.rom && a.cls = 1 && out.fp.bits != 0 then c2.setCreg 0x031 (c2.creg 0x031 ||| BitVec.ofNat 64 out.fp.bits)
    else c2

/-- The AGU field's effect: a load is on its way or lands at once, a store is done or enters the outbound path (R171). -/
def aguEffect (s : State) (core : Nat) (pre : Ctx) (r : Routine) (st : Stitch) (step : Nat) :
    State × List MicroLoad :=
  match st.agu with
  | none => (s, [])
  | some (op, u) =>
    let p := aguPlan core pre r.args op u
    let acc := p.access
    if op = 1 ∨ op = 3 then
      let raw := match hbmReady r with
        | some o => o.data
        | none => s.bytes (s1Place core p.addr) p.len
      (s, [{ due := if p.hbm then step else step + 4, sel := u.reg, fmt := u.fmt,
             data := aguLoaded s core pre p u.fmt raw }])
    else
      let v := aguStored core pre r.args p u.fmt (selRead pre r.args u.fmt st.lit u.reg)
      let s1 := s.setCtx core r.plat ((s.ctx core r.plat).drawNow s.now r.args.seed 4 v.drawn)
      if p.hbm then (s1.sendOut core r.plat .w acc v.bytes .none none none, [])
      else
        let s2 := s1.store (s1Place core p.addr) v.bytes
        (if v.scales.isEmpty then s2
         else (p.scaleRun core pre).foldl (fun t q => t.store (s1Place core q.1) v.scales) s2, [])

/-- CLD, RPOP and the clamp of NEGCHK (R173). -/
def miscEffect (pre : Ctx) (a : RoutineArgs) (st : Stitch) (c : Ctx) : Ctx :=
  let c1 := if st.rpop then { c with queue := c.queue.tail } else c
  let c2 := if st.negchk && (negElemAt st.neg.fmt (selRead pre a st.neg.fmt st.lit st.neg.a)).isSome then
      c1.setCreg 0x041 (c1.creg 0x041 ||| 1#64) else c1
  match st.cld with
  | some n => { c2 with regs := c2.regs.setN n.toNat (BitVec.ofNat 16 (match st.lit with | some v => v.toNat | none => a.k)) }
  | none => c2

/-- The effects of a stitch that has passed its checks, at the end of its step (R160). -/
def stitchEffects (s : State) (core : Nat) (r : Routine) (st : Stitch) : State :=
  let pre := s.ctx core r.plat
  let step := pre.micro.steps + 1
  let upc := pre.micro.pc
  let c1 := miscEffect pre r.args st (laneEffect pre r.args st (seqStep pre upc st.seq))
  let k := s.core core
  let c2 := match st.tile with
    | some (op, t) => if op = 2 then
        match k.tileRows r.plat r.args.bind.half op t with
        | row :: _ => selWrite c1 r.args .pair (packLanes 32 ((k.accRow t.plane.toNat row).map BitVec.toNat)) t.b
        | [] => c1
      else c1
    | none => c1
  let k1 := match st.tile with
    | some (op, t) => tileWrite k r.plat r.args.bind.half op t (selRead pre r.args t.fmt st.lit t.a)
        (selRead pre r.args .pair st.lit t.b)
    | none => k
  let s1 := (s.setCore core k1).setCtx core r.plat { c2 with micro := { c2.micro with steps := step } }
  let (s2, new) := aguEffect s1 core pre r st step
  let loads := r.loads ++ new
  let stop := match st.seq with | .stop => true | _ => false
  let due := loads.filter (fun l => l.due ≤ step || stop)
  let c3 := (s2.ctx core r.plat).landLoads r.args due
  let s3 := s2.setCtx core r.plat c3
  let r1 := { r with loads := loads.filter (fun l => !(l.due ≤ step || stop)), stalled := false, waitHbm := none,
                     next := s.now + 1, ended := r.ended || stop }
  s3.setCore core { (s3.core core) with routine := some r1 }

/-- A micro load from HBM begins: its access is on its way (R160, R233). -/
def startHbm (s : State) (core : Nat) (r : Routine) (p : AguPlan) : State :=
  let c := s.ctx core r.plat
  let acc := p.access
  let ps := acc.pieces core c
  let o : Outbound := { id := c.nextId, cls := .r, addr := p.addr, waits := c.fenceWaits .r, pieces := ps,
                        data := List.replicate p.len 0#8, dest := .none, amo := none, poison := none }
  let s1 := s.setCtx core r.plat { c with nextId := c.nextId + 1 }
  s1.setCore core { (s1.core core) with routine := some { r with waitHbm := some o } }

/-- The fault value of a stitch's RAISE (R303): the micro address for FRES, the bound for STEPS; R303's table gives a
RAISE of the other codes no value (log entry 11). -/
def raiseValue (c : Ctx) (r : Routine) (code : Nat) : Nat :=
  if code = cFRES then c.micro.pc
  else if code = cSTEPS then r.args.bind.bound
  else (Config.raiseValue code c.micro.pc).toNat

/-- Random bytes that a stitch's STC takes (R146). -/
def stcDraws (core : Nat) (c : Ctx) (r : Routine) (st : Stitch) : Nat :=
  match st.agu with
  | some (op, u) => if op = 4 then
      (aguStored core c r.args (aguPlan core c r.args op u) u.fmt (selRead c r.args u.fmt st.lit u.reg)).drawn else 0
  | none => 0

/-- The end of a step: the late checks, the wait for a random word or a place in the outbound path, RAISE, else the
effects (R160, R163, R175). -/
def stitchFinish (s : State) (core : Nat) (r : Routine) (st : Stitch) : StitchOut :=
  let c := s.ctx core r.plat
  match stitchLate s core c r st with
  | some (code, v) => .fault code v
  | none =>
    if st.rpop && c.queue.isEmpty then .stall s
    else if (r.args.bind.hbm || r.args.bind.rand) && !c.hasUnits r.args.seed 4 (stcDraws core c r st) then
      .stall (s.setCtx core r.plat (c.ask s.now r.args.seed 4 (stcDraws core c r st)))
    else
      match st.seq with
      | .raise k code =>
        if condHolds c k then .fault (code.toNat % 256) (raiseValue c r (code.toNat % 256))
        else .done (stitchEffects s core r st)
      | _ => .done (stitchEffects s core r st)

/-- One step of the routine of a core on a fetched stitch: its checks, a stall, or its effects (R160, R175). A stitch that
loads from HBM waits for its data, whose HWERR comes before the checks of steps 7 and 8. -/
def stitchStep (s : State) (core : Nat) (r : Routine) (f : Fetched) : StitchOut :=
  let c := s.ctx core r.plat
  if r.args.bind.bound ≤ c.micro.steps then .fault cSTEPS r.args.bind.bound
  else
    match f with
    | none => .fault cMICRO (Config.noFieldValue c.micro.pc).toNat
    | some (st, bad) =>
      match stitchFault s core c r st bad with
      | some (code, v) => .fault code v
      | none =>
        match st.agu with
        | some (op, u) =>
          let p := aguPlan core c r.args op u
          if p.hbm && (op = 1 ∨ op = 3) then
            match r.waitHbm with
            | none => .stall (startHbm s core r p)
            | some o =>
              if !o.pieces.isEmpty then .stall s
              else match o.poison with
                | some (v, code) => .fault code v
                | none => stitchFinish s core r st
          else if p.hbm && 32 ≤ c.outLive.length then .stall s
          else stitchFinish s core r st
        | none => stitchFinish s core r st

/-- A stitch faults: loads in flight land, the routine leaves the sequencer, and the exception is taken with the micro
state (R176, R308); an HWERR of own S1 sets its line's poison bit (R208, R209), a RAISE of TRAP counts its step (R163), and the
predicates kept are those that the bundle read. After a HALT that issued beside the routine the fault is discarded (R391). -/
def State.microFault (s0 : State) (core : Nat) (r : Routine) (code value : Nat) (raised : Bool) : State :=
  let s := if raised then s0 else s0.meetFault core code value
  let c := s.ctx core r.plat
  let c1 := c.landLoads r.args r.loads
  let c2 := { c1 with
    micro := { c1.micro with steps := if raised && code = cTRAP then c1.micro.steps + 1 else c1.micro.steps }
    saved := some { r.args with own := c.pending.filter (fun g => !r.waiting.contains g) } }
  let s1 := s.setCtx core r.plat c2
  let k := s1.core core
  let s2 := s1.setCore core { k with routine := none, nextIssue := if c.haltPending then max (s.now + 1) (r.start + 3) else s.now + 1 }
  if c.haltPending then s2
  else s2.takeFault core r.plat ⟨code, r.args.slot, value, r.mpc, some (c.micro.pc)⟩
    { c2.capture [] (doneBut r.args.slot) with preds := BitVec.ofNat 16 r.args.preds } r.start

/-- A stitch's RAISE faults. -/
def isRaise (f : Fetched) (c : Ctx) (code : Nat) : Bool :=
  match f with
  | some (st, _) => match st.seq with
    | .raise k cd => condHolds c k && cd.toNat % 256 = code
    | _ => false
  | none => false

/-- The cycle of a routine: a step, a stall or a fault. -/
def State.microCycle (s : State) (core : Nat) (r : Routine) (f : Fetched) : State :=
  match stitchStep s core r f with
  | .done s1 => s1
  | .stall s1 =>
    let k := s1.core core
    s1.setCore core { k with routine := k.routine.map (fun r =>
      { r with stall := r.stall + 1, stalled := true, next := s.now + 1 }) }
  | .fault code v => s.microFault core r code v (isRaise f (s.ctx core r.plat) code)

end Sys2Proof.Machine
end

