-- ==== Sys2Proof/Machine/Routines.lean ====
section
/-! DEFINITION. The slot instructions that start routines: the base instructions of R90 with their ROM routines (R179), bound
instructions (R127, R157, R159), and the regions of AXENTER and AXLEAVE with their surrogates (R269, R270, R277, R278,
R280, R369 to R372). -/
namespace Sys2Proof.Machine

/-! ## Base instructions with a ROM routine (R90, R179) -/

/-- The binding of a ROM routine: every group, no half, neither HBM nor random words. -/
def romBinding (start bound : Nat) : Binding :=
  { cls := 1, code := 0, start := start, bound := bound, groups := 15, half := 0, hbm := false, rand := false }

/-- Operands of a ROM routine: P0 the destination and P1 the source. -/
def romOperands (slot : SlotId) (p0 p1 start bound : Nat) : RoutineArgs :=
  { slot := slot.num, cls := 1, p0 := p0, p1 := p1, p2 := 0, p3 := 0, k := 0, fmt := 0, rm := 0, sat := false, pl := 0,
    acc := false, bind := romBinding start bound, region := none, rom := true, own := [], seed := 0, preds := 0 }

/-- Start a routine of the bundle's own (R90, R160). -/
def Env.start (e : Env) (s : State) (args : RoutineArgs) (n1 : Nat) : State :=
  s.startRoutine e.core e.plat { args with seed := e.c.seeds, preds := e.c.predBits } n1 (args.bind.bound + 1) e.word e.c.pending
    e.mpc e.hdr.sp

def romSem (d a start bound : Nat) : SlotSem :=
  plain (fun e s => .done (e.start s (romOperands e.slot d a start bound) 0))

def slotVrcp (vd va : BitVec 11) : SlotSem := romSem vd.toNat va.toNat 0x1000 9
def execVrcp (g : Guard) (vd va : BitVec 11) (s : State) : Host.Outcome State Fault Refusal :=
  issueAlone (.vrcp g vd va) (slotVrcp vd va) s

def slotVrsq (vd va : BitVec 11) : SlotSem := romSem vd.toNat va.toNat 0x1010 11
def execVrsq (g : Guard) (vd va : BitVec 11) (s : State) : Host.Outcome State Fault Refusal :=
  issueAlone (.vrsq g vd va) (slotVrsq vd va) s

def slotVexp (vd va : BitVec 11) : SlotSem := romSem vd.toNat va.toNat 0x1020 13
def execVexp (g : Guard) (vd va : BitVec 11) (s : State) : Host.Outcome State Fault Refusal :=
  issueAlone (.vexp g vd va) (slotVexp vd va) s

def slotVlog (vd va : BitVec 11) : SlotSem := romSem vd.toNat va.toNat 0x1040 15
def execVlog (g : Guard) (vd va : BitVec 11) (s : State) : Host.Outcome State Fault Refusal :=
  issueAlone (.vlog g vd va) (slotVlog vd va) s

def slotVtanh (vd va : BitVec 11) : SlotSem := romSem vd.toNat va.toNat 0x1050 17
def execVtanh (g : Guard) (vd va : BitVec 11) (s : State) : Host.Outcome State Fault Refusal :=
  issueAlone (.vtanh g vd va) (slotVtanh vd va) s

def slotVsigm (vd va : BitVec 11) : SlotSem := romSem vd.toNat va.toNat 0x1068 17
def execVsigm (g : Guard) (vd va : BitVec 11) (s : State) : Host.Outcome State Fault Refusal :=
  issueAlone (.vsigm g vd va) (slotVsigm vd va) s

def slotMrelu (md ma : BitVec 8) : SlotSem := romSem md.toNat ma.toNat 0x1080 23
def execMrelu (g : Guard) (md ma : BitVec 8) (s : State) : Host.Outcome State Fault Refusal :=
  issueAlone (.mrelu g md ma) (slotMrelu md ma) s

def slotMexp (md ma : BitVec 8) : SlotSem := romSem md.toNat ma.toNat 0x10A0 19
def execMexp (g : Guard) (md ma : BitVec 8) (s : State) : Host.Outcome State Fault Refusal :=
  issueAlone (.mexp g md ma) (slotMexp md ma) s

/-- MCOLL: MV and MSD write two vectors, SAMPLE runs NSAMPLE (R263). -/
def slotMcoll (mode : CollMode) (vd : BitVec 11) (ma : BitVec 8) : SlotSem :=
  match mode with
  | .mv => collapse false vd ma
  | .msd => collapse true vd ma
  | .sample => romSem vd.toNat ma.toNat 0x10C0 2
def execMcoll (g : Guard) (mode : CollMode) (vd : BitVec 11) (ma : BitVec 8) (s : State) :
    Host.Outcome State Fault Refusal := issueAlone (.mcoll g mode vd ma) (slotMcoll mode vd ma) s

/-! ## Bound instructions (R127, R157, R159) -/

/-- The operands of a bound instruction from slot bits [79:14] (R127). -/
def boundOperands (slot : SlotId) (cls : BoundClass) (raw : BitVec 66) (b : Binding) : RoutineArgs :=
  let f (hi lo : Nat) : Nat := field raw.toNat (hi - 14) (lo - 14)
  let z : RoutineArgs := { slot := slot.num, cls := BoundClass.num cls, p0 := 0, p1 := 0, p2 := 0, p3 := 0, k := 0,
                           fmt := 0, rm := 0, sat := false, pl := 0, acc := false, bind := b, region := none, rom := false,
                           own := [], seed := 0, preds := 0 }
  match cls with
  | .a => { z with p0 := f 18 14, p1 := f 23 19, p2 := f 34 24, p3 := f 45 35, k := f 63 46 }
  | .v => { z with p0 := f 27 17, p1 := f 38 28, p2 := f 49 39, p3 := f 60 50, k := f 79 64, fmt := f 16 14,
                   rm := f 62 61, sat := f 63 63 = 1 }
  | .t => { z with p0 := f 20 16, p1 := f 25 21, p2 := f 31 26, p3 := f 50 40, k := f 79 64, pl := f 15 14,
                   acc := f 36 36 = 1 }

/-- A bound instruction starts its binding's routine; it blocks while an outstanding move of the context lies in a group of
the binding (R159, R430). -/
def slotBound (cls : BoundClass) (code : BitVec 6) (raw : BitVec 66) : SlotSem :=
  { block := fun e s => match e.c.binding cls code with
      | some b => if e.c.moveInGroups e.core b.groups then some (.moveConflict, s) else none
      | none => none
    run := fun e s => match e.c.binding cls code with
      | some b => .done (e.start s (boundOperands e.slot cls raw b) 0)
      | none => .fault cUNBOUND (0xC0 + code.toNat) }

def execBoundInstruction (g : Guard) (cls : BoundClass) (code : BitVec 6) (raw : BitVec 66) (s : State) :
    Host.Outcome State Fault Refusal := issueAlone (.boundInstruction g cls code raw) (slotBound cls code raw) s

/-! ## Surrogate networks (R184, R272, R278, R280) -/

/-- Bytes of one buffer of a region (R280). -/
def layerBytes (nIn nOut : Nat) : Nat := ceilDiv nOut 96 * (384 + 768 * ceilDiv nIn 2)
def denseBytes : List Nat → Nat
  | a :: b :: t => layerBytes a b + denseBytes (b :: t)
  | _ => 0
def RegionDesc.bufBytes (d : RegionDesc) : Nat := if d.elem then 384 else denseBytes d.sizes

/-- The surrogate's bound (R179, R184). -/
def denseBound : List Nat → Nat
  | a :: b :: t => ceilDiv a 2 * ceilDiv b 96 + 16 + denseBound (b :: t)
  | _ => 0
def RegionDesc.bound (d : RegionDesc) : Nat := if d.elem then 40 else 16 + denseBound d.sizes

/-- The hidden width h of ELEM(h). -/
def RegionDesc.width (d : RegionDesc) : Nat := d.sizes.headD 1

/-- AXWIN.SWBASE and SWLEN in bytes (R279). -/
def Ctx.swBase (c : Ctx) : Nat := ((c.creg 0x081).extractLsb' 0 17).toNat * 64
def Ctx.swLen (c : Ctx) : Nat := ((c.creg 0x081).extractLsb' 32 17).toNat * 64

/-- The offset in the surrogate window of a region's buffer (R280). -/
def Ctx.bufOff (c : Ctx) (d : RegionDesc) (buf : Nat) : Nat :=
  (((c.descs.filter (fun o => o.id < d.id)).map (fun o => 2 * o.bufBytes)).foldl (· + ·) 0) + buf * d.bufBytes

/-- The region's buffers fit within SWLEN (R280). -/
def Ctx.fits (c : Ctx) (d : RegionDesc) : Bool := c.bufOff d 0 + 2 * d.bufBytes ≤ c.swLen

/-- ELEM on 96 F32 lanes, from its buffer's 96 values (R170, R184). -/
def elemRun (buf : Vec) (h : Nat) (xs : List Nat) : List Nat :=
  (List.range h).foldl (fun ys k => (ys.zip xs).map (fun p => netuElem buf k p.1 p.2))
    (xs.map (fun _ => lane buf.toNat 0 32))

/-- One layer of DENSE: outputs of a block of 96 share a bias row and rows of weights by input pair (R184, R280). -/
def denseLayer (w : Nat → Nat) (base nIn nOut : Nat) (relu : Bool) (xs : List Nat) : List Nat :=
  let pairs := ceilDiv nIn 2
  let val (i : Nat) : FVal := f32Val (xs.getD i 0)
  (List.range nOut).map (fun o =>
    let off := base + o / 96 * (96 + 192 * pairs)
    let fma (z x : FVal) (i : Nat) : FVal := rneF32 (((f32Val (w i)).mul x).add z)
    let r := (List.range pairs).foldl (fun (acc : FVal × FVal) p =>
      (fma acc.1 (val (2 * p)) (off + 96 + 192 * p + o % 96), fma acc.2 (val (2 * p + 1)) (off + 192 + 192 * p + o % 96)))
      (f32Val (w (off + o % 96)), FVal.zero)
    let y := rneF32Bits (r.1.add r.2)
    if relu then maxElem .f32 y 0 else y)

/-- DENSE on F32 inputs; `w` gives the words of its buffer. -/
def denseRun (w : Nat → Nat) (base : Nat) : List Nat → List Nat → List Nat
  | a :: b :: t, xs =>
    let ys := denseLayer w base a b (!t.isEmpty) xs
    denseRun w (base + layerBytes a b / 4) (b :: t) ys
  | _, xs => xs

/-- Lanes 0 to n − 1 of a register as BF16, widened to F32 bits (R272). -/
def bf16Lanes (n : Nat) (v : Vec) : List Nat := (lanes n 16 v.toNat).map (· * 65536)

/-- F32 bits rounded to BF16 lanes (R280). -/
def packBf16 (ys : List Nat) : Vec := vecOf 16 (ys.map (fun y => (convertElem .f32 .bf16 .rne false y).1))

/-- The stitch of a routine's micro address: DENSE's is that of the program of its region's layers; without a region there
are no layers and its addresses hold no stitch (R179, R184, log entry 13). -/
def Ctx.stitchAt (c : Ctx) (a : RoutineArgs) : Fetched :=
  if c.micro.pc < 0x1100 then fetchStitch c c.micro.pc
  else
    match a.region.bind (fun id => c.descs.find? (·.id = id)) with
    | some d => if d.elem then none else (denseProgram d.sizes)[c.micro.pc - 0x1100]?.map (fun st => (st, []))
    | none => none

/-- A cycle of a core's routine. -/
def State.routineCycle (s : State) (core : Nat) (r : Routine) : State :=
  s.microCycle core r ((s.ctx core r.plat).stitchAt r.args)

/-! ## Regions (R269 to R278, R369 to R372) -/

/-- The key of a region entry: world and id (R266). -/
def regionKey (world id : Nat) : Nat := world * 64 + id

def Ctx.desc (c : Ctx) (id : Nat) : Option RegionDesc := c.descs.find? (·.id = id)

def RegionLocal.fresh : RegionLocal := ⟨0, 0, 0, none, 0, 0, 0, []⟩
def Ctx.region (c : Ctx) (id : Nat) : RegionLocal := SMap.get RegionLocal.fresh c.regions id
def Ctx.setRegion (c : Ctx) (id : Nat) (l : RegionLocal) : Ctx := { c with regions := SMap.put c.regions id l }

/-- The inputs of an instance, as F32 bits: 96 lanes of ELEM, n_in lanes of DENSE (R272). -/
def RegionDesc.inputs (d : RegionDesc) (v : Vec) : List Nat :=
  if d.elem then lanes 96 32 v.toNat else bf16Lanes (d.sizes.headD 0) v

/-- Every input lies in the latched box and is no NaN (R274, R277). -/
def inBox (d : RegionDesc) (box : List (Nat × Nat)) (xs : List Nat) : Bool :=
  xs.zipIdx.all (fun p =>
    match box[if d.elem then 0 else p.2]? with
    | some (lo, hi) => (f32Val lo).le (f32Val p.1) && (f32Val p.1).le (f32Val hi)
    | none => false)

/-- The local view after its buffers have been compared: a complete newer version becomes active (R281). -/
def RegionLocal.flip (l : RegionLocal) : RegionLocal :=
  if l.active = 0 then (if l.ver0 < l.ver1 then { l with active := 1 } else l)
  else (if l.ver1 < l.ver0 then { l with active := 0 } else l)

/-- AXCFG.AXEN (R279). -/
def Ctx.axen (c : Ctx) : Bool := (c.creg 0x080).getLsbD 16

/-- Ask the die's engine (R267, R277). -/
def State.askEngine (s : State) (core plat : Nat) (c : Ctx) (id kind : Nat) : State :=
  let d := s.die (dieOf core)
  s.setDie (dieOf core) { d with requests := d.requests ++
    [{ core := core, plat := plat, ctxid := c.ctxid, world := c.world, id := id,
       hash := (s.images.find? (·.addr = c.image)).elim 0 (·.hash), cfg := c.creg 0x080, desc := c.desc id, kind := kind }] }

/-- Operands of a surrogate routine (R184, R278). -/
def surrogateOperands (d : RegionDesc) (k : Nat) : RoutineArgs :=
  { slot := 1, cls := 0, p0 := d.output, p1 := d.input, p2 := 0, p3 := 0, k := k, fmt := 0, rm := 0, sat := false, pl := 0,
    acc := false, bind := romBinding (if d.elem then 0x10C8 else 0x1100) d.bound, region := some d.id, rom := true, own := []
    seed := 0, preds := 0 }

/-- AXENTER: the region opens; the instance substitutes or runs truly (R269, R277, R278, R369, R370). An id that the image
does not declare is an assembly error (R125) without a run-time effect in the spec: the region opens with a latched input of
0, unobserved, and the fitting engine is not asked (log entry 27). A DENSE surrogate has no h for R159's n1 = h − 1: it starts
with n1 = 0 (log entry 13). -/
def Env.axenter (e : Env) (s : State) (id : Nat) (off : BitVec 16) : State :=
  let c := e.c
  let xfer (taken : Bool) (st : State) : State :=
    e.upd st (fun c => { c with flow := { c.flow with xfer := some ⟨wrap (e.mpc + off.toInt) 64, taken, 3, false⟩ } })
  match c.desc id with
  | none => xfer false (e.upd s (fun c => { c with latch := some ⟨id, 0, false, false⟩ }))
  | some d =>
    let input : Vec := BitVec.ofNat 3072 (c.operand (.v d.input))
    let open_ (observed sampled : Bool) (st : State) : State :=
      xfer false (e.upd st (fun c => { c with latch := some ⟨id, input, observed, sampled⟩ }))
    if !c.axen then open_ false false s
    else
      let s1 := s.askEngine e.core e.plat c id 0
      let l := c.region id
      if l.state = 3 then
        let c1 := l.counter
        let sampled := c1 % 2 ^ d.rate = 2 ^ d.rate - 1
        let boxed := inBox d l.box (d.inputs input)
        let l1 := { l with counter := c1 + 1 }
        if !boxed then open_ true false (e.upd s1 (fun c => c.setRegion id l1))
        else if sampled then open_ true true (e.upd s1 (fun c => c.setRegion id l1))
        else if !c.fits d then open_ true false (e.upd s1 (fun c => c.setRegion id l1))
        else
          let l2 := l1.flip
          let k := (c.swBase + c.bufOff d l2.active) / 64
          let s2 := xfer true (e.upd s1 (fun c => { c.setRegion id l2 with latch := none }))
          e.start s2 (surrogateOperands d k) (if d.elem then d.width - 1 else 0)
      else open_ (l.state != 5) false s1

def slotAxenter (id : BitVec 6) (off : BitVec 16) : SlotSem := plain (fun e s => .done (e.axenter s id.toNat off))
def execAxenter (g : Guard) (id : BitVec 6) (off : BitVec 16) (s : State) : Host.Outcome State Fault Refusal :=
  issueAlone (.axenter g id off) (slotAxenter id off) s

/-- AXLEAVE: an observed instance's pairs are on their way from the next cycle, and the region closes (R270, R510). -/
def Env.axleave (e : Env) (s : State) : State :=
  let c := e.c
  match c.latch with
  | none => s
  | some l =>
    let s1 := e.upd s (fun c => { c with latch := none })
    match (if l.observed then c.desc l.id else none) with
    | none => s1
    | some d =>
      let n := dieOf e.core
      let die := s1.die n
      s1.setDie n { die with delivering := die.delivering ++
        [{ core := e.core, plat := e.plat, world := c.world, id := l.id
           hash := (s.images.find? (·.addr = c.image)).elim 0 (·.hash), elem := d.elem
           input := l.input, output := BitVec.ofNat 3072 (c.operand (.v d.output)), sampled := l.sampled, sent := 0,
           since := e.now + 1 }] }

def slotAxleave : SlotSem := plain (fun e s => .done (e.axleave s))
def execAxleave (g : Guard) (s : State) : Host.Outcome State Fault Refusal := issueAlone (.axleave g) slotAxleave s

end Sys2Proof.Machine
end

