-- ==== Sys2Proof/Machine/Tile.lean ====
section
/-! DEFINITION. The T slot: operands in S1 (R152 to R154, R196 to R198, R240, R241), matrix products (R238 to R245), TZERO
(R246), TDRAIN (R247), TFILL (R248), owners and the block for a spill (R249 to R251), poison (R210). -/
namespace Sys2Proof.Machine

/-! ## Operand formats (R152, R153) -/

/-- k of an operand format (R152). -/
def fmtK (code : Nat) : Nat :=
  if code = 3 ∨ code = 14 then 1 else if code = 2 then 2
  else if code = 7 ∨ code = 10 then 8 else 4

/-- The tile engine takes the format as an operand at all; `moment` is TMMM (R153). -/
def operandOk (moment : Bool) (code : Nat) : Bool :=
  if moment then code = 2 || code = 14
  else (2 ≤ code && code ≤ 11)

/-- The pair is admitted (R153). -/
def pairOk (moment : Bool) (a b : Nat) : Bool :=
  operandOk moment a && operandOk moment b && ((a = 11) == (b = 11))

/-- Bytes of a run of elements of a format (R240). -/
def runBytes (code n : Nat) : Nat := if isBlockFmt code then ceilDiv n 32 * blockBytes code else n * elemBytes code

/-! ## Operands in S1 (R197, R240) -/

/-- An operand: its rows by address and length, and its format. -/
structure TileOperand where
  /-- address of element group i: of row i, or of a replayed row's first element -/
  rows : List Nat
  len : Nat
  bfmt : Nat
  /-- the replay's column offsets: the byte offset of K element kk, none for packed elements -/
  chunk : Option (List Int)
  deriving DecidableEq, Repr, Inhabited

/-- The BFMT of the bank that holds an address; RAW beyond own S1. -/
def tileFmt (core : Nat) (c : Ctx) (addr : Nat) : Nat := if isOwn core addr then c.bfmt (bankOf addr) else 0

/-- An operand of n rows of k elements from an address register (R240). -/
def packedOperand (core : Nat) (c : Ctx) (a : Word) (n k : Nat) : TileOperand :=
  let f := tileFmt core c (addrOf a)
  let len := runBytes (fmtCode f) k
  let pitch := if pitchOf a = 0 then len else 64 * pitchOf a
  { rows := (List.range n).map (fun r => addrOf a + r * pitch), len := len, bfmt := f, chunk := none }

/-- The lowest byte and the end of an operand's span. -/
def TileOperand.span (o : TileOperand) : Nat × Nat := (o.rows.min?.getD 0, (o.rows.max?.getD 0) + o.len)

/-- The element bits of element kk of row r, with its block's scale code (R135, R136, R240). -/
def TileOperand.elem (o : TileOperand) (s : State) (core r kk : Nat) : Nat × Nat :=
  let code := fmtCode o.bfmt
  let base := o.rows.getD r 0
  let start : Int := match o.chunk with
    | some l => base + l.getD kk 0
    | none => base
  let k := match o.chunk with | some _ => kk % 32 | none => kk
  let at0 : Nat := start.toNat
  if isBlockFmt code then
    let blk := at0 + (match o.chunk with | some _ => 0 | none => k / 32 * blockBytes code)
    let w := blockWidth code
    let word := s.word (s1Place core blk) (blockBytes code)
    (lane word (k % 32) w,
      s.word (s1Place core (blk / 0x20000 * 0x20000 + scaleOff o.bfmt (blk % 0x20000))) 1)
  else
    let n := elemBytes code
    (s.word (s1Place core (match o.chunk with | some _ => at0 | none => at0 + n * k)) n, 127)

/-- val of R154. -/
def elemVal (code : Nat) (e : Nat × Nat) : FVal :=
  if isBlockFmt code then blockVal code e.2 e.1 else (fmtElem code).val e.1

/-! ## Checks of operands (R192, R198, R241, R247) -/

/-- Own-S1 rows outside the windows: the lowest address. -/
def rowsOutside (core : Nat) (c : Ctx) (rows : List (Nat × Nat)) : Option Nat :=
  ((rows.flatMap (fun r => linePoints r.1 r.2)).filter (fun p => !isOwn core p || !inBwin (c.creg 0x020) p)).min?

/-- Banks of a span hold different BFMT values. -/
def mixedBanks (c : Ctx) (sp : Nat × Nat) : Bool :=
  (List.range 64).any (fun b => overlaps sp (b * 0x20000, (b + 1) * 0x20000) && c.bfmt b != c.bfmt (bankOf sp.1))

/-- Rows cut at bank boundaries: each bank has its own scale array (R136). -/
def rowBanks (rows : List (Nat × Nat)) : List (Nat × Nat) := rows.flatMap (fun r => bankRuns (r.2 / 0x20000 + 2) r.1 r.2)

/-- The scale byte of some block of the rows lies beyond the end of its bank, or a written row overlaps the scale array
(R136). -/
def rowsScaleBad (f : Nat) (rows : List (Nat × Nat)) (written : Bool) : Bool :=
  (rowBanks rows).any (fun r => scaleBad f (r.1 % 0x20000) r.2 written)

/-- The scale codes of rows, where they lie in their banks. -/
def rowScales (f : Nat) (rows : List (Nat × Nat)) : List (Nat × Nat) :=
  ((rowBanks rows).filter (fun r => !scaleBad f (r.1 % 0x20000) r.2 false)).flatMap (fun r => scaleRun f r.1 r.2)

/-- The lowest address of a span beyond the group that its first byte lies in. -/
def secondGroup (sp : Nat × Nat) : Option Nat :=
  if groupOf sp.1 = groupOf (sp.2 - 1) then none else some ((groupOf sp.1 + 1) * 0x200000)

/-- A span in a claimed group: its first address there. -/
def claimedAt (s : State) (core : Nat) (sp : Nat × Nat) : Option Nat :=
  if s.claimed core (groupOf sp.1) then some sp.1 else none

/-- WINDOW, ALIGN of blocks, FORM of the rows of a tile path (R192); `used` says which lines of the rows are read or written. -/
def tileAccessFault (s : State) (core : Nat) (c : Ctx) (rows : List (Nat × Nat)) (f : Nat) (wr : Bool) (used : Nat → Bool) :
    Option (Nat × Nat) :=
  let acc : Access := { spans := rows ++ rowScales f rows, align := 0, aligned := [], rd := !wr, wr := wr, amo := false,
                        mst := false, vec := true, claim := false, hwRd := false, hwWr := false }
  match rowsOutside core c rows with
  | some v => some (cWINDOW, v)
  | none =>
  match (if isBlockFmt (fmtCode f) then
      (((rowBanks rows).map (·.1)).filter (fun a => a % 0x20000 % blockBytes (fmtCode f) != 0)).min? else none) with
  | some v => some (cALIGN, v)
  | none => ((acc.formPoints s core c).filter used).min?.map (fun v => (cFORM, v))

def TileOperand.runs (o : TileOperand) : List (Nat × Nat) := o.rows.map (fun a => (a, o.len))

def minInt (l : List Int) : Int := l.foldl (fun a b => if b < a then b else a) (l.headD 0)
def maxInt (l : List Int) : Int := l.foldl (fun a b => if a < b then b else a) (l.headD 0)

/-- The whole span of a replayed operand counts as one run for the checks. -/
def TileOperand.spanRun (o : TileOperand) : TileOperand :=
  match o.chunk with
  | none => o
  | some l =>
    let lo := ((o.rows.min?.getD 0 : Nat) + minInt l : Int).toNat
    let hi := ((o.rows.max?.getD 0 : Nat) + maxInt l : Int).toNat
    { o with rows := [lo], len := (hi + o.len - 1) / 64 * 64 + 64 - lo }

/-- The operand reads bytes or scale codes of the line of an address: of a replayed one only some lines of its span (R197). -/
def TileOperand.readsLine (o : TileOperand) (p : Nat) : Bool :=
  match o.chunk with
  | none => true
  | some l => o.rows.any (fun r => l.any (fun off =>
      let a := ((r : Int) + off).toNat
      overlaps (p / 64 * 64, p / 64 * 64 + 64) (a, a + o.len) || (isBlockFmt (fmtCode o.bfmt) && scaleAddr o.bfmt a / 64 = p / 64)))

/-- Runs by their first bytes and ends. -/
def ends (rs : List (Nat × Nat)) : List (Nat × Nat) := rs.map (fun r => (r.1, r.1 + r.2))

/-- The runs of S1 that an operand takes up: its span and its scale codes (R430, R445). -/
def TileOperand.touched (o : TileOperand) : List (Nat × Nat) := o.span :: ends (rowScales o.bfmt o.runs)

/-- The checks of R241 on both operands, the replay's in place of the A operand's (R198): fault code and value. -/
def operandFault (s : State) (core : Nat) (c : Ctx) (moment : Bool) (a0 b : TileOperand) : Option (Nat × Nat) :=
  let a := a0.spanRun
  let ca := fmtCode a.bfmt
  let cb := fmtCode b.bfmt
  let value := ca + 16 * cb
  match tileAccessFault s core c a.runs a.bfmt false a0.readsLine with
  | some e => some e
  | none =>
    if mixedBanks c a.span || rowsScaleBad a.bfmt a.runs false || !operandOk moment ca ||
        (a.chunk.isSome && !pairOk moment ca cb) then some (cFMT, value)
    else
    match secondGroup a.span with
    | some v => some (cBANKCONF, v)
    | none =>
    match (if a.chunk.isSome && groupOf a.span.1 = groupOf b.span.1 then some a.span.1 else claimedAt s core a.span) with
    | some v => some (cBANKCONF, v)
    | none =>
    match tileAccessFault s core c b.runs b.bfmt false b.readsLine with
    | some e => some e
    | none =>
      if mixedBanks c b.span || rowsScaleBad b.bfmt b.runs false || !pairOk moment ca cb then some (cFMT, value)
      else
      match secondGroup b.span with
      | some v => some (cBANKCONF, v)
      | none =>
        if groupOf a.span.1 = groupOf b.span.1 then some (cBANKCONF, b.span.1)
        else (claimedAt s core b.span).map (fun v => (cBANKCONF, v))

/-! ## Shapes (R238, R239) -/

/-- A matrix instruction's shape; `blocks` and the block's rows and columns are those of TMMB. -/
structure Shape where
  m : Nat
  n : Nat
  k : Nat
  blocks : Nat
  bm : Nat
  bn : Nat
  deriving DecidableEq, Repr, Inhabited

def kceil (kcl : BitVec 4) : Nat := 64 * 2 ^ kcl.toNat

/-- Rows that a platform's T instructions act on (R69). -/
def Core.rowsOf (k : Core) : Nat := if k.split then 48 else 96

/-- K as its field gives it. -/
def shapeK (x : Word) : Nat :=
  let k := (x.extractLsb' 16 16).toNat
  if k = 0 then 65536 else k

/-- The shape of TMMA, TMMM and TZERO; none where it is SHAPE. -/
def shapeA (rows : Nat) (kmax : Option Nat) (x : Word) : Option Shape :=
  let m := (x.extractLsb' 0 8).toNat + 1
  let n := (x.extractLsb' 8 8).toNat + 1
  let kOk : Bool := match kmax with | some l => decide (shapeK x ≤ l) | none => true
  if x.toNat / 2 ^ 32 = 0 ∧ m ≤ rows ∧ n ≤ 192 ∧ kOk then some ⟨m, n, shapeK x, 0, 0, 0⟩ else none

/-- The shape of TMMB. -/
def shapeB (rows : Nat) (kmax : Nat) (x : Word) : Option Shape :=
  let bn := (x.extractLsb' 8 4).toNat + 1
  let bs := (x.extractLsb' 4 4).toNat + 1
  let bm := (x.extractLsb' 0 3).toNat + 1
  if x.toNat / 2 ^ 32 = 0 ∧ (x.extractLsb' 12 4).toNat = 0 ∧ !x.getLsbD 3 ∧ bn ≤ 12 ∧ bs * 6 ≤ rows ∧ bm ≤ 6 ∧
      shapeK x ≤ kmax then
    some ⟨rows, 192, shapeK x, bs, bm, bn⟩
  else none

/-- The cell of a row is updated: columns by row (R243). -/
def Shape.cells (sh : Shape) (tmmb : Bool) (r : Nat) : List Nat :=
  if tmmb then
    (if r / 6 < sh.blocks ∧ r % 6 < sh.bm then (List.range sh.bn).map (fun j => r / 6 * 12 + j) else [])
  else if r < sh.m then List.range sh.n else []

/-! ## Window replay (R197, R198) -/

def replayRow (d : Replay) (i : Nat) : Int := (i % d.cn0 : Nat) * d.st0.toInt + (i / d.cn0 : Nat) * d.st1.toInt

/-- The byte offset of K element kk, or of its block in a block format. -/
def replayCol (d : Replay) (code kk : Nat) : Int :=
  let c := kk % d.ch
  let j := kk / d.ch
  let inner := if isBlockFmt code then c / 32 * blockBytes code else c * elemBytes code
  (j % d.cn2 : Nat) * d.st2.toInt + (j / d.cn2 : Nat) * d.st3.toInt + inner

/-- The replayed A operand: what R198 finds before its formats, or the operand. -/
inductive Replayed where
  | fault (code value : Nat)
  | ok (o : TileOperand)

/-- The lowest address that a replay generates, and the end of the line that holds the highest (R198). -/
def replayEnds (core : Nat) (c : Ctx) (d : Replay) (a : Word) (sh : Shape) : Int × Int :=
  let base : Int := d.base.toNat + addrOf a
  let rows := (List.range sh.m).map (replayRow d)
  let f0 := tileFmt core c (base + minInt rows).toNat
  let cols := (List.range sh.k).map (replayCol d (fmtCode f0))
  let lo := base + minInt rows + minInt cols
  let code := fmtCode (tileFmt core c lo.toNat)
  let unit := if isBlockFmt code then blockBytes code else elemBytes code
  (lo, ((base + maxInt rows + maxInt cols).toNat + unit - 1) / 64 * 64 + 64)

def replayOperand (core : Nat) (c : Ctx) (d : Replay) (a : Word) (x : Word) (sh : Shape) : Replayed :=
  let base : Int := d.base.toNat + addrOf a
  let rows := (List.range sh.m).map (replayRow d)
  let lo := (replayEnds core c d a sh).1
  let stop := (replayEnds core c d a sh).2
  let f := tileFmt core c lo.toNat
  let code := fmtCode f
  let unit := if isBlockFmt code then blockBytes code else elemBytes code
  let chBytes := if isBlockFmt code then d.ch * blockBytes code else 32 * d.ch * elemBytes code
  if d.cn0 * d.cn1 < sh.m ∨ d.ch * d.cn2 * d.cn3 < sh.k then .fault cSHAPE x.toNat
  else if chBytes % 2048 ≠ 0 then .fault cSHAPE (d.ch + d.cn2 * 65536)
  else if lo < 0 then .fault cWINDOW (wrap lo 48)
  else
    match rowsOutside core c [(lo.toNat, (stop - lo).toNat)] with
    | some v => .fault cWINDOW v
    | none =>
      let cols1 := (List.range sh.k).map (replayCol d code)
      .ok { rows := rows.map (fun r => (base + r + minInt cols1).toNat), len := unit, bfmt := f,
            chunk := some (cols1.map (· - minInt cols1)) }

/-! ## Products (R154, R243) -/

/-- Sums of products in beats of k elements; the pair of lists holds the K elements of a row and a column. -/
def dotBeats (fuel k : Nat) (z : F32) (a b : List FVal) : F32 :=
  match fuel with
  | 0 => z
  | f + 1 =>
    match a with
    | [] => z
    | _ :: _ => dotBeats f k (beat z ((a.take k).zipWith FVal.mul (b.take k))) (a.drop k) (b.drop k)

/-- Sums of products of two block formats, 32 elements at a time, each scaled at once (R154). -/
def dotBlocks (fuel ca cb : Nat) (z : F32) (a b : List (Nat × Nat)) : F32 :=
  match fuel with
  | 0 => z
  | f + 1 =>
    match a, b with
    | x :: _, y :: _ =>
      let s := (((a.take 32).zip (b.take 32)).map (fun p => (blockElem ca p.1.1).mul (blockElem cb p.2.1))).foldl FVal.add
        (.fin true 0 0)
      let t := if x.2 = 255 ∨ y.2 = 255 then .nan else s.scale ((x.2 + y.2 : Nat) - (254 : Int))
      dotBlocks f ca cb (BitVec.ofNat 32 (rneF32Bits ((f32Val z.toNat).add t))) (a.drop 32) (b.drop 32)
    | _, _ => z

/-- A cell of TMMA and TMMB. -/
def cellValue (ca cb : Nat) (z : F32) (a b : List (Nat × Nat)) : F32 :=
  if isBlockFmt ca && isBlockFmt cb then dotBlocks a.length ca cb z a b
  else dotBeats a.length (min (fmtK ca) (fmtK cb)) z (a.map (elemVal ca)) (b.map (elemVal cb))

/-- Mean and variance of a TMMM operand element. -/
def momElem (code : Nat) (e : Nat) : FVal × FVal :=
  if code = 14 then (Elem.bf16.val (e % 65536), Elem.bf16.val (e / 65536)) else (Elem.bf16.val e, .zero)

/-- A cell of TMMM in both planes, in ascending kk (R243). -/
def momCell (ca cb : Nat) (z : F32 × F32) (a b : List (Nat × Nat)) : F32 × F32 :=
  (a.zip b).foldl (fun (z : F32 × F32) p =>
    let x := momElem ca p.1.1
    let w := momElem cb p.2.1
    let v := ((x.2.mul w.2).add (x.2.mul (w.1.mul w.1))).add ((x.1.mul x.1).mul w.2)
    (BitVec.ofNat 32 (rneF32Bits ((f32Val z.1.toNat).add (x.1.mul w.1))),
     BitVec.ofNat 32 (rneF32Bits ((f32Val z.2.toNat).add v)))) z

/-! ## Poison (R210) -/

/-- The line of own S1 in which a run of bytes meets poison or an uncorrectable word. -/
def runPoison (s : State) (core addr len : Nat) : Option Nat :=
  ((wordsAt addr len).filter (fun w => s.badWord (s1Place core (w * 8) / 8))).min?.map (fun w => w / 8 * 64)

/-- The poisoned line that element kk of row r lies on, or its block's scale code. -/
def TileOperand.elemPoison (o : TileOperand) (s : State) (core r kk : Nat) : Option Nat :=
  let code := fmtCode o.bfmt
  let base := o.rows.getD r 0
  let a : Nat := match o.chunk with
    | some l => ((base : Int) + l.getD kk 0).toNat
    | none => if isBlockFmt code then base + kk / 32 * blockBytes code else base + kk * elemBytes code
  if isBlockFmt code then
    match runPoison s core a (blockBytes code) with
    | some l => some l
    | none => runPoison s core (scaleAddr o.bfmt a) 1
  else runPoison s core a (elemBytes code)

/-! ## A matrix instruction -/

/-- What a matrix instruction does to the array: planes, accumulation, and whether it is TMMB or TMMM. -/
structure Matrix where
  pl : Plane
  acc : Bool
  tmmb : Bool
  moment : Bool
  kceil : Nat
  deriving DecidableEq, Repr, Inhabited

def planesOf : Plane → List Nat
  | .z0 => [0] | .z1 => [1] | .z01 => [0, 1]

/-- Element lists of row r of A and of column j of B (R240). -/
def rowElems (o : TileOperand) (s : State) (core k r : Nat) : List (Nat × Nat) :=
  (List.range k).map (o.elem s core r)

def colElems (o : TileOperand) (s : State) (core k j : Nat) : List (Nat × Nat) :=
  if isBlockFmt (fmtCode o.bfmt) then (List.range k).map (o.elem s core j)
  else (List.range k).map (fun kk => o.elem s core kk j)

/-- The lowest poisoned line that a row of A, or a column of B, meets. -/
def rowPoison (o : TileOperand) (s : State) (core k r : Nat) : Option Nat :=
  ((List.range k).filterMap (o.elemPoison s core r)).min?
def colPoison (o : TileOperand) (s : State) (core k j : Nat) : Option Nat :=
  if isBlockFmt (fmtCode o.bfmt) then ((List.range k).filterMap (o.elemPoison s core j)).min?
  else ((List.range k).filterMap (fun kk => o.elemPoison s core kk j)).min?

/-- The rows of both planes after the products of one row (R243). -/
def matrixRow (mx : Matrix) (ca cb : Nat) (cells : List Nat) (arow : List (Nat × Nat)) (bcol : Nat → List (Nat × Nat))
    (nan : Nat → Bool) (z0 z1 : List F32) : List F32 × List F32 :=
  let at_ (l : List F32) (j : Nat) : F32 := if mx.acc then l.getD j 0#32 else 0#32
  let put (l : List F32) (j : Nat) (v : F32) : List F32 := setAt l j (if nan j then 0x7FC00000#32 else v)
  cells.foldl (fun (z : List F32 × List F32) j =>
    if mx.moment then
      let r := momCell ca cb (at_ z.1 j, at_ z.2 j) arow (bcol j)
      (put z.1 j r.1, put z.2 j r.2)
    else
      let p0 := if (planesOf mx.pl).contains 0 then put z.1 j (cellValue ca cb (at_ z.1 j) arow (bcol j)) else z.1
      let p1 := if (planesOf mx.pl).contains 1 then put z.2 j (cellValue ca cb (at_ z.2 j) arow (bcol j)) else z.2
      (p0, p1)) (z0, z1)

/-- Rows put in use in a plane (R250). -/
def useRows (mask : BitVec 96) (rows : List Nat) : BitVec 96 := rows.foldl (fun m r => m ||| (1#96 <<< r)) mask

def Half.useRows (h : Half) (planes rows : List Nat) : Half :=
  { h with mask0 := if planes.contains 0 then Machine.useRows h.mask0 rows else h.mask0
           mask1 := if planes.contains 1 then Machine.useRows h.mask1 rows else h.mask1 }

/-- The array after a matrix instruction, with the lowest poisoned line it met. -/
def Core.matrix (k : Core) (s : State) (core : Nat) (mx : Matrix) (sh : Shape) (row0 : Nat) (a b : TileOperand) :
    Core × Option Nat :=
  let ca := fmtCode a.bfmt
  let cb := fmtCode b.bfmt
  let bcols := (List.range 192).map (fun j => if mx.tmmb || j < sh.n then colElems b s core sh.k j else [])
  let bbad := (List.range 192).map (fun j => if mx.tmmb || j < sh.n then colPoison b s core sh.k j else none)
  (List.range sh.m).foldl (fun (acc : Core × Option Nat) r =>
    let cells := sh.cells mx.tmmb r
    if cells.isEmpty then acc
    else
      let abad := rowPoison a s core sh.k r
      let z := matrixRow mx ca cb cells (rowElems a s core sh.k r) (fun j => bcols.getD j [])
        (fun j => abad.isSome || (bbad.getD j none).isSome) (acc.1.accRow 0 (row0 + r)) (acc.1.accRow 1 (row0 + r))
      let hit := (abad.toList ++ cells.filterMap (fun j => bbad.getD j none) ++ acc.2.toList).min?
      ((acc.1.setAccRow 0 (row0 + r) z.1).setAccRow 1 (row0 + r) z.2, hit)) (k, none)

/-! ## Owners (R249 to R251) -/

/-- Rows that a mask names. -/
def maskRows (m : BitVec 96) : List Nat := (List.range 96).filter (fun r => m.getLsbD r)

/-- Row-planes of a half in use, and those recorded for a context: counts (R251). -/
def Half.inUse (h : Half) : Nat := (maskRows h.mask0).length + (maskRows h.mask1).length
def Ctx.recorded (c : Ctx) : Nat := ((c.accMask.map (fun m => (maskRows m).length)).foldl (· + ·) 0)

/-- 8 + ceil(3n / 4) cycles (R251). -/
def spillCycles (n : Nat) : Nat := 8 + ceilDiv (3 * n) 4

/-- The cycles of the spill that makes a platform the owner. -/
def spillTime (h : Half) (c : Ctx) : Nat :=
  (if h.owner.isSome then spillCycles h.inUse else 0) + (if 0 < c.recorded then spillCycles c.recorded else 0)

/-- The platform is, or can become without a spill, the owner of its half; an owner whose rows are being spilled waits as
well. -/
def ownsHalf (h : Half) (c : Ctx) (plat : Nat) : Bool :=
  (h.owner = some plat && (h.spill.bind (·.2)).isNone) || (h.owner.isNone && h.spill.isNone && c.recorded = 0)

/-- R251's block: the shunter is asked for the spill, unless it has one to do for the half. -/
def blockOwner (e : Env) (s : State) : Option (BlockWhy × State) :=
  let k := e.k
  let hn := k.halfOf e.plat
  let h := k.half hn
  if e.now < h.busy then none
  else if ownsHalf h e.c e.plat then none
  else
    let h1 := if h.spill.isSome then h else { h with spill := some (e.plat, none) }
    some (.spill, s.setCore e.core ((s.core e.core).setHalf hn h1))

/-- A span of a T instruction conflicts with an outstanding move (R430, R443, R445). -/
def tileMoves (e : Env) (wr : Bool) (spans : List (Nat × Nat)) : Bool :=
  spans.any (fun r => isOwn e.core r.1 && e.c.moves.any (fun m => m.conflicts e.core wr r))

/-- Change the issuer's half. -/
def Env.half (e : Env) (s : State) (f : Half → Half) : State :=
  let k := s.core e.core
  let hn := k.halfOf e.plat
  s.setCore e.core (k.setHalf hn (f (k.half hn)))

/-- Busy cycles left in the issuer's half. -/
def Env.busyLeft (e : Env) : Nat := (e.k.half (e.k.halfOf e.plat)).busy - e.now

/-- The first row of the issuer's half. -/
def Env.row0 (e : Env) : Nat := 48 * e.k.halfOf e.plat

/-! ## TMMA, TMMB, TMMM -/

/-- The operands of a matrix instruction, or its SHAPE and replay faults (R198, R239, R240). -/
inductive MatrixRead where
  /-- with the runs that the operands take up, so far as they are known -/
  | fault (code value : Nat) (runs : List (Nat × Nat))
  | ok (sh : Shape) (a b : TileOperand)

def readMatrix (e : Env) (mx : Matrix) (aA aB : BitVec 5) (xs : BitVec 6) (win : Option (BitVec 2)) : MatrixRead :=
  let c := e.c
  let x := c.rdX xs
  let rows := e.k.rowsOf
  match (if mx.tmmb then shapeB rows mx.kceil x else shapeA rows (some mx.kceil) x) with
  | none => .fault cSHAPE x.toNat []
  | some sh =>
    let bAddr := c.rdA aB
    let n := if mx.tmmb then 192 else sh.n
    let b := if isBlockFmt (fmtCode (tileFmt e.core c (addrOf bAddr))) then packedOperand e.core c bAddr n sh.k
      else packedOperand e.core c bAddr sh.k n
    match win with
    | none => .ok sh (packedOperand e.core c (c.rdA aA) (if mx.tmmb then rows else sh.m) sh.k) b
    | some w =>
      let d := SMap.get Replay.empty c.replays w.toNat
      match replayOperand e.core c d (c.rdA aA) x sh with
      | .fault code v =>
        let r := replayEnds e.core c d (c.rdA aA) sh
        .fault code v ((r.1.toNat, r.2.toNat) :: b.touched)
      | .ok a => .ok sh a b

def matrixSem (mx : Matrix) (aA aB : BitVec 5) (xs : BitVec 6) (win : Option (BitVec 2)) : SlotSem :=
  { block := fun e s =>
      let spans := match readMatrix e mx aA aB xs win with
        | .ok _ a b => a.spanRun.touched ++ b.touched
        | .fault _ _ rs => rs
      if tileMoves e false spans then some (.moveConflict, s) else blockOwner e s
    run := fun e s =>
      if 0 < e.busyLeft then .fault cTBUSY e.busyLeft
      else
        match readMatrix e mx aA aB xs win with
        | .fault code v _ => .fault code v
        | .ok sh a b =>
          match operandFault e.pre e.core e.c mx.moment a b with
          | some (code, v) => .fault code v
          | none =>
            let kk := if mx.moment then 1 else min (fmtK (fmtCode a.bfmt)) (fmtK (fmtCode b.bfmt))
            let till := e.now + mx.kceil / kk
            let (k1, hit) := (s.core e.core).matrix e.pre e.core mx sh e.row0 a b
            let used := ((List.range sh.m).filter (fun r => !(sh.cells mx.tmmb r).isEmpty)).map (e.row0 + ·)
            let cells := if mx.tmmb then sh.blocks * sh.bm * sh.bn else sh.m * sh.n
            let s1 := s.setCore e.core k1
            let s2 := match hit with | some l => s1.poisonLine (s1Place e.core l / 64) | none => s1
            .done (e.half s2 (fun h =>
              { h.useRows (planesOf mx.pl) used with
                owner := some e.plat, busy := till, ready := till + 12, matTill := till
                claims := h.claims ++ [⟨groupOf a.spanRun.span.1, till⟩, ⟨groupOf b.span.1, till⟩]
                cycles := h.cycles + mx.kceil / kk, products := h.products + cells * sh.k, hwerr := hit })) }

def slotTmma (pl : Plane) (aA aB : BitVec 5) (xs : BitVec 6) (kcl : BitVec 4) (acc : Bool) (win : Option (BitVec 2)) :
    SlotSem := matrixSem { pl := pl, acc := acc, tmmb := false, moment := false, kceil := kceil kcl } aA aB xs win
def execTmma (g : Guard) (pl : Plane) (aA aB : BitVec 5) (xs : BitVec 6) (kcl : BitVec 4) (acc : Bool)
    (win : Option (BitVec 2)) (s : State) : Host.Outcome State Fault Refusal :=
  issueAlone (.tmma g pl aA aB xs kcl acc win) (slotTmma pl aA aB xs kcl acc win) s

def slotTmmb (pl : Plane) (aA aB : BitVec 5) (xs : BitVec 6) (kcl : BitVec 4) (acc : Bool) : SlotSem :=
  matrixSem { pl := pl, acc := acc, tmmb := true, moment := false, kceil := kceil kcl } aA aB xs none
def execTmmb (g : Guard) (pl : Plane) (aA aB : BitVec 5) (xs : BitVec 6) (kcl : BitVec 4) (acc : Bool) (s : State) :
    Host.Outcome State Fault Refusal := issueAlone (.tmmb g pl aA aB xs kcl acc) (slotTmmb pl aA aB xs kcl acc) s

def slotTmmm (aA aB : BitVec 5) (xs : BitVec 6) (kcl : BitVec 4) (acc : Bool) : SlotSem :=
  matrixSem { pl := .z01, acc := acc, tmmb := false, moment := true, kceil := kceil kcl } aA aB xs none
def execTmmm (g : Guard) (aA aB : BitVec 5) (xs : BitVec 6) (kcl : BitVec 4) (acc : Bool) (s : State) :
    Host.Outcome State Fault Refusal := issueAlone (.tmmm g aA aB xs kcl acc) (slotTmmm aA aB xs kcl acc) s

/-! ## TZERO (R246, R447) -/

def slotTzero (pl : Plane) (xs : BitVec 6) : SlotSem :=
  { block := blockOwner
    run := fun e s =>
      let x := e.c.rdX xs
      if 0 < e.busyLeft then .fault cTBUSY e.busyLeft
      else match shapeA e.k.rowsOf none x with
        | none => .fault cSHAPE x.toNat
        | some sh =>
          let rows := (List.range sh.m).map (e.row0 + ·)
          let k1 := (planesOf pl).foldl (fun k p => rows.foldl (fun k r =>
            k.setAccRow p r (List.replicate sh.n 0#32 ++ (k.accRow p r).drop sh.n)) k) (s.core e.core)
          .done (e.half (s.setCore e.core k1) (fun h =>
            { h.useRows (planesOf pl) rows with owner := some e.plat, busy := e.now + 1 })) }

def execTzero (g : Guard) (pl : Plane) (xs : BitVec 6) (s : State) : Host.Outcome State Fault Refusal :=
  issueAlone (.tzero g pl xs) (slotTzero pl xs) s

/-! ## TDRAIN (R247, R443) -/

/-- One column of a drain (R247). -/
def epilogue (ep : Epilogue) (moment : Bool) (z0 z1 : Nat) (b sc : Nat) : List Nat :=
  let z := f32Val z0
  let add (x : FVal) : Nat := rneF32Bits (x.add (f32Val b))
  let first : Nat := match ep with
    | .none => z0
    | .bias => add z
    | .brelu => maxElem .f32 (add z) 0
    | .sbias => add (z.mul (f32Val sc))
  if !moment then [first]
  else
    let second : Nat := match ep with
      | .sbias => rneF32Bits (((f32Val sc).mul (f32Val sc)).mul (f32Val z1))
      | .none | .bias | .brelu => z1
    [first, second]

/-- A row of a drain as the destination format holds it; `draw` gives the stochastic bytes from here on. -/
def drainRow (f : Nat) (draw : Nat → Byte) (ys : List Nat) : Converted :=
  if fmtCode f = 0 then { bytes := ys.flatMap (toBytes 4), scales := [], drawn := 0 }
  else encodeRun f false draw (ys.map f32Val)

/-- Bytes of a row of 192 destination elements (R247). -/
def drainLen (f : Nat) : Nat := if fmtCode f = 0 then 768 else runBytes (fmtCode f) 192

/-- The rows of a drain: address and length. -/
def drainRuns (core : Nat) (c : Ctx) (a : Word) (rows : Nat) : Nat × List (Nat × Nat) :=
  let f := tileFmt core c (addrOf a)
  let len := drainLen f
  let pitch := if pitchOf a = 0 then len else 64 * pitchOf a
  (f, (List.range rows).map (fun r => (addrOf a + r * pitch, len)))

/-- The span of rows. -/
def runsSpan (rs : List (Nat × Nat)) : Nat × Nat :=
  (((rs.map (·.1)).min?).getD 0, ((rs.map (fun r => r.1 + r.2)).max?).getD 0)

/-- The checks of R192 on a drain's destination, with the pairing of planes and format (R247). -/
def drainFault (s : State) (core : Nat) (c : Ctx) (pl : Plane) (ep : Epilogue) (f : Nat) (rs : List (Nat × Nat)) :
    Option (Nat × Nat) :=
  let sp := runsSpan rs
  let acc : Access := { spans := rs ++ rowScales f rs, align := 0, aligned := [], rd := false, wr := true, amo := false,
                        mst := false, vec := false, claim := false, hwRd := false, hwWr := true }
  match tileAccessFault s core c rs f true (fun _ => true) with
  | some e => some e
  | none =>
    if mixedBanks c sp || rowsScaleBad f rs true || ((pl == .z01) != isMoFmt (fmtCode f)) ||
        (pl == .z01 && ep == .brelu) then some (cFMT, fmtCode f * 16)
    else
    match secondGroup sp with
    | some v => some (cBANKCONF, v)
    | none =>
    match claimedAt s core sp with
    | some v => some (cBANKCONF, v)
    | none => (acc.hwPoints s core).min?.map (fun v => (cHWERR, v))

/-- Writes of a drain by place, and the stochastic bytes drawn; each block's scale code goes to the array of its bank
(R136). -/
def drainWrites (k : Core) (core : Nat) (c : Ctx) (pl : Plane) (ep : Epilogue) (vb row0 f : Nat) (rs : List (Nat × Nat)) :
    List (Nat × List Byte) × Nat :=
  let reg (i : Nat) : Nat := c.operand (.v ((vb + i) % 2048))
  let used := ep != .none
  let bias (j : Nat) : Nat := if used then lane (reg (j / 96)) (j % 96) 32 else 0
  let scale (j : Nat) : Nat := if ep == .sbias then lane (reg (2 + j / 96)) (j % 96) 32 else 0
  rs.zipIdx.foldl (fun (acc : List (Nat × List Byte) × Nat) p =>
    let z0 := k.accRow (if pl == .z1 then 1 else 0) (row0 + p.2)
    let z1 := k.accRow 1 (row0 + p.2)
    let ys := (z0.zip z1).zipIdx.flatMap (fun q =>
      epilogue ep (pl == .z01) q.1.1.toNat q.1.2.toNat (bias q.2) (scale q.2))
    let v := drainRow f (fun j => c.drawByte c.seeds 2 (acc.2 + j)) ys
    let a := p.1.1
    let sc := v.scales.zipIdx.map (fun q => (s1Place core (scaleAddr f (a + q.2 * blockBytes (fmtCode f))), [q.1]))
    (acc.1 ++ [(s1Place core a, v.bytes)] ++ sc, acc.2 + v.drawn)) ([], 0)

def slotTdrain (pl : Plane) (aA : BitVec 5) (ep : Epilogue) (vb : BitVec 11) : SlotSem :=
  { block := fun e s =>
      let d := drainRuns e.core e.c (e.c.rdA aA) e.k.rowsOf
      if tileMoves e true (runsSpan d.2 :: ends (rowScales d.1 d.2)) then some (.moveConflict, s) else blockOwner e s
    run := fun e s =>
      let d := drainRuns e.core e.c (e.c.rdA aA) e.k.rowsOf
      if 0 < e.busyLeft then .fault cTBUSY e.busyLeft
      else match drainFault e.pre e.core e.c pl ep d.1 d.2 with
        | some (code, v) => .fault code v
        | none =>
          let c := s.ctx e.core e.plat
          let w := drainWrites (s.core e.core) e.core e.c pl ep vb.toNat e.row0 d.1 d.2
          let s1 := s.setCtx e.core e.plat { c.drawNow e.now e.c.seeds 2 w.2 with nextId := c.nextId + 1 }
          .done (e.half s1 (fun h =>
            { h with owner := some e.plat, busy := e.now + 88
                     claims := h.claims ++ [⟨groupOf (runsSpan d.2).1, e.now + 88⟩]
                     drain := some ⟨e.now + 88, e.plat, c.nextId, w.1, e.c.seeds,
                                    if w.2 = 0 then 0 else c.takenOf e.c.seeds 2 + w.2⟩ })) }

def execTdrain (g : Guard) (pl : Plane) (aA : BitVec 5) (ep : Epilogue) (vb : BitVec 11) (s : State) :
    Host.Outcome State Fault Refusal := issueAlone (.tdrain g pl aA ep vb) (slotTdrain pl aA ep vb) s

/-! ## TFILL (R248, R444) -/

/-- The rows of a fill. -/
def fillRuns (a : Word) (rows : Nat) : List (Nat × Nat) :=
  let pitch := if pitchOf a = 0 then 768 else 64 * pitchOf a
  (List.range rows).map (fun r => (addrOf a + r * pitch, 768))

/-- The checks of R192 on a fill's source (R248). -/
def fillFault (s : State) (core : Nat) (c : Ctx) (rs : List (Nat × Nat)) : Option (Nat × Nat) :=
  let sp := runsSpan rs
  let acc : Access := { spans := rs, align := 0, aligned := [], rd := true, wr := false, amo := false, mst := false,
                        vec := false, claim := false, hwRd := true, hwWr := false }
  match tileAccessFault s core c rs 0 false (fun _ => true) with
  | some e => some e
  | none =>
    match (List.range 64).find? (fun b => overlaps sp (b * 0x20000, (b + 1) * 0x20000) && 1 < fmtCode (c.bfmt b)) with
    | some b => some (cFMT, fmtCode (c.bfmt b))
    | none =>
    match secondGroup sp with
    | some v => some (cBANKCONF, v)
    | none =>
    match claimedAt s core sp with
    | some v => some (cBANKCONF, v)
    | none => (acc.hwPoints s core).min?.map (fun v => (cHWERR, v))

def slotTfill (plane : Bool) (aA : BitVec 5) : SlotSem :=
  { block := fun e s =>
      if tileMoves e false [runsSpan (fillRuns (e.c.rdA aA) e.k.rowsOf)] then some (.moveConflict, s) else blockOwner e s
    run := fun e s =>
      let rs := fillRuns (e.c.rdA aA) e.k.rowsOf
      if 0 < e.busyLeft then .fault cTBUSY e.busyLeft
      else match fillFault e.pre e.core e.c rs with
        | some (code, v) => .fault code v
        | none =>
          let rows := rs.map (fun r => (List.range 192).map (fun j =>
            BitVec.ofNat 32 (e.pre.word (s1Place e.core (r.1 + 4 * j)) 4)))
          .done (e.half s (fun h =>
            { h with owner := some e.plat, busy := e.now + 80
                     claims := h.claims ++ [⟨groupOf (runsSpan rs).1, e.now + 80⟩]
                     fill := some { due := e.now + 80, plane := plane.toNat, firstRow := e.row0, rows := rows } })) }

def execTfill (g : Guard) (plane : Bool) (aA : BitVec 5) (s : State) : Host.Outcome State Fault Refusal :=
  issueAlone (.tfill g plane aA) (slotTfill plane aA) s

/-! ## The array's own steps (R210, R244, R247, R248, R251) -/

/-- Change a half of a core. -/
def State.setHalf (s : State) (core hn : Nat) (f : Half → Half) : State :=
  let k := s.core core
  s.setCore core (k.setHalf hn (f (k.half hn)))

/-- A busy window ends: its claims end, and a poisoned operand is reported to the owner at its next bundle boundary. -/
def execTileBusyEnd (core half : Nat) (s : State) : Host.Outcome State Fault Refusal :=
  let h := (s.core core).half half
  if half < 2 ∧ s.now ≥ h.busy ∧ (h.claims.any (fun c => c.till ≤ s.now) ∨ h.hwerr.isSome) then
    let s1 := s.setHalf core half (fun h => { h with claims := h.claims.filter (fun c => s.now < c.till), hwerr := none })
    match h.hwerr, h.owner with
    | some line, some p =>
      let c := s1.ctx core p
      .next (s1.setCtx core p { c with asyncFaults := c.asyncFaults ++ [⟨cHWERR, 8, line, 0, none⟩] })
    | _, _ => .next s1
  else .refused .notEnabled

/-- A matrix result is in place. -/
def execTileResultReady (core half : Nat) (s : State) : Host.Outcome State Fault Refusal :=
  let h := (s.core core).half half
  if half < 2 ∧ 0 < h.ready ∧ h.ready ≤ s.now then .next (s.setHalf core half (fun h => { h with ready := 0 }))
  else .refused .notEnabled

/-- One write of a drain performs; a scale code for a line that has been poisoned since the issue is not written (R209). -/
def State.drainStore (s : State) (core plat : Nat) (w : Nat × List Byte) : State :=
  if s.badWrite w.1 w.2.length then
    let c := s.ctx core plat
    (s.poisonLine (w.1 / 64)).setCtx core plat { c with
      asyncFaults := c.asyncFaults ++ [⟨cHWERR, 8, w.1 % 0x800000 / 64 * 64, 0, none⟩] }
  else s.store w.1 w.2

/-- A drain whose random bytes have not all been generated waits a cycle more: its half stays busy and its group claimed (R149;
log entry 85). -/
def Half.hold (h : Half) (d : Drain) (now : Nat) : Half :=
  { h with
    busy := now + 1, drain := some { d with due := now + 1 }
    claims := h.claims.map (fun c => if c.till = d.due then { c with till := now + 1 } else c) }

/-- The rows of a drain perform. -/
def execTdrainWrite (core half : Nat) (s : State) : Host.Outcome State Fault Refusal :=
  let h := (s.core core).half half
  match h.drain with
  | some d =>
    if half < 2 ∧ d.due ≤ s.now then
      if 384 * (s.ctx core d.plat).unitsOf d.seed 2 < d.upto then .next (s.setHalf core half (fun h => h.hold d s.now))
      else
      let s1 := d.writes.foldl (fun s w => s.drainStore core d.plat w) s
      .next (s1.setHalf core half (fun h => { h with drain := none, claims := h.claims.filter (fun c => s.now < c.till) }))
    else .refused .notEnabled
  | none => .refused .notEnabled

/-- The rows of a fill are in place. -/
def execTfillLoad (core half : Nat) (s : State) : Host.Outcome State Fault Refusal :=
  let h := (s.core core).half half
  match h.fill with
  | some f =>
    if half < 2 ∧ f.due ≤ s.now then
      let k1 := f.rows.zipIdx.foldl (fun k p => k.setAccRow f.plane (f.firstRow + p.2) p.1) (s.core core)
      .next ((s.setCore core k1).setHalf core half (fun h =>
        { h.useRows [f.plane] ((List.range f.rows.length).map (f.firstRow + ·)) with
          fill := none, claims := h.claims.filter (fun c => s.now < c.till) }))
    else .refused .notEnabled
  | none => .refused .notEnabled

/-- The place of a row-plane in ACCSAVE (R251). -/
def accSavePlace (core : Nat) (c : Ctx) (plane row : Nat) : Nat :=
  s1Place core (c.place.accsave + (plane * 96 + row) * 768)

/-- Write the in-use rows of a half's owner to its ACCSAVE and record the masks (R251, step 2; R252). -/
def State.spillOut (s : State) (core half : Nat) : State :=
  let k := s.core core
  let h := k.half half
  match h.owner with
  | none => s
  | some p =>
    let c := k.ctx p
    let write (s : State) (plane : Nat) (m : BitVec 96) : State := (maskRows m).foldl (fun s r =>
      s.store (accSavePlace core c plane r) ((k.accRow plane r).flatMap (fun v => toBytes 4 v.toNat))) s
    let s1 := write (write s 0 h.mask0) 1 h.mask1
    s1.setCtx core p { (s1.ctx core p) with accMask := [h.mask0, h.mask1] }

/-- Zero the rows of a half and leave it unowned (R251, step 3; R252). -/
def State.zeroHalf (s : State) (core half : Nat) : State :=
  let k := s.core core
  let rows := if k.split then (List.range 48).map (48 * half + ·) else List.range 96
  let k1 := rows.foldl (fun k r => (k.setAccRow 0 r []).setAccRow 1 r []) k
  (s.setCore core k1).setHalf core half (fun h => { h with owner := none, mask0 := 0, mask1 := 0 })

/-- Reload a context's recorded rows and make it the owner (R251, steps 4 and 5). -/
def State.spillIn (s : State) (core half plat : Nat) : State :=
  let c := s.ctx core plat
  let m0 := c.accMask.getD 0 0
  let m1 := c.accMask.getD 1 0
  let row (plane r : Nat) : List F32 :=
    (List.range 192).map (fun j => BitVec.ofNat 32 (s.word (accSavePlace core c plane r + 4 * j) 4))
  let k1 := (maskRows m1).foldl (fun k r => k.setAccRow 1 r (row 1 r))
    ((maskRows m0).foldl (fun k r => k.setAccRow 0 r (row 0 r)) (s.core core))
  ((s.setCore core k1).setHalf core half (fun h => { h with owner := some plat, mask0 := m0, mask1 := m1 })).setCtx
    core plat { c with accMask := [0, 0] }

/-- A run of a core's S1 touches a claimed group, whose claim excludes every other requester (R186). -/
def State.claimedRun (s : State) (core addr len : Nat) : Bool :=
  (linePoints addr len).any (fun p => isOwn core p && s.claimed core (groupOf p))

/-- The ACCSAVE area of a platform lies in a claimed group. -/
def State.saveClaimed (s : State) (core plat : Nat) : Bool := s.claimedRun core (s.ctx core plat).place.accsave 147456

/-- The shunter's spill for a newcomer (R251): once the last owner's results are in place it takes its cycles, and at their
end, when no claim holds the ACCSAVE areas, the rows are spilled and reloaded and the newcomer owns the half. -/
def execAccumulatorSpill (core half : Nat) (s : State) : Host.Outcome State Fault Refusal :=
  let h := (s.core core).half half
  match h.spill with
  | some (p, none) =>
    if half < 2 ∧ h.busy ≤ s.now ∧ h.ready = 0 ∧ h.drain.isNone ∧ h.fill.isNone then
      .next (s.setHalf core half (fun h => { h with spill := some (p, some (s.now + spillTime h (s.ctx core p))) }))
    else .refused .notEnabled
  | some (p, some due) =>
    let held : Bool := (h.owner.map (fun o => 0 < h.inUse && s.saveClaimed core o)).getD false ||
      (0 < (s.ctx core p).recorded && s.saveClaimed core p)
    if half < 2 ∧ due ≤ s.now ∧ !held then
      let s1 := ((s.spillOut core half).zeroHalf core half).setHalf core half (fun h => { h with spill := none })
      .next (s1.spillIn core half p)
    else .refused .notEnabled
  | none => .refused .notEnabled

end Sys2Proof.Machine
end

