-- ==== Sys2Proof/Machine/Commands.lean ====
section
/-! DEFINITION. The E slot: entry of commands into the command queue (R285, R286, R229), the core's own ring instructions
(R287, R288, R368, R420, R424), and what RQSEED and AXINV do at issue (R425, R371). -/
namespace Sys2Proof.Machine

/-! ## Rings (R287) -/

def Ctx.ring (c : Ctx) (n : Nat) : Ring := SMap.get Ring.empty c.rings n
def Ctx.setRing (c : Ctx) (n : Nat) (r : Ring) : Ctx := { c with rings := SMap.put c.rings n r }

/-- WP − RP modulo 2^32. -/
def Ring.avail (r : Ring) : Nat := (r.wp - r.rp).toNat

/-- The ring is one of the context's RINGMASK (R42, R286). -/
def Ctx.hasRing (c : Ctx) (n : Nat) : Bool := n < 64 && c.place.ringmask.getLsbD n

/-- A RINGCFG of the ring issued earlier has not performed (R368, R420). -/
def Ctx.ringCfgPending (c : Ctx) (n : Nat) : Bool :=
  c.cmds.any (fun q => match q.cmd with
    | .ringcfg r _ => r = n
    | _ => false)

/-! ## The command queue (R285) -/

/-- The queue takes one more command; an unlocked siding takes one beyond its capacity (R327). -/
def Ctx.cmdRoom (c : Ctx) : Bool := c.cmds.length < 8 || (c.cmds.length = 8 && c.cmdSiding = 1)

/-- A queue has admitted a message: its time full starts anew (R326). -/
def State.admitted (s : State) (q : QueueId) : State := { s with fullSince := s.fullSince.filter (·.1 != q) }

/-- A command enters the queue behind the accesses of its implicit FENCE RW→E and of the fences in force (R221, R229). -/
def Env.enqueue (e : Env) (s : State) (cmd : Command) : State :=
  let c := s.ctx e.core e.plat
  let waits := e.pre.outstanding e.core e.plat ⟨true, true, false, false⟩ .package ++ (s.ctx e.core e.plat).fenceWaits .e
  (s.setCtx e.core e.plat { c with
    nextId := c.nextId + 1
    cmds := c.cmds ++ [⟨c.nextId, waits, cmd⟩]
    cmdSiding := if 8 ≤ c.cmds.length then 2 else c.cmdSiding }).admitted (.cmd e.core e.plat)

/-- A command of the queue: its checks at issue, then its entry; a full queue blocks (R285, R286). -/
def commandSem (check : Env → Option (Nat × Nat)) (cmd : Env → Command) : SlotSem :=
  { block := fun e s => if (check e).isSome || e.c.cmdRoom then none else some (.cmdQueue, s)
    run := fun e s => match check e with
      | some (code, v) => .fault code v
      | none => .done (e.enqueue s (cmd e)) }

/-- The ring check of R286. -/
def ringBad (c : Ctx) (n : Nat) : Option (Nat × Nat) := if c.hasRing n then none else some (cWINDOW, n)

/-- A read of n bytes that an engine will make of an address, checked at issue (R286, R192). -/
def engineRead (s : State) (core : Nat) (c : Ctx) (addr n : Nat) : Option (Nat × Nat) :=
  checkAccess s s core c { spans := [(addr, n)], align := 64, aligned := [addr], rd := true, wr := false, amo := false,
                           mst := false, vec := false, claim := false, hwRd := false, hwWr := false }

/-- The checks of a command with a completion ring and a descriptor (R286). -/
def descCheck (aa : BitVec 5) (ring : BitVec 6) (e : Env) : Option (Nat × Nat) :=
  match ringBad e.c ring.toNat with
  | some f => some f
  | none => engineRead e.pre e.core e.c (addrOf (e.c.rdA aa)) 128

/-! ## Copy channels (R378, R379) -/

def channelBad (plat : Nat) (ch : BitVec 6) : Option (Nat × Nat) :=
  if ch.toNat = plat then none else some (cWINDOW, ch.toNat)

def slotChstart (ch : BitVec 6) (aa : BitVec 5) : SlotSem :=
  commandSem (fun e => match channelBad e.plat ch with
      | some f => some f
      | none => engineRead e.pre e.core e.c (addrOf (e.c.rdA aa)) 64)
    (fun e => .chstart (addrOf (e.c.rdA aa)) e.c.seeds)
def execChstart (g : Guard) (ch : BitVec 6) (aa : BitVec 5) (s : State) : Host.Outcome State Fault Refusal :=
  issueAlone (.chstart g ch aa) (slotChstart ch aa) s

def slotChstop (ch : BitVec 6) : SlotSem := commandSem (fun e => channelBad e.plat ch) (fun _ => .chstop)
def execChstop (g : Guard) (ch : BitVec 6) (s : State) : Host.Outcome State Fault Refusal :=
  issueAlone (.chstop g ch) (slotChstop ch) s

/-! ## Rings (R288, R368, R420, R423, R424) -/

def slotRingcfg (ring : BitVec 6) (xa : BitVec 6) : SlotSem :=
  commandSem (fun e => ringBad e.c ring.toNat) (fun e => .ringcfg ring.toNat (e.c.rdX xa).toNat)
def execRingcfg (g : Guard) (ring : BitVec 6) (xa : BitVec 6) (s : State) : Host.Outcome State Fault Refusal :=
  issueAlone (.ringcfg g ring xa) (slotRingcfg ring xa) s

/-- An AWAITF passes: no RINGCFG of the ring is pending, the count is there, and, as it is of class E, the fences in force let it
perform (R220, R221, R368). -/
def State.awaitPasses (s : State) (core plat ring thr : Nat) : Bool :=
  let c := s.ctx core plat
  !c.ringCfgPending ring && thr ≤ (c.ring ring).avail && s.allDone core plat (c.fenceWaits .e)

def slotAwaitf (ring : BitVec 6) (thr : BitVec 16) : SlotSem :=
  { block := fun e s =>
      if (ringBad e.c ring.toNat).isSome || e.pre.awaitPasses e.core e.plat ring.toNat thr.toNat then none
      else some (.await ring.toNat thr.toNat, s)
    run := fun e s => match ringBad e.c ring.toNat with
      | some (code, v) => .fault code v
      | none => .done s }
def execAwaitf (g : Guard) (ring : BitVec 6) (thr : BitVec 16) (s : State) : Host.Outcome State Fault Refusal :=
  issueAlone (.awaitf g ring thr) (slotAwaitf ring thr) s

/-- A ring after a RELS; `ids` are the accesses it releases, and, as it is of class E, those that the fences in force put before
it (R220, R221), `done` those of the RELS before it that have all performed
(R230, R288). -/
def Ring.release (r : Ring) (cnt : Nat) (ids : List Nat) (done : Bool) : Ring :=
  let n := min cnt r.avail
  { r with rp := r.rp + BitVec.ofNat 32 n, status := if r.avail < cnt then 0x0C else r.status
           seen := if done then r.rp else r.seen, rel := ids }

def slotRels (ring : BitVec 6) (cnt : BitVec 16) : SlotSem :=
  { block := fun e s =>
      if (ringBad e.c ring.toNat).isNone && e.c.ringCfgPending ring.toNat then some (.ringcfg ring.toNat, s) else none
    run := fun e s => match ringBad e.c ring.toNat with
      | some (code, v) => .fault code v
      | none =>
        let ids := e.pre.outstanding e.core e.plat ⟨true, true, false, false⟩ .package ++
          (s.ctx e.core e.plat).fenceWaits .e
        .done (e.upd s (fun c =>
          let r := c.ring ring.toNat
          c.setRing ring.toNat (r.release cnt.toNat ids (r.rel.all (fun i => !e.pre.isOutstanding e.core e.plat i))))) }
def execRels (g : Guard) (ring : BitVec 6) (cnt : BitVec 16) (s : State) : Host.Outcome State Fault Refusal :=
  issueAlone (.rels g ring cnt) (slotRels ring cnt) s

def slotRingrd (xd : BitVec 6) (ring : BitVec 6) : SlotSem :=
  plain (fun e s => match ringBad e.c ring.toNat with
    | some (code, v) => .fault code v
    | none => .done (e.upd s (fun c => c.await xd.toNat (.ring xd.toNat ring.toNat) (c.fenceWaits .e))))
def execRingrd (g : Guard) (xd : BitVec 6) (ring : BitVec 6) (s : State) : Host.Outcome State Fault Refusal :=
  issueAlone (.ringrd g xd ring) (slotRingrd xd ring) s

/-! ## Marshalling and collective commands (R470, R474) -/

def slotYsort (aa : BitVec 5) (ring : BitVec 6) (inc : BitVec 16) : SlotSem :=
  commandSem (descCheck aa ring) (fun e => .ysort (addrOf (e.c.rdA aa)) ring.toNat inc.toNat)
def execYsort (g : Guard) (aa : BitVec 5) (ring : BitVec 6) (inc : BitVec 16) (s : State) :
    Host.Outcome State Fault Refusal := issueAlone (.ysort g aa ring inc) (slotYsort aa ring inc) s

def slotYgath (aa : BitVec 5) (ring : BitVec 6) (inc : BitVec 16) : SlotSem :=
  commandSem (descCheck aa ring) (fun e => .ygath (addrOf (e.c.rdA aa)) ring.toNat inc.toNat)
def execYgath (g : Guard) (aa : BitVec 5) (ring : BitVec 6) (inc : BitVec 16) (s : State) :
    Host.Outcome State Fault Refusal := issueAlone (.ygath g aa ring inc) (slotYgath aa ring inc) s

def slotYcomb (aa : BitVec 5) (ring : BitVec 6) (inc : BitVec 16) : SlotSem :=
  commandSem (descCheck aa ring) (fun e => .ycomb (addrOf (e.c.rdA aa)) ring.toNat inc.toNat)
def execYcomb (g : Guard) (aa : BitVec 5) (ring : BitVec 6) (inc : BitVec 16) (s : State) :
    Host.Outcome State Fault Refusal := issueAlone (.ycomb g aa ring inc) (slotYcomb aa ring inc) s

def slotXa2av (aa : BitVec 5) (ring : BitVec 6) (inc : BitVec 16) : SlotSem :=
  commandSem (descCheck aa ring) (fun e => .xa2av (addrOf (e.c.rdA aa)) ring.toNat inc.toNat)
def execXa2av (g : Guard) (aa : BitVec 5) (ring : BitVec 6) (inc : BitVec 16) (s : State) :
    Host.Outcome State Fault Refusal := issueAlone (.xa2av g aa ring inc) (slotXa2av aa ring inc) s

def slotXar (aa : BitVec 5) (ring : BitVec 6) (inc : BitVec 16) : SlotSem :=
  commandSem (descCheck aa ring) (fun e => .xar (addrOf (e.c.rdA aa)) ring.toNat inc.toNat)
def execXar (g : Guard) (aa : BitVec 5) (ring : BitVec 6) (inc : BitVec 16) (s : State) :
    Host.Outcome State Fault Refusal := issueAlone (.xar g aa ring inc) (slotXar aa ring inc) s

def slotXag (aa : BitVec 5) (ring : BitVec 6) (inc : BitVec 16) : SlotSem :=
  commandSem (descCheck aa ring) (fun e => .xag (addrOf (e.c.rdA aa)) ring.toNat inc.toNat)
def execXag (g : Guard) (aa : BitVec 5) (ring : BitVec 6) (inc : BitVec 16) (s : State) :
    Host.Outcome State Fault Refusal := issueAlone (.xag g aa ring inc) (slotXag aa ring inc) s

def slotXrun (aa : BitVec 5) (xa : BitVec 6) (ring : BitVec 6) (inc : BitVec 16) : SlotSem :=
  commandSem (descCheck aa ring) (fun e => .xrun (addrOf (e.c.rdA aa)) (e.c.rdX xa).toNat ring.toNat inc.toNat)
def execXrun (g : Guard) (aa : BitVec 5) (xa : BitVec 6) (ring : BitVec 6) (inc : BitVec 16) (s : State) :
    Host.Outcome State Fault Refusal := issueAlone (.xrun g aa xa ring inc) (slotXrun aa xa ring inc) s

/-! ## SENDH (R433) -/

/-- The context that a SENDH of a gang reaches on a platform, by its CTXID and BWIN: the resident one of the gang, else a
held one, else one saved off the platform (R433, R519). -/
def Core.target (k : Core) (plat gang : Nat) : Option (Word × Word) :=
  let c := k.ctx plat
  if c.state != .empty && c.gang = gang then some (c.ctxid, c.creg 0x020)
  else match k.held.find? (fun h => h.plat = plat && h.ctx.gang = gang) with
    | some h => some (h.ctx.ctxid, h.ctx.creg 0x020)
    | none => (k.away.find? (fun a => a.plat = plat && a.gang = gang)).map (fun a => (a.ctxid, a.bwin))

def sendhCheck (aa : BitVec 5) (xa : BitVec 6) (e : Env) : Option (Nat × Nat) :=
  let x := (e.c.rdX xa).toNat
  let a := addrOf (e.c.rdA aa)
  if 64 ≤ x then some (cWINDOW, x)
  else match (e.pre.core (clusterOf e.core * 16 + x / 4)).target (x % 4) e.c.gang with
    | none => some (cWINDOW, x)
    | some t =>
      if a % 64 != 0 then some (cALIGN, a)
      else if !spanOwn a 384 || (linePoints a 384).any (fun p => !inBwin t.2 p) then some (cWINDOW, a)
      else none

def slotSendh (va : BitVec 11) (aa : BitVec 5) (xa : BitVec 6) (handler : BitVec 16) : SlotSem :=
  commandSem (sendhCheck aa xa) (fun e =>
    let x := (e.c.rdX xa).toNat
    let core := clusterOf e.core * 16 + x / 4
    .sendh (toBytes 384 (e.c.rdV va).toNat) (addrOf (e.c.rdA aa)) core (x % 4)
      (((e.pre.core core).target (x % 4) e.c.gang).elim 0 (·.1)) handler.toNat)
def execSendh (g : Guard) (va : BitVec 11) (aa : BitVec 5) (xa : BitVec 6) (handler : BitVec 16) (s : State) :
    Host.Outcome State Fault Refusal := issueAlone (.sendh g va aa xa handler) (slotSendh va aa xa handler) s

/-! ## SEAL and OPEN (R412) -/

def slotSealL (aa : BitVec 5) (xa : BitVec 6) (ring : BitVec 6) (inc : BitVec 16) : SlotSem :=
  commandSem (descCheck aa ring) (fun e => .sealL (addrOf (e.c.rdA aa)) (e.c.rdX xa).toNat ring.toNat inc.toNat)
def execSealL (g : Guard) (aa : BitVec 5) (xa : BitVec 6) (ring : BitVec 6) (inc : BitVec 16) (s : State) :
    Host.Outcome State Fault Refusal := issueAlone (.sealL g aa xa ring inc) (slotSealL aa xa ring inc) s

def slotOpenL (aa : BitVec 5) (xa : BitVec 6) (ring : BitVec 6) (inc : BitVec 16) : SlotSem :=
  commandSem (descCheck aa ring) (fun e => .openL (addrOf (e.c.rdA aa)) (e.c.rdX xa).toNat ring.toNat inc.toNat)
def execOpenL (g : Guard) (aa : BitVec 5) (xa : BitVec 6) (ring : BitVec 6) (inc : BitVec 16) (s : State) :
    Host.Outcome State Fault Refusal := issueAlone (.openL g aa xa ring inc) (slotOpenL aa xa ring inc) s

/-! ## RQSEED, AXINV, AXQRY (R371, R373, R425) -/

/-- The seeding takes effect at issue, after the bundle's own pop; writers issued before it or in its bundle draw on from the
bank streams of their own seeding (R151, R425; log entry 86). -/
def Ctx.seed (c : Ctx) (key : BitVec 256) (counter : Word) : Ctx :=
  { c with
    seeds := c.seeds + 1, oldKeys := SMap.set 0#256 c.oldKeys c.seeds c.key
    key := key, qcount := counter, queue := [], seeding := true }

def slotRqseed (va : BitVec 11) (xa : BitVec 6) : SlotSem :=
  let key (e : Env) : BitVec 256 := BitVec.ofNat 256 (e.c.rdV va).toNat
  { block := fun e s => if e.c.cmdRoom then none else some (.cmdQueue, s)
    run := fun e s =>
      .done (e.upd (e.enqueue s (.rqseed (key e) (e.c.rdX xa))) (fun c => c.seed (key e) (e.c.rdX xa))) }
def execRqseed (g : Guard) (va : BitVec 11) (xa : BitVec 6) (s : State) : Host.Outcome State Fault Refusal :=
  issueAlone (.rqseed g va xa) (slotRqseed va xa) s

def slotAxinv (id : BitVec 6) : SlotSem :=
  { block := fun e s => if e.c.cmdRoom then none else some (.cmdQueue, s)
    run := fun e s =>
      .done (e.upd (e.enqueue s (.axinv id.toNat)) (fun c => c.setRegion id.toNat { c.region id.toNat with state := 0 })) }
def execAxinv (g : Guard) (id : BitVec 6) (s : State) : Host.Outcome State Fault Refusal :=
  issueAlone (.axinv g id) (slotAxinv id) s

def slotAxqry (xd : BitVec 6) (id : BitVec 6) : SlotSem :=
  { block := fun e s => if e.c.cmdRoom then none else some (.cmdQueue, s)
    run := fun e s =>
      .done (e.upd (e.enqueue s (.axqry id.toNat xd.toNat)) (fun c =>
        { c with pending := if xd = 0 then c.pending else .x xd.toNat :: c.pending })) }
def execAxqry (g : Guard) (xd : BitVec 6) (id : BitVec 6) (s : State) : Host.Outcome State Fault Refusal :=
  issueAlone (.axqry g xd id) (slotAxqry xd id) s

end Sys2Proof.Machine
end

