-- ==== Sys2Proof/Machine/Landing.lean ====
section
/-! DEFINITION. Results that land (R89, R92), accesses and atomics that perform at their homes (R207 to R209, R219, R221, R363,
R365), and the transfers of moves (R429 to R431, R463). -/
namespace Sys2Proof.Machine

/-! ## Homes that wait or do not exist -/

/-- A place on a frame of device HBM that does not exist (R199). -/
def noFrame (p : Nat) : Bool := 2 ^ 60 + 262144 * 2 ^ 21 ≤ p && p < 2 ^ 62

/-- Writes into a bank of a context that is being saved, held, away or restored wait (R519). -/
def State.heldPlace (s : State) (p : Nat) : Bool :=
  match s1Of p with
  | none => false
  | some (core, off) =>
    let k := s.core core
    k.held.any (fun h => inBwin (h.ctx.creg 0x020) off) || k.away.any (fun a => inBwin a.bwin off) ||
      k.plats.any (fun o => (o.2.state == .saving || o.2.state == .loading) && inBwin (o.2.creg 0x020) off)

/-- A write may reach a place in this cycle (R232); a held bank takes only the rest of a write of a line that had begun (R519). -/
def State.writable (s : State) (p : Nat) (begun : Bool) : Bool := !s.claimedPlace p && (begun || !s.heldPlace p)

/-! ## Results that land (R89, R92) -/

/-- The fixed-latency results of a platform that are due land. -/
def execFixedResultLanding (core plat : Nat) (s : State) : Host.Outcome State Fault Refusal :=
  let c := s.ctx core plat
  if c.flights.any (fun f => f.land ≤ s.now) then .next (s.setCtx core plat (c.landDue s.now))
  else .refused .notEnabled

/-- A value arrives in a register; a poisoned one marks it with the address and the fault code (R92, R365). -/
def Ctx.arrive (c : Ctx) (w : RegWrite) (poison : Option (Nat × Nat)) : Ctx :=
  let c1 := c.land w
  match w.reg? with
  | none => c1
  | some r =>
    let c2 := c1.unpend r
    match poison with
    | some (a, code) => { c2 with poison := (r, a, code) :: c2.poison }
    | none => c2

/-- The register that a reply writes. -/
def Reply.reg : Reply → Nat
  | .hub n => n
  | .ring n _ => n

/-- The value sampled for a reply: HTIME when the request reaches the hub (R388, R390), the ring once every earlier RINGCFG
of the context has performed (R288, R424) and what the fences put before a RINGRD (R220, R221). -/
def State.sample (s : State) (core plat : Nat) (a : Awaited) : Option Word :=
  let c := s.ctx core plat
  match a.reply with
  | .hub _ => some (htime s)
  | .ring _ ring =>
    if c.cmds.any (fun q => q.id < a.id && (match q.cmd with | .ringcfg .. => true | _ => false)) ||
        !s.allDone core plat a.waits then none
    else
      let r := c.ring ring
      some (BitVec.ofNat 64 (r.avail + r.status * 2 ^ 32 + r.src * 2 ^ 40))

/-- The value of a variable-latency instruction arrives (R92); one of a hub register or of a ring is sampled first. -/
def execLoadResultArrival (core plat id : Nat) (s : State) : Host.Outcome State Fault Refusal :=
  let c := s.ctx core plat
  match c.out.find? (fun o => o.id = id && o.pieces.isEmpty) with
  | some o =>
    let c1 := { c with out := c.out.filter (·.id != id) }
    match o.dest.write o.data with
    | some w => .next (s.setCtx core plat (c1.arrive w o.poison))
    | none => .next (s.setCtx core plat c1)
  | none =>
    match c.awaited.find? (·.id = id) with
    | some a =>
      match a.value with
      | some v =>
        .next (s.setCtx core plat ({ c with awaited := c.awaited.filter (·.id != id) }.arrive (.x a.reply.reg v) none))
      | none =>
        match s.sample core plat a with
        | some v => .next (s.setCtx core plat { c with
            awaited := c.awaited.map (fun b => if b.id = id then { b with value := some v } else b) })
        | none => .refused .notEnabled
    | none => .refused .notEnabled

/-! ## Accesses that perform at their homes -/

/-- The access with an id, of the outbound path or a micro load that the core's routine waits for. -/
def State.findOut (s : State) (core plat id : Nat) : Option Outbound :=
  match (s.ctx core plat).out.find? (·.id = id) with
  | some o => some o
  | none => match (s.core core).routine with
    | some r => if r.plat = plat then (match r.waitHbm with | some o => if o.id = id then some o else none | none => none)
                else none
    | none => none

/-- Put an access back, or drop a store that has nothing left to perform. -/
def State.putOut (s : State) (core plat : Nat) (o : Outbound) : State :=
  let c := s.ctx core plat
  if c.out.any (·.id = o.id) then
    let gone := o.pieces.isEmpty && o.cls = .w
    s.setCtx core plat { c with
      out := if gone then c.out.filter (·.id != o.id) else c.out.map (fun q => if q.id = o.id then o else q) }
  else
    let k := s.core core
    s.setCore core { k with routine := k.routine.map (fun r => { r with waitHbm := some o }) }

/-- An asynchronous fault waits for the context's next bundle boundary (R305). -/
def State.asyncAt (s : State) (core plat : Nat) (code addr : Nat) : State :=
  let c := s.ctx core plat
  s.setCtx core plat { c with asyncFaults := c.asyncFaults ++ [⟨code, 8, addr, 0, none⟩] }

/-- The piece at a position may perform: its access has waited for its predecessors and for earlier accesses to its line
(R217, R221, R430), no earlier piece of it names the same word (R458), and its home takes it. -/
def State.pieceReady (s : State) (core plat : Nat) (o : Outbound) (n : Nat) (p : Piece) : Bool :=
  s.allDone core plat o.waits && s.lineFree core plat o.id (p.place / 64) &&
    !((o.pieces.take n).any (fun q => q.place / 8 = p.place / 8)) &&
    (if o.cls = .r then !s.claimedPlace p.place else s.writable p.place p.begun)

/-- One piece of a load performs: poison and a failed tag mark the result, with the load's address, or for a micro load with
the word's (R92, R208, R211). -/
def loadPiece (s : State) (world : Nat) (o : Outbound) (p : Piece) : State × Outbound :=
  let bad : Option (Nat × Nat) := match o.poison with
    | some b => some b
    | none => some (if o.dest = .none then p.addr / 8 * 8 else o.addr, cHWERR)
  if s.badRead p.place p.len then
    (s.poisonLine (p.place / 64), { o with poison := bad, data := patch o.data p.off (s.bytes p.place p.len) })
  else match readHome s world p.prot p.place p.len with
    | some bs => (s, { o with data := patch o.data p.off bs })
    | none => (s.integrityFail (p.place / 64), { o with poison := bad })

/-- The host adapter's flush read behind a store returns: it has been accepted (R213). -/
def State.flushRead (s : State) (core plat id : Nat) : Option State :=
  let c := s.ctx core plat
  if c.flushes.contains id && !s.isOutstanding core plat (id - 1) && s.hub.linkUp then
    some (s.setCtx core plat { c with flushes := c.flushes.filter (· != id) })
  else none

/-- One word of a load or store in the outbound path performs at its home (R219, R221), or the flush read behind a store to a
host frame returns (R213). -/
def execRemoteAccessPerform (core plat id word : Nat) (s : State) : Host.Outcome State Fault Refusal :=
  match s.findOut core plat id with
  | none => match s.flushRead core plat id with
    | some s1 => .next s1
    | none => .refused .notEnabled
  | some o =>
    match o.pieces[word]? with
    | none => .refused .notEnabled
    | some p =>
      let world := (s.ctx core plat).world
      if o.amo.isSome || !s.pieceReady core plat o word p then .refused .notEnabled
      else if noFrame p.place then .fault .noSuchFrame
      else
        let o1 := { o with pieces := piecesLeft o.pieces word }
        if o.cls = .r then
          let (s1, o2) := loadPiece s world o1 p
          .next (s1.putOut core plat o2)
        else
          let (s1, ok) := writeHome s world p.prot p.whole p.place ((o.data.drop p.off).take p.len)
          let s2 := s1.putOut core plat o1
          .next (if ok then s2 else s2.asyncAt core plat cHWERR (p.addr / 8 * 8))

/-- An atomic performs at its home as one indivisible read and write, or is refused there (R363, R365). -/
def execAmoHomePerform (core plat id : Nat) (s : State) : Host.Outcome State Fault Refusal :=
  match s.findOut core plat id with
  | none => .refused .notEnabled
  | some o =>
    match o.pieces, o.amo with
    | p :: rest, some (op, sv, cv) =>
      if !s.pieceReady core plat o 0 p then .refused .notEnabled
      else if noFrame p.place then .fault .noSuchFrame
      else
        let n := (p :: rest).foldl (fun n q => n + q.len) 0
        let (s1, res, bad) := amoHome s s (s.ctx core plat).world p.prot op p.place n sv cv
        .next (s1.putOut core plat { o with
          pieces := [], data := toBytes 8 res.toNat, poison := bad.map (fun code => (o.addr, code)) })
    | _, _ => .refused .notEnabled

/-- A corrected word is written back and counted at its level, saturating (R207, R355). -/
def execEccWriteback (word : Nat) (s : State) : Host.Outcome State Fault Refusal :=
  let inc (n : Nat) : Nat := min (n + 1) (2 ^ 32 - 1)
  let p := word * 8
  let h := s.hub
  if p < 384 * 0x800000 then .next { s with hub := { h with eccS1 := inc h.eccS1 } }
  else if 2 ^ 36 ≤ p ∧ p < 2 ^ 36 + 24 * 2 ^ 28 then .next { s with hub := { h with eccS2 := inc h.eccS2 } }
  else if 2 ^ 40 ≤ p ∧ p < 2 ^ 40 + 4 * 2 ^ 32 then .next { s with hub := { h with eccS3 := inc h.eccS3 } }
  else if isHbmPlace p then .next { s with hub := { h with eccHbm := inc h.eccHbm } }
  else .refused .notEnabled

/-! ## Moves (R429 to R431, R463) -/

/-- A move that has still to draw random bytes (R146). -/
def Move.draws (m : Move) (core : Nat) : Bool :=
  m.kind == .scopy && (List.range (m.rows - m.row)).any (fun i =>
    (m.rowAt core (m.row + i)).parts.any (fun p => !rawCopy p.sf p.df && fmtRnd p.df = 2))

/-- A read of a move may perform: it has waited for fences, unless it is an own-S1 access (R222), and for earlier accesses to its
line, and no claim holds it. -/
def Move.readReady (m : Move) (s : State) (core plat : Nat) (p : Piece) : Bool :=
  (isOwn core p.addr || s.allDone core plat m.waitsR) && !s.claimedPlace p.place && s.lineFree core plat m.id (p.place / 64)

/-- The next chunk of a move may be looked at: none of its reads is under way, earlier accesses to its lines have performed, and no
earlier move of the context has random bytes to draw before it. -/
def Move.chunkReady (m : Move) (s : State) (core plat : Nat) (ch : Chunk) : Bool :=
  let c := s.ctx core plat
  m.fetch.pieces.isEmpty && m.kind != .vldr &&
    (ch.places core (m.view c)).all (fun p => s.lineFree core plat m.id (p / 64)) &&
    !(m.draws core && c.moves.any (fun o => o.id < m.id && o.seed = m.seed && o.draws core))

/-- A write of a move may perform: as for its reads, and its home takes it; writes to one word keep their order. -/
def Move.storeReady (m : Move) (s : State) (core plat n : Nat) (w : Store) : Bool :=
  (isOwn core w.addr || s.allDone core plat m.waitsW) && s.lineFree core plat m.id (w.place / 64) &&
    !wordBefore m.stores n w && s.writable w.place w.begun

/-- Put a move back, or drop one that has read every row and written every word. -/
def Ctx.putMove (c : Ctx) (m : Move) : Ctx :=
  { c with moves :=
      if m.rows ≤ m.row && m.stores.isEmpty then c.moves.filter (·.id != m.id)
      else c.moves.map (fun o => if o.id = m.id then m else o) }

/-- A move after a chunk has been read into these writes. -/
def Move.advance (m : Move) (core : Nat) (ch : Chunk) (ws : List Store) : Move :=
  let d := m.at_ + ch.dlen
  let m1 := { m with stores := m.stores ++ ws, fetch := .empty }
  if (m.rowAt core m.row).dlen ≤ d then { m1 with row := m.row + 1, at_ := 0 } else { m1 with at_ := d }

/-- A move stops at a failure: it reads no more, and the context takes the fault asynchronously (R431); what it has read is
written still. -/
def State.stopMove (s : State) (core plat : Nat) (m : Move) (code addr : Nat) : State :=
  (s.setCtx core plat ((s.ctx core plat).putMove { m with row := m.rows, fetch := .empty })).asyncAt core plat code addr

/-- A VLDR ends: its register lands, or is marked poisoned (R463, R92). -/
def State.landMove (s : State) (core plat : Nat) (m : Move) (data : List Byte) (poison : Option (Nat × Nat)) : State :=
  s.setCtx core plat (((s.ctx core plat).putMove { m with row := m.rows, fetch := .empty }).arrive
    (.v m.reg (BitVec.ofNat 3072 (ofBytes data))) poison)

/-- The next chunk of TLD, TST or SCOPY: its reads begin, or, once they have performed, it is converted and cut into writes (R429,
R431). A plaintext line goes to no host frame (R342); the destination line of a poisoned source is left poisoned; a chunk that
needs random bytes of a unit not yet generated asks for it, and waits (R149). -/
def State.copyChunk (s : State) (core plat : Nat) (m : Move) (ch : Chunk) : Option State :=
  let c := m.view (s.ctx core plat)
  let r := m.rowAt core m.row
  if hostAt core c ch.dst && !cipherAt s core c ch.src then some (s.stopMove core plat m cFORM (ch.src / 64 * 64))
  else match ch.formBad s core c r, m.fetch.got with
    | some a, _ => some (s.stopMove core plat m cFORM a)
    | none, [] => some (s.setCtx core plat ((s.ctx core plat).putMove { m with fetch := m.fetch.begin core c ch.runs }))
    | none, (_, some a) :: _ =>
      let w : Store := { place := placeOf core c ch.dst, addr := ch.dst, data := [], whole := false, cipher := false,
                         prot := false, poison := true, begun := false }
      some (s.stopMove core plat { m with stores := m.stores ++ [w] } cHWERR a)
    | none, (bytes, none) :: _ =>
      if c.hasUnits m.seed 1 ch.draws then
        let v := ch.writes s core c r bytes (c.drawByte m.seed 1)
        some (s.setCtx core plat (((s.ctx core plat).draw m.seed 1 v.2).putMove (m.advance core ch v.1)))
      else
        let c1 := (s.ctx core plat).ask s.now m.seed 1 ch.draws
        if c1.needs = c.needs then none else some (s.setCtx core plat c1)

/-- The n-th word that a move reads performs; the last one of a VLDR lands its register (R463). -/
def State.readMove (s : State) (core plat : Nat) (m : Move) (n : Nat) (p : Piece) : State :=
  let r := fetchWord s (s.ctx core plat).world m.fetch n p
  match (if m.kind = .vldr then r.2.got else []) with
  | (d, bad) :: _ => r.1.landMove core plat m d (bad.map (fun _ => (m.src, cHWERR)))
  | [] => r.1.setCtx core plat ((r.1.ctx core plat).putMove { m with fetch := r.2 })

/-- The n-th of the writes of a move performs (R429); one that is not done stops the move (R209). -/
def State.writeMove (s : State) (core plat : Nat) (m : Move) (n : Nat) (w : Store) : State :=
  let (s1, ok) := s.performStore (s.ctx core plat).world w
  let m1 := { m with stores := writesLeft m.stores n }
  if ok then s1.setCtx core plat ((s1.ctx core plat).putMove m1) else s1.stopMove core plat m1 cHWERR (w.addr / 64 * 64)

/-- An outstanding move goes on: its next chunk (`word` 0), one of its writes (2n + 1) or of its reads (2n + 2) performs (R215,
R429). -/
def execMoveTransfer (core plat id word : Nat) (s : State) : Host.Outcome State Fault Refusal :=
  match (s.ctx core plat).moves.find? (·.id = id) with
  | none => .refused .notEnabled
  | some m =>
    match word with
    | 0 =>
      match m.chunk core with
      | none => .refused .notEnabled
      | some ch =>
        if !m.chunkReady s core plat ch then .refused .notEnabled
        else match s.copyChunk core plat m ch with
          | some s1 => .next s1
          | none => .refused .notEnabled
    | k + 1 =>
      if k % 2 = 0 then
        match m.stores[k / 2]? with
        | none => .refused .notEnabled
        | some w =>
          if !m.storeReady s core plat (k / 2) w then .refused .notEnabled
          else if noFrame w.place then .fault .noSuchFrame
          else .next (s.writeMove core plat m (k / 2) w)
      else
        match m.fetch.pieces[k / 2]? with
        | none => .refused .notEnabled
        | some p =>
          if !m.readReady s core plat p then .refused .notEnabled
          else if noFrame p.place then .fault .noSuchFrame
          else .next (s.readMove core plat m (k / 2) p)

end Sys2Proof.Machine
end

