-- ==== Sys2Proof/Machine/Scalar.lean ====
section
/-! DEFINITION. The X slot: scalar arithmetic, logic, shifts, compares, predicate logic and moves between classes (R102,
R358 to R439). Each instruction has its slot meaning and its meaning alone, an attempt to issue it as a bundle (R525). -/
namespace Sys2Proof.Machine

/-! ## Scalar arithmetic -/

/-- Bits 127 to 64 of an exact product (R410). -/
def mulHigh (a b : Int) : Word := BitVec.ofInt 64 (a * b / 2 ^ 64)
/-- Signed division (R383). -/
def divS (a b : Word) : Word := if b = 0 then BitVec.allOnes 64 else BitVec.ofInt 64 (a.toInt.tdiv b.toInt)
/-- Unsigned division (R383). -/
def divU (a b : Word) : Word := if b = 0 then BitVec.allOnes 64 else BitVec.ofNat 64 (a.toNat / b.toNat)
/-- Signed remainder (R421). -/
def remS (a b : Word) : Word := if b = 0 then a else BitVec.ofInt 64 (a.toInt.tmod b.toInt)
/-- Unsigned remainder (R421). -/
def remU (a b : Word) : Word := if b = 0 then a else BitVec.ofNat 64 (a.toNat % b.toNat)
/-- A shift count, x[xb][5:0] (R437). -/
def shiftBy (b : Word) : Nat := (b.extractLsb' 0 6).toNat

def leadingZerosFrom (n : Nat) (a : Word) : Nat :=
  match n with
  | 0 => 0
  | k + 1 => if a.getLsbD k then 0 else 1 + leadingZerosFrom k a
/-- CLZ (R380). -/
def leadingZeros (a : Word) : Word := BitVec.ofNat 64 (leadingZerosFrom 64 a)

def setBitsBelow (n : Nat) (a : Word) : Nat :=
  match n with
  | 0 => 0
  | k + 1 => (a.getLsbD k).toNat + setBitsBelow k a
/-- POPC (R419). -/
def popCount (a : Word) : Word := BitVec.ofNat 64 (setBitsBelow 64 a)

/-- x[xd] := wrap(x[xa] + x[xb], 64) (R360). -/
def slotAdd (xd xa xb : BitVec 6) : SlotSem :=
  lands 1 (fun e => .x xd.toNat (addW (e.c.rdX xa) (e.c.rdX xb)))

def execAdd (g : Guard) (xd xa xb : BitVec 6) (s : State) : Host.Outcome State Fault Refusal :=
  issueAlone (.add g xd xa xb) (slotAdd xd xa xb) s

/-- x[xd] := wrap(x[xa] − x[xb], 64) (R439). -/
def slotSub (xd xa xb : BitVec 6) : SlotSem :=
  lands 1 (fun e => .x xd.toNat (subW (e.c.rdX xa) (e.c.rdX xb)))

def execSub (g : Guard) (xd xa xb : BitVec 6) (s : State) : Host.Outcome State Fault Refusal :=
  issueAlone (.sub g xd xa xb) (slotSub xd xa xb) s

/-- x[xd] := wrap(x[xa] + sext(im16), 64) (R360). -/
def slotAddi (xd xa : BitVec 6) (imm : BitVec 16) : SlotSem :=
  lands 1 (fun e => .x xd.toNat (addW (e.c.rdX xa) (imm.signExtend 64)))

def execAddi (g : Guard) (xd xa : BitVec 6) (imm : BitVec 16) (s : State) : Host.Outcome State Fault Refusal :=
  issueAlone (.addi g xd xa imm) (slotAddi xd xa imm) s

/-- The low half of the product (R410). -/
def slotMul (xd xa xb : BitVec 6) : SlotSem :=
  lands 3 (fun e => .x xd.toNat ((e.c.rdX xa) * (e.c.rdX xb)))

def execMul (g : Guard) (xd xa xb : BitVec 6) (s : State) : Host.Outcome State Fault Refusal :=
  issueAlone (.mul g xd xa xb) (slotMul xd xa xb) s

/-- The high half of the signed product (R410). -/
def slotMulh (xd xa xb : BitVec 6) : SlotSem :=
  lands 3 (fun e => .x xd.toNat (mulHigh (e.c.rdX xa).toInt (e.c.rdX xb).toInt))

def execMulh (g : Guard) (xd xa xb : BitVec 6) (s : State) : Host.Outcome State Fault Refusal :=
  issueAlone (.mulh g xd xa xb) (slotMulh xd xa xb) s

/-- The high half of the unsigned product (R410). -/
def slotMulhu (xd xa xb : BitVec 6) : SlotSem :=
  lands 3 (fun e => .x xd.toNat (mulHigh (e.c.rdX xa).toNat (e.c.rdX xb).toNat))

def execMulhu (g : Guard) (xd xa xb : BitVec 6) (s : State) : Host.Outcome State Fault Refusal :=
  issueAlone (.mulhu g xd xa xb) (slotMulhu xd xa xb) s

/-- Signed quotient toward zero, all ones by zero (R383). -/
def slotDiv (xd xa xb : BitVec 6) : SlotSem :=
  lands 20 (fun e => .x xd.toNat (divS (e.c.rdX xa) (e.c.rdX xb)))

def execDiv (g : Guard) (xd xa xb : BitVec 6) (s : State) : Host.Outcome State Fault Refusal :=
  issueAlone (.div g xd xa xb) (slotDiv xd xa xb) s

/-- Unsigned quotient, all ones by zero (R383). -/
def slotDivu (xd xa xb : BitVec 6) : SlotSem :=
  lands 20 (fun e => .x xd.toNat (divU (e.c.rdX xa) (e.c.rdX xb)))

def execDivu (g : Guard) (xd xa xb : BitVec 6) (s : State) : Host.Outcome State Fault Refusal :=
  issueAlone (.divu g xd xa xb) (slotDivu xd xa xb) s

/-- Signed remainder with the dividend's sign, the dividend by zero (R421). -/
def slotRem (xd xa xb : BitVec 6) : SlotSem :=
  lands 20 (fun e => .x xd.toNat (remS (e.c.rdX xa) (e.c.rdX xb)))

def execRem (g : Guard) (xd xa xb : BitVec 6) (s : State) : Host.Outcome State Fault Refusal :=
  issueAlone (.rem g xd xa xb) (slotRem xd xa xb) s

/-- Unsigned remainder, the dividend by zero (R421). -/
def slotRemu (xd xa xb : BitVec 6) : SlotSem :=
  lands 20 (fun e => .x xd.toNat (remU (e.c.rdX xa) (e.c.rdX xb)))

def execRemu (g : Guard) (xd xa xb : BitVec 6) (s : State) : Host.Outcome State Fault Refusal :=
  issueAlone (.remu g xd xa xb) (slotRemu xd xa xb) s

/-- Bitwise and (R367). -/
def slotAnd (xd xa xb : BitVec 6) : SlotSem :=
  lands 1 (fun e => .x xd.toNat ((e.c.rdX xa) &&& (e.c.rdX xb)))

def execAnd (g : Guard) (xd xa xb : BitVec 6) (s : State) : Host.Outcome State Fault Refusal :=
  issueAlone (.and g xd xa xb) (slotAnd xd xa xb) s

/-- Bitwise or (R415). -/
def slotOr (xd xa xb : BitVec 6) : SlotSem :=
  lands 1 (fun e => .x xd.toNat ((e.c.rdX xa) ||| (e.c.rdX xb)))

def execOr (g : Guard) (xd xa xb : BitVec 6) (s : State) : Host.Outcome State Fault Refusal :=
  issueAlone (.or g xd xa xb) (slotOr xd xa xb) s

/-- Bitwise exclusive or (R473). -/
def slotXor (xd xa xb : BitVec 6) : SlotSem :=
  lands 1 (fun e => .x xd.toNat ((e.c.rdX xa) ^^^ (e.c.rdX xb)))

def execXor (g : Guard) (xd xa xb : BitVec 6) (s : State) : Host.Outcome State Fault Refusal :=
  issueAlone (.xor g xd xa xb) (slotXor xd xa xb) s

/-- And with a sign-extended immediate (R367). -/
def slotAndi (xd xa : BitVec 6) (imm : BitVec 16) : SlotSem :=
  lands 1 (fun e => .x xd.toNat ((e.c.rdX xa) &&& (imm.signExtend 64)))

def execAndi (g : Guard) (xd xa : BitVec 6) (imm : BitVec 16) (s : State) : Host.Outcome State Fault Refusal :=
  issueAlone (.andi g xd xa imm) (slotAndi xd xa imm) s

/-- Or with a sign-extended immediate (R415). -/
def slotOri (xd xa : BitVec 6) (imm : BitVec 16) : SlotSem :=
  lands 1 (fun e => .x xd.toNat ((e.c.rdX xa) ||| (imm.signExtend 64)))

def execOri (g : Guard) (xd xa : BitVec 6) (imm : BitVec 16) (s : State) : Host.Outcome State Fault Refusal :=
  issueAlone (.ori g xd xa imm) (slotOri xd xa imm) s

/-- Exclusive or with a sign-extended immediate (R473). -/
def slotXori (xd xa : BitVec 6) (imm : BitVec 16) : SlotSem :=
  lands 1 (fun e => .x xd.toNat ((e.c.rdX xa) ^^^ (imm.signExtend 64)))

def execXori (g : Guard) (xd xa : BitVec 6) (imm : BitVec 16) (s : State) : Host.Outcome State Fault Refusal :=
  issueAlone (.xori g xd xa imm) (slotXori xd xa imm) s

/-- Shift left by x[xb][5:0] (R437). -/
def slotShl (xd xa xb : BitVec 6) : SlotSem :=
  lands 1 (fun e => .x xd.toNat ((e.c.rdX xa) <<< (shiftBy (e.c.rdX xb))))

def execShl (g : Guard) (xd xa xb : BitVec 6) (s : State) : Host.Outcome State Fault Refusal :=
  issueAlone (.shl g xd xa xb) (slotShl xd xa xb) s

/-- Logical shift right by x[xb][5:0] (R437). -/
def slotShr (xd xa xb : BitVec 6) : SlotSem :=
  lands 1 (fun e => .x xd.toNat ((e.c.rdX xa) >>> (shiftBy (e.c.rdX xb))))

def execShr (g : Guard) (xd xa xb : BitVec 6) (s : State) : Host.Outcome State Fault Refusal :=
  issueAlone (.shr g xd xa xb) (slotShr xd xa xb) s

/-- Arithmetic shift right by x[xb][5:0] (R437). -/
def slotSra (xd xa xb : BitVec 6) : SlotSem :=
  lands 1 (fun e => .x xd.toNat ((e.c.rdX xa).sshiftRight (shiftBy (e.c.rdX xb))))

def execSra (g : Guard) (xd xa xb : BitVec 6) (s : State) : Host.Outcome State Fault Refusal :=
  issueAlone (.sra g xd xa xb) (slotSra xd xa xb) s

/-- Shift left by the immediate (R437). -/
def slotShli (xd xa : BitVec 6) (imm : BitVec 6) : SlotSem :=
  lands 1 (fun e => .x xd.toNat ((e.c.rdX xa) <<< imm.toNat))

def execShli (g : Guard) (xd xa : BitVec 6) (imm : BitVec 6) (s : State) : Host.Outcome State Fault Refusal :=
  issueAlone (.shli g xd xa imm) (slotShli xd xa imm) s

/-- Logical shift right by the immediate (R437). -/
def slotShri (xd xa : BitVec 6) (imm : BitVec 6) : SlotSem :=
  lands 1 (fun e => .x xd.toNat ((e.c.rdX xa) >>> imm.toNat))

def execShri (g : Guard) (xd xa : BitVec 6) (imm : BitVec 6) (s : State) : Host.Outcome State Fault Refusal :=
  issueAlone (.shri g xd xa imm) (slotShri xd xa imm) s

/-- Arithmetic shift right by the immediate (R437). -/
def slotSrai (xd xa : BitVec 6) (imm : BitVec 6) : SlotSem :=
  lands 1 (fun e => .x xd.toNat ((e.c.rdX xa).sshiftRight imm.toNat))

def execSrai (g : Guard) (xd xa : BitVec 6) (imm : BitVec 6) (s : State) : Host.Outcome State Fault Refusal :=
  issueAlone (.srai g xd xa imm) (slotSrai xd xa imm) s

/-- The smaller, signed (R400). -/
def slotMin (xd xa xb : BitVec 6) : SlotSem :=
  lands 1 (fun e => .x xd.toNat (if (e.c.rdX xa).toInt ≤ (e.c.rdX xb).toInt then (e.c.rdX xa) else (e.c.rdX xb)))

def execMin (g : Guard) (xd xa xb : BitVec 6) (s : State) : Host.Outcome State Fault Refusal :=
  issueAlone (.min g xd xa xb) (slotMin xd xa xb) s

/-- The larger, signed (R400). -/
def slotMax (xd xa xb : BitVec 6) : SlotSem :=
  lands 1 (fun e => .x xd.toNat (if (e.c.rdX xa).toInt ≤ (e.c.rdX xb).toInt then (e.c.rdX xb) else (e.c.rdX xa)))

def execMax (g : Guard) (xd xa xb : BitVec 6) (s : State) : Host.Outcome State Fault Refusal :=
  issueAlone (.max g xd xa xb) (slotMax xd xa xb) s

/-- The smaller, unsigned (R400). -/
def slotMinu (xd xa xb : BitVec 6) : SlotSem :=
  lands 1 (fun e => .x xd.toNat (if (e.c.rdX xa).toNat ≤ (e.c.rdX xb).toNat then (e.c.rdX xa) else (e.c.rdX xb)))

def execMinu (g : Guard) (xd xa xb : BitVec 6) (s : State) : Host.Outcome State Fault Refusal :=
  issueAlone (.minu g xd xa xb) (slotMinu xd xa xb) s

/-- The larger, unsigned (R400). -/
def slotMaxu (xd xa xb : BitVec 6) : SlotSem :=
  lands 1 (fun e => .x xd.toNat (if (e.c.rdX xa).toNat ≤ (e.c.rdX xb).toNat then (e.c.rdX xb) else (e.c.rdX xa)))

def execMaxu (g : Guard) (xd xa xb : BitVec 6) (s : State) : Host.Outcome State Fault Refusal :=
  issueAlone (.maxu g xd xa xb) (slotMaxu xd xa xb) s

/-- Zero bits above the highest set bit, 64 for 0 (R380). -/
def slotClz (xd xa : BitVec 6) : SlotSem :=
  lands 1 (fun e => .x xd.toNat (leadingZeros (e.c.rdX xa)))

def execClz (g : Guard) (xd xa : BitVec 6) (s : State) : Host.Outcome State Fault Refusal :=
  issueAlone (.clz g xd xa) (slotClz xd xa) s

/-- The number of set bits (R419). -/
def slotPopc (xd xa : BitVec 6) : SlotSem :=
  lands 1 (fun e => .x xd.toNat (popCount (e.c.rdX xa)))

def execPopc (g : Guard) (xd xa : BitVec 6) (s : State) : Host.Outcome State Fault Refusal :=
  issueAlone (.popc g xd xa) (slotPopc xd xa) s

/-- x[xd] := sext(imm28, 28) (R393). -/
def slotLi (xd : BitVec 6) (imm : BitVec 28) : SlotSem :=
  lands 1 (fun _ => .x xd.toNat (imm.signExtend 64))

def execLi (g : Guard) (xd : BitVec 6) (imm : BitVec 28) (s : State) : Host.Outcome State Fault Refusal :=
  issueAlone (.li g xd imm) (slotLi xd imm) s

/-- x[xd][63:32] := the low 32 bits of sext(imm28, 28), the rest unchanged (R393). -/
def slotLih (xd : BitVec 6) (imm : BitVec 28) : SlotSem :=
  lands 1 (fun e => .x xd.toNat ((imm.signExtend 32) ++ (e.c.rdX xd).extractLsb' 0 32))

def execLih (g : Guard) (xd : BitVec 6) (imm : BitVec 28) (s : State) : Host.Outcome State Fault Refusal :=
  issueAlone (.lih g xd imm) (slotLih xd imm) s

/-- p[pa] selects x[xa] or x[xb] (R432). -/
def slotSel (xd : BitVec 6) (pa : BitVec 4) (xa xb : BitVec 6) : SlotSem :=
  lands 1 (fun e => .x xd.toNat (if e.c.rdP pa then (e.c.rdX xa) else (e.c.rdX xb)))

def execSel (g : Guard) (xd : BitVec 6) (pa : BitVec 4) (xa xb : BitVec 6) (s : State) : Host.Outcome State Fault Refusal :=
  issueAlone (.sel g xd pa xa xb) (slotSel xd pa xa xb) s

/-- x[xd] := a[aa], all 64 bits (R408). -/
def slotMovax (xd : BitVec 6) (aa : BitVec 5) : SlotSem :=
  lands 1 (fun e => .x xd.toNat (e.c.rdA aa))

def execMovax (g : Guard) (xd : BitVec 6) (aa : BitVec 5) (s : State) : Host.Outcome State Fault Refusal :=
  issueAlone (.movax g xd aa) (slotMovax xd aa) s

/-- a[ad] := x[xa], all 64 bits (R87, R408). -/
def slotMovxa (ad : BitVec 5) (xa : BitVec 6) : SlotSem :=
  lands 1 (fun e => .a ad.toNat (e.c.rdX xa))

def execMovxa (g : Guard) (ad : BitVec 5) (xa : BitVec 6) (s : State) : Host.Outcome State Fault Refusal :=
  issueAlone (.movxa g ad xa) (slotMovxa ad xa) s

/-- p[pd] := x[xa] = x[xb] (R381). -/
def slotCmpeq (pd : BitVec 4) (xa xb : BitVec 6) : SlotSem :=
  lands 1 (fun e => .p pd.toNat (decide ((e.c.rdX xa) = (e.c.rdX xb))))

def execCmpeq (g : Guard) (pd : BitVec 4) (xa xb : BitVec 6) (s : State) : Host.Outcome State Fault Refusal :=
  issueAlone (.cmpeq g pd xa xb) (slotCmpeq pd xa xb) s

/-- p[pd] := x[xa] ≠ x[xb] (R381). -/
def slotCmpne (pd : BitVec 4) (xa xb : BitVec 6) : SlotSem :=
  lands 1 (fun e => .p pd.toNat (decide ((e.c.rdX xa) ≠ (e.c.rdX xb))))

def execCmpne (g : Guard) (pd : BitVec 4) (xa xb : BitVec 6) (s : State) : Host.Outcome State Fault Refusal :=
  issueAlone (.cmpne g pd xa xb) (slotCmpne pd xa xb) s

/-- p[pd] := x[xa] < x[xb], signed (R381). -/
def slotCmplt (pd : BitVec 4) (xa xb : BitVec 6) : SlotSem :=
  lands 1 (fun e => .p pd.toNat (decide ((e.c.rdX xa).toInt < (e.c.rdX xb).toInt)))

def execCmplt (g : Guard) (pd : BitVec 4) (xa xb : BitVec 6) (s : State) : Host.Outcome State Fault Refusal :=
  issueAlone (.cmplt g pd xa xb) (slotCmplt pd xa xb) s

/-- p[pd] := x[xa] < x[xb], unsigned (R381). -/
def slotCmpltu (pd : BitVec 4) (xa xb : BitVec 6) : SlotSem :=
  lands 1 (fun e => .p pd.toNat (decide ((e.c.rdX xa).toNat < (e.c.rdX xb).toNat)))

def execCmpltu (g : Guard) (pd : BitVec 4) (xa xb : BitVec 6) (s : State) : Host.Outcome State Fault Refusal :=
  issueAlone (.cmpltu g pd xa xb) (slotCmpltu pd xa xb) s

/-- p[pd] := x[xa] ≤ x[xb], signed (R381). -/
def slotCmple (pd : BitVec 4) (xa xb : BitVec 6) : SlotSem :=
  lands 1 (fun e => .p pd.toNat (decide ((e.c.rdX xa).toInt ≤ (e.c.rdX xb).toInt)))

def execCmple (g : Guard) (pd : BitVec 4) (xa xb : BitVec 6) (s : State) : Host.Outcome State Fault Refusal :=
  issueAlone (.cmple g pd xa xb) (slotCmple pd xa xb) s

/-- p[pd] := x[xa] ≤ x[xb], unsigned (R381). -/
def slotCmpleu (pd : BitVec 4) (xa xb : BitVec 6) : SlotSem :=
  lands 1 (fun e => .p pd.toNat (decide ((e.c.rdX xa).toNat ≤ (e.c.rdX xb).toNat)))

def execCmpleu (g : Guard) (pd : BitVec 4) (xa xb : BitVec 6) (s : State) : Host.Outcome State Fault Refusal :=
  issueAlone (.cmpleu g pd xa xb) (slotCmpleu pd xa xb) s

/-- p[pd] := x[xa] = sext(im16) (R381). -/
def slotCmpeqi (pd : BitVec 4) (xa : BitVec 6) (imm : BitVec 16) : SlotSem :=
  lands 1 (fun e => .p pd.toNat (decide ((e.c.rdX xa) = (imm.signExtend 64))))

def execCmpeqi (g : Guard) (pd : BitVec 4) (xa : BitVec 6) (imm : BitVec 16) (s : State) : Host.Outcome State Fault Refusal :=
  issueAlone (.cmpeqi g pd xa imm) (slotCmpeqi pd xa imm) s

/-- p[pd] := x[xa] < sext(im16), signed (R381). -/
def slotCmplti (pd : BitVec 4) (xa : BitVec 6) (imm : BitVec 16) : SlotSem :=
  lands 1 (fun e => .p pd.toNat (decide ((e.c.rdX xa).toInt < (imm.signExtend 64).toInt)))

def execCmplti (g : Guard) (pd : BitVec 4) (xa : BitVec 6) (imm : BitVec 16) (s : State) : Host.Outcome State Fault Refusal :=
  issueAlone (.cmplti g pd xa imm) (slotCmplti pd xa imm) s

/-- p[pd] := p[pa] AND p[pb] (R416). -/
def slotPand (pd pa pb : BitVec 4) : SlotSem :=
  lands 1 (fun e => .p pd.toNat (e.c.rdP pa && e.c.rdP pb))

def execPand (g : Guard) (pd pa pb : BitVec 4) (s : State) : Host.Outcome State Fault Refusal :=
  issueAlone (.pand g pd pa pb) (slotPand pd pa pb) s

/-- p[pd] := p[pa] OR p[pb] (R416). -/
def slotPor (pd pa pb : BitVec 4) : SlotSem :=
  lands 1 (fun e => .p pd.toNat (e.c.rdP pa || e.c.rdP pb))

def execPor (g : Guard) (pd pa pb : BitVec 4) (s : State) : Host.Outcome State Fault Refusal :=
  issueAlone (.por g pd pa pb) (slotPor pd pa pb) s

/-- p[pd] := p[pa] XOR p[pb] (R416). -/
def slotPxor (pd pa pb : BitVec 4) : SlotSem :=
  lands 1 (fun e => .p pd.toNat (e.c.rdP pa != e.c.rdP pb))

def execPxor (g : Guard) (pd pa pb : BitVec 4) (s : State) : Host.Outcome State Fault Refusal :=
  issueAlone (.pxor g pd pa pb) (slotPxor pd pa pb) s

/-- p[pd] := NOT p[pa] (R416). -/
def slotPnot (pd pa : BitVec 4) : SlotSem :=
  lands 1 (fun e => .p pd.toNat (!e.c.rdP pa))

def execPnot (g : Guard) (pd pa : BitVec 4) (s : State) : Host.Outcome State Fault Refusal :=
  issueAlone (.pnot g pd pa) (slotPnot pd pa) s

end Sys2Proof.Machine
end

