-- ==== Sys2Proof/Machine/Slots.lean ====
section
/-! DEFINITION. What each slot instruction is to the issue logic, and the issue of a bundle (R525). -/
namespace Sys2Proof.Machine

/-- The meaning of each slot instruction; the device's own steps are no slot instructions. -/
def slotSem (i : Instr) : SlotSem :=
  match i with
  | .br _ off => slotBr off
  | .brx _ xa => slotBrx xa
  | .call _ off => slotCall off
  | .callx _ xa => slotCallx xa
  | .ret _ => slotRet
  | .halt _ => slotHalt
  | .yield _ => slotYield
  | .park _ => slotPark
  | .tret _ => slotTret
  | .axleave _ => slotAxleave
  | .loop _ xa off => slotLoop xa off
  | .loopi _ count off => slotLoopi count off
  | .trap _ imm => slotTrap imm
  | .svc _ imm => slotSvc imm
  | .fence _ pred succ scope => slotFence pred succ scope
  | .drain _ scope => slotDrain scope
  | .barc _ xa => slotBarc xa
  | .axenter _ id off => slotAxenter id off
  | .getc _ xd creg => slotGetc xd creg
  | .setc _ creg xa => slotSetc creg xa
  | .setci _ creg imm => slotSetci creg imm
  | .add _ xd xa xb => slotAdd xd xa xb
  | .sub _ xd xa xb => slotSub xd xa xb
  | .addi _ xd xa imm => slotAddi xd xa imm
  | .mul _ xd xa xb => slotMul xd xa xb
  | .mulh _ xd xa xb => slotMulh xd xa xb
  | .mulhu _ xd xa xb => slotMulhu xd xa xb
  | .div _ xd xa xb => slotDiv xd xa xb
  | .divu _ xd xa xb => slotDivu xd xa xb
  | .rem _ xd xa xb => slotRem xd xa xb
  | .remu _ xd xa xb => slotRemu xd xa xb
  | .and _ xd xa xb => slotAnd xd xa xb
  | .or _ xd xa xb => slotOr xd xa xb
  | .xor _ xd xa xb => slotXor xd xa xb
  | .andi _ xd xa imm => slotAndi xd xa imm
  | .ori _ xd xa imm => slotOri xd xa imm
  | .xori _ xd xa imm => slotXori xd xa imm
  | .shl _ xd xa xb => slotShl xd xa xb
  | .shr _ xd xa xb => slotShr xd xa xb
  | .sra _ xd xa xb => slotSra xd xa xb
  | .shli _ xd xa imm => slotShli xd xa imm
  | .shri _ xd xa imm => slotShri xd xa imm
  | .srai _ xd xa imm => slotSrai xd xa imm
  | .min _ xd xa xb => slotMin xd xa xb
  | .max _ xd xa xb => slotMax xd xa xb
  | .minu _ xd xa xb => slotMinu xd xa xb
  | .maxu _ xd xa xb => slotMaxu xd xa xb
  | .clz _ xd xa => slotClz xd xa
  | .popc _ xd xa => slotPopc xd xa
  | .li _ xd imm => slotLi xd imm
  | .lih _ xd imm => slotLih xd imm
  | .sel _ xd pa xa xb => slotSel xd pa xa xb
  | .cmpeq _ pd xa xb => slotCmpeq pd xa xb
  | .cmpne _ pd xa xb => slotCmpne pd xa xb
  | .cmplt _ pd xa xb => slotCmplt pd xa xb
  | .cmpltu _ pd xa xb => slotCmpltu pd xa xb
  | .cmple _ pd xa xb => slotCmple pd xa xb
  | .cmpleu _ pd xa xb => slotCmpleu pd xa xb
  | .cmpeqi _ pd xa imm => slotCmpeqi pd xa imm
  | .cmplti _ pd xa imm => slotCmplti pd xa imm
  | .pand _ pd pa pb => slotPand pd pa pb
  | .por _ pd pa pb => slotPor pd pa pb
  | .pxor _ pd pa pb => slotPxor pd pa pb
  | .pnot _ pd pa => slotPnot pd pa
  | .movxa _ ad xa => slotMovxa ad xa
  | .movax _ xd aa => slotMovax xd aa
  | .aadd _ ad ab xa => slotAadd ad ab xa
  | .aaddi _ ad ab imm => slotAaddi ad ab imm
  | .ali _ ad imm => slotAli ad imm
  | .vld g vd aa off => slotVld g vd aa off
  | .vst g va aa off => slotVst g va aa off
  | .vlds g vd aa off => slotVlds g vd aa off
  | .vsts g va aa off => slotVsts g va aa off
  | .vldr g vd aa off => slotVldr g vd aa off
  | .vstr g va aa off => slotVstr g va aa off
  | .vgath g sz vd aa vi => slotVgath g sz vd aa vi
  | .vscat g sz va aa vi => slotVscat g sz va aa vi
  | .ldx g sz xd aa off => slotLdx g sz xd aa off
  | .stx g sz xa aa off => slotStx g sz xa aa off
  | .mld g md aa off => slotMld g md aa off
  | .mst g ma aa off => slotMst g ma aa off
  | .tld _ ad ab xa => slotTld ad ab xa
  | .tst _ ad ab xa => slotTst ad ab xa
  | .scopy _ ad ab xa => slotScopy ad ab xa
  | .winset _ aa va => slotWinset aa va
  | .amoadd g dbl xd aa xn => slotAmoadd g dbl xd aa xn
  | .amoand g dbl xd aa xn => slotAmoand g dbl xd aa xn
  | .amoor g dbl xd aa xn => slotAmoor g dbl xd aa xn
  | .amomin g dbl xd aa xn => slotAmomin g dbl xd aa xn
  | .amomax g dbl xd aa xn => slotAmomax g dbl xd aa xn
  | .amoswap g dbl xd aa xn => slotAmoswap g dbl xd aa xn
  | .amocas g dbl xd aa xn => slotAmocas g dbl xd aa xn
  | .vadd _ f rm sat vd va vb => slotVadd f rm sat vd va vb
  | .vsub _ f rm sat vd va vb => slotVsub f rm sat vd va vb
  | .vmul _ f rm sat vd va vb => slotVmul f rm sat vd va vb
  | .vfma _ f rm sat vd va vb vc => slotVfma f rm sat vd va vb vc
  | .vfms _ f rm sat vd va vb vc => slotVfms f rm sat vd va vb vc
  | .vmin _ f vd va vb => slotVmin f vd va vb
  | .vmax _ f vd va vb => slotVmax f vd va vb
  | .vcmpeq _ f vd va vb => slotVcmpeq f vd va vb
  | .vcmplt _ f vd va vb => slotVcmplt f vd va vb
  | .vcmple _ f vd va vb => slotVcmple f vd va vb
  | .vperm _ f vd va vb => slotVperm f vd va vb
  | .vrot _ f vd va imm => slotVrot f vd va imm
  | .vshl _ f vd va vb => slotVshl f vd va vb
  | .vshr _ f vd va vb => slotVshr f vd va vb
  | .vsra _ f vd va vb => slotVsra f vd va vb
  | .vand _ vd va vb => slotVand vd va vb
  | .vor _ vd va vb => slotVor vd va vb
  | .vxor _ vd va vb => slotVxor vd va vb
  | .vnot _ vd va => slotVnot vd va
  | .vmov _ vd va => slotVmov vd va
  | .vsel _ vd va vb vc => slotVsel vd va vb vc
  | .vabs _ f sat vd va => slotVabs f sat vd va
  | .vneg _ f sat vd va => slotVneg f sat vd va
  | .vcvt _ fs ft rm sat vd va => slotVcvt fs ft rm sat vd va
  | .vbcst _ f vd xa => slotVbcst f vd xa
  | .vinsx _ f vd va xa ln => slotVinsx f vd va xa ln
  | .vextx _ f xd va ln => slotVextx f xd va ln
  | .viota _ f vd imm => slotViota f vd imm
  | .vradd _ f rm vd va => slotVradd f rm vd va
  | .vrmax _ f _ vd va => slotVrmax f vd va
  | .vrmin _ f _ vd va => slotVrmin f vd va
  | .vscan _ f rm vd va => slotVscan f rm vd va
  | .vexp _ vd va => slotVexp vd va
  | .vlog _ vd va => slotVlog vd va
  | .vrcp _ vd va => slotVrcp vd va
  | .vrsq _ vd va => slotVrsq vd va
  | .vtanh _ vd va => slotVtanh vd va
  | .vsigm _ vd va => slotVsigm vd va
  | .madd _ md ma mb => slotMadd md ma mb
  | .msub _ md ma mb => slotMsub md ma mb
  | .mmul _ md ma mb => slotMmul md ma mb
  | .maff _ md ma vb vc => slotMaff md ma vb vc
  | .msqr _ md ma => slotMsqr md ma
  | .mmov _ md ma => slotMmov md ma
  | .mrelu _ md ma => slotMrelu md ma
  | .mexp _ md ma => slotMexp md ma
  | .mform _ md va vb => slotMform md va vb
  | .mcoll _ mode vd ma => slotMcoll mode vd ma
  | .tmma _ pl aA aB xs kcl acc win => slotTmma pl aA aB xs kcl acc win
  | .tmmb _ pl aA aB xs kcl acc => slotTmmb pl aA aB xs kcl acc
  | .tmmm _ aA aB xs kcl acc => slotTmmm aA aB xs kcl acc
  | .tzero _ pl xs => slotTzero pl xs
  | .tdrain _ pl aA ep vb => slotTdrain pl aA ep vb
  | .tfill _ plane aA => slotTfill plane aA
  | .chstart _ ch aa => slotChstart ch aa
  | .chstop _ ch => slotChstop ch
  | .ringcfg _ ring xa => slotRingcfg ring xa
  | .awaitf _ ring thr => slotAwaitf ring thr
  | .rels _ ring cnt => slotRels ring cnt
  | .ringrd _ xd ring => slotRingrd xd ring
  | .ysort _ aa ring inc => slotYsort aa ring inc
  | .ygath _ aa ring inc => slotYgath aa ring inc
  | .ycomb _ aa ring inc => slotYcomb aa ring inc
  | .xa2av _ aa ring inc => slotXa2av aa ring inc
  | .xar _ aa ring inc => slotXar aa ring inc
  | .xag _ aa ring inc => slotXag aa ring inc
  | .xrun _ aa xa ring inc => slotXrun aa xa ring inc
  | .sendh _ va aa xa handler => slotSendh va aa xa handler
  | .sealL _ aa xa ring inc => slotSealL aa xa ring inc
  | .openL _ aa xa ring inc => slotOpenL aa xa ring inc
  | .rqseed _ va xa => slotRqseed va xa
  | .axinv _ id => slotAxinv id
  | .axqry _ xd id => slotAxqry xd id
  | .boundInstruction _ cls code raw => slotBound cls code raw
  | _ => plain (fun _ s => .done s)

/-- The core attempts to issue the next bundle of the platform that it selects (R55, R525). -/
def execBundleIssue (core : Nat) (s : State) : Host.Outcome State Fault Refusal :=
  match (s.core core).next s.now with
  | some p =>
    if core < 384 then .next (attempt slotSem (fun t => s.bundleAt core t) core p (s.focusOn core p)) else .refused .notEnabled
  | none => .refused .notEnabled

end Sys2Proof.Machine
end

