-- ==== Sys2Proof/Machine/CoreEvents.lean ====
section
/-! DEFINITION. Steps of a core by itself: waits and blocks that end (R54, R61), routines (R90, R160, R278), faults on their
way (R304, R305, R315), the stoker (R149, R425), arrivals (R63, R434), barriers (R65), the ring unit (R423) and the tablets
of the deadlock rules (R325 to R327). -/
namespace Sys2Proof.Machine

/-! ## Waits and blocks (R53 to R56, R61) -/

/-- A READY platform's wait exceeds the quantum (R54). -/
def execQuantumExpiry (core plat : Nat) (s : State) : Host.Outcome State Fault Refusal :=
  let c := s.ctx core plat
  if c.state = .ready ∧ c.overdue = false ∧ (s.partition c.part).quantum < s.now - c.readySince then
    .next (s.setCtx core plat { c with overdue := true })
  else .refused .notEnabled

/-- A held member of a released gang has been held for more than the quantum (R61). -/
def execTimeshareHoldExpiry (core plat rank : Nat) (s : State) : Host.Outcome State Fault Refusal :=
  let k := s.core core
  let hit (h : Held) : Bool := h.plat = plat && h.ctx.place.rank = rank && !h.due &&
    s.launches.any (fun l => l.id = h.ctx.gang && l.phase = 2) && (s.partition h.ctx.part).quantum < s.now - h.since
  if k.held.any hit then
    .next (s.setCore core { k with held := k.held.map (fun h => if hit h then { h with due := true } else h) })
  else .refused .notEnabled

/-- The parts that the context attempts next: its replay, or the bundle at its PC. -/
def State.nextParts (s : State) (core plat : Nat) : List Part :=
  let c := s.ctx core plat
  let d := s.bundleAt core c.flow.pc
  match c.resume with
  | .replay n => mkParts slotSem c ((d.bundle.slots.filter (fun p => p.1.num = n)).map (fun p => (p.1, p.2.spread)))
  | _ => mkParts slotSem c d.bundle.slots

/-- The condition that a BLOCKED context waits for has cleared (R53). -/
def State.cleared (s : State) (core plat : Nat) (why : BlockWhy) : Bool :=
  let c := s.ctx core plat
  let k := s.core core
  match why with
  | .pending rs => rs.all (fun r => !c.isPending r)
  | .randomQueue => !c.queue.isEmpty && !c.seeding
  | .cmdQueue => c.cmdRoom
  | .moves => c.moves.length < 8
  | .outbound => c.outLive.length < 32
  | .await ring thr => !c.ringCfgPending ring && thr ≤ (c.ring ring).avail
  | .drain ids => s.allDone core plat ids
  | .barrier b => (SMap.get [] (s.cluster (clusterOf core)).passed b).contains (c.ctxid, c.flow.pc)
  | .spill => (k.half (k.halfOf plat)).spill.isNone
  | .ringcfg ring => !c.ringCfgPending ring
  | .moveConflict =>
    match blockOf core plat (s.bundleAt core c.flow.pc).bundle.hdr s (s.nextParts core plat) with
    | some (.moveConflict, _) => false
    | _ => true
  | .halt => false
  | .fault => false
  | .leaving _ => false

/-- The context enters READY; its wait starts in this cycle, and it issues in the next at the earliest (R54, R55). -/
def Ctx.makeReady (c : Ctx) (now : Nat) : Ctx :=
  { c with state := .ready, why := none, readySince := now, wake := now + 1, overdue := false }

/-- The context blocks at a barrier that has not counted it, and the conditions of R66 hold (R65, R374). -/
def State.arrivesAt (s : State) (core plat b : Nat) : Bool :=
  let c := s.ctx core plat
  let cl := s.cluster (clusterOf core)
  !(SMap.get [] cl.barriers b).any (·.1 = c.ctxid) && !(SMap.get [] cl.passed b).contains (c.ctxid, c.flow.pc) &&
    s.settled core plat

/-- What a blocked context waits for comes about: it arrives at its barrier and blocks on (R65), or it is READY again (R52,
R54). -/
def execUnblock (core plat : Nat) (s : State) : Host.Outcome State Fault Refusal :=
  let c := s.ctx core plat
  match c.state, (if c.killPending then none else c.why) with
  | .blocked, some (.barrier b) =>
    if s.arrivesAt core plat b then .next (s.arrive core c.ctxid c.flow.pc b)
    else if s.cleared core plat (.barrier b) then .next (s.setCtx core plat (c.makeReady s.now))
    else .refused .notEnabled
  | .blocked, some why =>
    if s.cleared core plat why then .next (s.setCtx core plat (c.makeReady s.now)) else .refused .notEnabled
  | _, _ => .refused .notEnabled

/-! ## Routines (R90, R160, R278) -/

/-- Some output element of a surrogate is NaN (R278). -/
def surrogateNan (c : Ctx) (d : RegionDesc) : Bool :=
  let v := c.regs.getV d.output
  if d.elem then (lanes 96 32 v.toNat).any (fun x => (f32Val x).isNan)
  else (bf16Lanes (d.sizes.getLastD 0) v).any (fun x => (f32Val x).isNan)

/-- A surrogate gave NaN: its transfer is not taken, and the engine is told (R278). -/
def State.surrogateFails (s : State) (core : Nat) (r : Routine) (d : RegionDesc) : State :=
  let c := s.ctx core r.plat
  let s1 := if r.completes then
      s.setCtx core r.plat { c with flow := { c.flow with xfer := c.flow.xfer.map (fun x => { x with taken := false }) } }
    else
      let p := s1Place core (c.place.frec + 9)
      { s with mem := Mem.setByte s.mem p (Mem.byte s.mem p &&& 0xF7#8) }
  s1.askEngine core r.plat c d.id 1

/-- The suspension of a routine ends: its macro instruction, and with it its bundle, is complete (R90, R160, R306). -/
def execRoutineSuspensionEnd (core : Nat) (s : State) : Host.Outcome State Fault Refusal :=
  match (s.core core).routine with
  | none => .refused .notEnabled
  | some r =>
    if !r.ended || s.now < r.start + r.span + r.stall then .refused .notEnabled
    else
      let s0 := s.setCore core { (s.core core) with routine := none }
      let c := s0.ctx core r.plat
      let s1 := match r.args.region.bind c.desc with
        | some d => if surrogateNan c d then s0.surrogateFails core r d else s0
        | none => s0
      .next (if r.completes then s1.completeBundle core r.plat r.sp r.start r.found else s1)

/-- What a stalled stitch waits for has come, and its step runs (R160). -/
def execMicroStallEnd (core : Nat) (s : State) : Host.Outcome State Fault Refusal :=
  match (s.core core).routine with
  | none => .refused .notEnabled
  | some r =>
    if !r.stalled || s.now < r.next then .refused .notEnabled
    else
      let c := s.ctx core r.plat
      match stitchStep s core r (c.stitchAt r.args) with
      | .stall _ => .refused .notEnabled
      | .done _ | .fault .. => .next (s.microCycle core r (c.stitchAt r.args))

/-! ## Faults on their way (R304, R305, R315) -/

/-- An asynchronous fault is delivered at the boundary before the context's next bundle (R305). -/
def execAsyncFault (core plat : Nat) (s : State) : Host.Outcome State Fault Refusal :=
  let c := s.ctx core plat
  match c.asyncFaults with
  | [] => .refused .notEnabled
  | f :: rest =>
    if (s.core core).next s.now = some plat ∧ c.resume = .none then
      let s1 := s.focusOn core plat
      let c1 := { s1.ctx core plat with asyncFaults := rest }
      .next ((s1.setCtx core plat c1).takeFault core plat { f with mpc := c1.flow.pc } (c1.capture [] 0x7F) s1.now)
    else .refused .notEnabled

/-- Every pending result of a context whose fault goes to the steward has landed (R304). -/
def execFaultDelivery (core plat : Nat) (s : State) : Host.Outcome State Fault Refusal :=
  let c := s.ctx core plat
  match c.faultPending with
  | some f =>
    if c.state = .blocked ∧ c.why = some .fault ∧ c.pending = [] ∧ c.killPending = false then
      .next (s.deliverSteward core plat f)
    else .refused .notEnabled
  | none => .refused .notEnabled

/-- PFQ (R329). -/
def Partition.queueSize (q : Partition) : Nat := 2 ^ ((q.pfq.extractLsb' 60 4).toNat + 4)
def Partition.queueBase (q : Partition) : Nat := (q.pfq.extractLsb' 5 43).toNat * 32

/-- The oldest waiting entry is posted to the partition's fault queue, which has room (R315). -/
def execFaultQueuePost (part : Nat) (s : State) : Host.Outcome State Fault Refusal :=
  let q := s.partition part
  match q.faultWait with
  | [] => .refused .notEnabled
  | e :: rest =>
    let s1 := s.store (hvPlace (q.queueBase + 32 * (q.fqWrite % q.queueSize))) e
    .next (s1.setPartition part { q with faultWait := rest, fqWrite := q.fqWrite + 1 })

/-! ## The stoker (R149, R425) -/

/-- A word of the queue's stream, and the counter after it (R148); the first of a seeding ends the wait for it (R425). -/
def Ctx.refill (c : Ctx) : Ctx :=
  { c with seeding := false, queue := c.queue ++ [BitVec.ofNat 3072 (ofBytes (chachaUnit c.key c.qcount 0))], qcount := c.qcount + 6 }

/-- An RQSEED is in the context's queue. -/
def Ctx.seedWaits (c : Ctx) : Bool := c.cmds.any (fun q => match q.cmd with | .rqseed .. => true | _ => false)

/-- The context may be given a word: its queue is not full, and no seeding waits to be accepted (R149, R425). -/
def Ctx.wantsWord (c : Ctx) : Bool :=
  c.state != .empty && c.state != .loading && !(c.seeding && c.seedWaits) && c.queue.length < 8

/-- A unit of a bank stream is generated (R149). -/
def Ctx.generate (c : Ctx) (u : Nat × Nat × Nat) : Ctx :=
  { c with units := SMap.set 0 c.units (streamSlot u.2.1 u.2.2) (c.unitsOf u.2.1 u.2.2 + 1), needs := c.needs.erase u }

/-- The unit that a core's writers have needed the longest, with its platform (R149); of several needed since the same cycle the
lowest platform's first (log entry 93). -/
def Core.unitDue (k : Core) : Option (Nat × Nat × Nat × Nat) :=
  let all := k.plats.flatMap (fun p => p.2.needs.map (fun u => (p.1, u)))
  (all.map (·.2.1)).min?.bind (fun t => all.find? (·.2.1 = t))

/-- What the stoker's next turn of a core serves: a unit of a bank stream of a platform, or its queue. -/
def Core.stokerWork (k : Core) : Option (Nat × Option (Nat × Nat × Nat)) :=
  match k.unitDue with
  | some (p, u) => some (p, some u)
  | none => ((List.range 4).map (fun i => (k.stokeLast + 1 + i) % 4)).findSome? (fun p =>
      if (k.ctx p).wantsWord then some (p, none) else none)

/-- One turn of a core's stoker (R149). -/
def execStokerTurn (core : Nat) (s : State) : Host.Outcome State Fault Refusal :=
  let k := s.core core
  if s.now < k.stokeNext then .refused .notEnabled
  else match k.stokerWork with
    | none => .refused .notEnabled
    | some (p, some u) => .next (s.setCore core { k.setCtx p ((k.ctx p).generate u) with stokeNext := s.now + 4 })
    | some (p, none) =>
      .next (s.setCore core { k.setCtx p (k.ctx p).refill with stokeNext := s.now + 4, stokeLast := p })

/-! ## Heads of command queues -/

/-- The head of a platform's command queue, where its predecessors have performed (R221, R229, R386). -/
def State.headCmd (s : State) (core plat : Nat) : Option QueuedCommand :=
  match (s.ctx core plat).cmds with
  | q :: _ => if s.allDone core plat q.waits then some q else none
  | [] => none

/-- The head leaves the queue: its engine has accepted it (R220); a taken siding is free below capacity (R327). -/
def State.popCmd (s : State) (core plat : Nat) : State :=
  let c := s.ctx core plat
  s.setCtx core plat { c with
    cmds := c.cmds.tail, cmdSiding := if c.cmds.tail.length < 8 && c.cmdSiding = 2 then 0 else c.cmdSiding }

/-- The stoker accepts a seeding; one of its turns produces the first word (R149, R425). -/
def execRqseedAccept (core plat : Nat) (s : State) : Host.Outcome State Fault Refusal :=
  match s.headCmd core plat with
  | some ⟨_, _, .rqseed _ _⟩ => .next (s.popCmd core plat)
  | _ => .refused .notEnabled

/-- CAP as RINGCFG sets it (R288). -/
def ringCap (v : Nat) : Nat :=
  let n := v % 2 ^ 32
  if n = 0 ∨ 2 ^ 31 < n then 2 ^ 31 else n

/-- The ring unit accepts a RINGCFG (R288, R423). -/
def execRingcfgAccept (core plat : Nat) (s : State) : Host.Outcome State Fault Refusal :=
  match s.headCmd core plat with
  | some ⟨_, _, .ringcfg ring cap⟩ =>
    let s1 := s.popCmd core plat
    .next (s1.setCtx core plat ((s1.ctx core plat).setRing ring { Ring.empty with cap := ringCap cap }))
  | _ => .refused .notEnabled

/-! ## Arrivals (R63, R64, R434) -/

/-- The core and platform on which the context of a CTXID is, on a platform. -/
def State.whereIs (s : State) (id : Word) : Option (Nat × Nat) :=
  s.cores.findSome? (fun k => k.2.plats.findSome? (fun p =>
    if p.2.state != .empty && p.2.ctxid = id then some (k.1, p.1) else none))

/-- The context of a CTXID is off its platform: held, or saved and not restored. -/
def State.isAway (s : State) (id : Word) : Bool :=
  s.cores.any (fun k => k.2.held.any (fun h => h.ctx.ctxid = id) || k.2.away.any (fun a => a.ctxid = id))

/-- What becomes of an arrival (R63, R62, R391): the target takes it, it waits for room or a claimed group, the router holds
it, or its target has gone. -/
inductive Delivery where
  | deliver (core plat : Nat)
  | wait
  | hold
  | drop
  deriving DecidableEq, Repr

def State.delivery (s : State) (id : Word) (dest : Nat) : Delivery :=
  match s.whereIs id with
  | some (core, plat) =>
    let c := s.ctx core plat
    if c.haltPending || c.killPending then .drop
    else if c.state = .saving || c.state = .loading then .hold
    else if (c.arrivals.length < 4 || (c.arrivals.length = 4 && c.arrSiding = 1)) &&
        (linePoints dest 384).all (fun a => !s.claimedPlace (s1Place core a)) then .deliver core plat
    else .wait
  | none => if s.isAway id then .hold else .drop

/-- The payload is written, and the handler queued; a PARKED context takes it and enters READY (R64), but for one that leaves
its platform, which keeps it in its queue (R60). -/
def State.deliverArrival (s : State) (core plat dest : Nat) (data : List Byte) (handler : Nat) : State :=
  let s1 := s.store (s1Place core dest) data
  let c := s1.ctx core plat
  let c1 := { c with arrivals := c.arrivals ++ [handler], arrSiding := if 4 ≤ c.arrivals.length then 2 else c.arrSiding }
  let leaving : Bool := match c.why with | some (.leaving _) => true | _ => false
  (s1.setCtx core plat (if c.state = .parked && !leaving then c1.takeArrival.makeReady s.now else c1)).admitted
    (.arrival core plat)

/-- An earlier arrival of the same sender to the same target waits at the router (R434). -/
def State.queuedBefore (s : State) (core plat : Nat) (target : Word) (before : Nat) : Bool :=
  s.arrivals.any (fun a => a.fromCore = core && a.fromPlat = plat && a.ctxid = target && a.id < before)

/-- The arrival at the head of a platform's command queue reaches the router. -/
def State.arrivalFromQueue (s : State) (core plat : Nat) (q : QueuedCommand) : Option State :=
  match q.cmd with
  | .sendh data dest tcore tplat target handler =>
    let s1 := s.popCmd core plat
    let hold : State := { s1 with
      nextId := s1.nextId + 1
      arrivals := s1.arrivals ++ [⟨s1.nextId, core, plat, tcore, tplat, dest, data, handler, target⟩] }
    if s.queuedBefore core plat target s.nextId then some hold
    else match s.delivery target dest with
      | .deliver tc tp => some (s1.deliverArrival tc tp dest data handler)
      | .hold => some hold
      | .drop => some s1
      | .wait => none
  | _ => none

/-- The arrival router acts on an arrival: an even number names the head of a command queue, by twice its platform and 3072
times its id, an odd one an arrival that the router holds. -/
def execArrivalDelivery (id : Nat) (s : State) : Host.Outcome State Fault Refusal :=
  if id % 2 = 0 then
    let core := id / 2 % 1536 / 4
    let plat := id / 2 % 4
    match s.headCmd core plat with
    | some q =>
      if q.id = id / 3072 then
        match s.arrivalFromQueue core plat q with
        | some s1 => .next s1
        | none => .refused .notEnabled
      else .refused .notEnabled
    | none => .refused .notEnabled
  else
    match s.arrivals.find? (·.id = id / 2) with
    | some a =>
      let s1 := { s with arrivals := s.arrivals.filter (·.id != a.id) }
      if s.queuedBefore a.fromCore a.fromPlat a.ctxid a.id then .refused .notEnabled
      else match s.delivery a.ctxid a.dest with
        | .deliver tc tp => .next (s1.deliverArrival tc tp a.dest a.data a.handler)
        | .drop => .next s1
        | .hold | .wait => .refused .notEnabled
    | none => .refused .notEnabled

/-! ## Barriers (R65, R67, R374) -/

/-- CTXID of a launch's entry (R389). -/
def Launch.ctxidOf (l : Launch) (e : Placement) : Word :=
  BitVec.ofNat 64 (l.number % 2 ^ 24 * 2 ^ 40 + l.part % 256 * 2 ^ 32 + e.rank % 2 ^ 32)

/-- The context of a CTXID has a halt or a kill pending: it has left its barriers (R62, R67). -/
def State.leavingGang (s : State) (id : Word) : Bool :=
  match s.whereIs id with
  | some (core, plat) => let c := s.ctx core plat; c.haltPending || c.killPending
  | none => false

/-- The participants of a barrier: contexts of running gangs on the cluster with its BARMASK bit (R65). -/
def State.participants (s : State) (cluster b : Nat) : List Word :=
  s.launches.flatMap (fun l =>
    if l.phase = 2 then
      (l.entries.zipIdx.filter (fun p => clusterOf p.1.core = cluster && p.1.barmask.getLsbD b && !l.gone.contains p.2)).map
        (fun p => l.ctxidOf p.1)
    else []) |>.filter (fun id => !s.leavingGang id)

/-- Every participant has arrived, and the barrier opens its next generation (R65). -/
def execBarrierOpen (cluster b : Nat) (s : State) : Host.Outcome State Fault Refusal :=
  let cl := s.cluster cluster
  let here := SMap.get [] cl.barriers b
  let ps := s.participants cluster b
  if ps ≠ [] ∧ ps.all (here.map (·.1)).contains then
    .next (s.setCluster cluster { cl with
      barriers := SMap.put cl.barriers b []
      passed := SMap.put cl.passed b (SMap.get [] cl.passed b ++ here.filter (fun a => ps.contains a.1)) })
  else .refused .notEnabled

/-! ## Tablets (R325 to R327) -/

/-- The queue is full. -/
def State.queueFull (s : State) : QueueId → Bool
  | .cmd core plat => 8 ≤ (s.ctx core plat).cmds.length
  | .arrival core plat => 4 ≤ (s.ctx core plat).arrivals.length
  | .engine .. => false

/-- The input queue of a command's engine (R325). -/
def Command.engine (core : Nat) : Command → QueueId
  | .chstart .. | .chstop => .engine 0 (clusterOf core)
  | .ysort .. | .ygath .. | .ycomb .. => .engine 1 (clusterOf core)
  | .sealL .. | .openL .. => .engine 2 core
  | .xa2av .. | .xar .. | .xag .. | .xrun .. => .engine 3 0
  | .axinv _ | .axqry .. => .engine 4 (dieOf core)
  | .sendh _ _ c p _ _ => .arrival c p
  | .ringcfg .. | .rqseed .. => .engine 5 core

/-- The queue that a full queue's head waits on (R325). -/
def State.waitsOn (s : State) : QueueId → Option QueueId
  | .cmd core plat => ((s.ctx core plat).cmds.head?).map (fun q => q.cmd.engine core)
  | .arrival core plat =>
    let c := s.ctx core plat
    if c.state = .blocked && c.why = some .cmdQueue then some (.cmd core plat) else none
  | .engine .. => none

/-- A queue full for 1024 cycles without admission emits a tablet (R326). -/
def execTabletEmit (q : QueueId) (s : State) : Host.Outcome State Fault Refusal :=
  match s.fullSince.find? (·.1 = q) with
  | some (_, t) =>
    if 1024 ≤ s.now - t ∧ s.queueFull q ∧ !s.tablets.any (·.origin = q) then
      .next { s with tablets := s.tablets ++ [⟨q, q, 0⟩] }
    else .refused .notEnabled
  | none => .refused .notEnabled

/-- A tablet at its origin unlocks a siding that is locked (R326, R327). -/
def State.unlockSiding (s : State) : QueueId → State
  | .cmd core plat =>
    let c := s.ctx core plat
    s.setCtx core plat { c with cmdSiding := if c.cmdSiding = 0 then 1 else c.cmdSiding }
  | .arrival core plat =>
    let c := s.ctx core plat
    s.setCtx core plat { c with arrSiding := if c.arrSiding = 0 then 1 else c.arrSiding }
  | .engine .. => s

/-- A tablet is handled at the queue that it has reached (R326). -/
def execTabletHop (n : Nat) (s : State) : Host.Outcome State Fault Refusal :=
  match s.tablets[n]? with
  | none => .refused .notEnabled
  | some t =>
    let rest := { s with tablets := s.tablets.eraseIdx n }
    if 0 < t.hops ∧ t.at_ = t.origin then .next (rest.unlockSiding t.origin)
    else if !s.queueFull t.at_ then .next rest
    else match s.waitsOn t.at_ with
      | none => .next rest
      | some q =>
        if 64 ≤ t.hops + 1 then .next rest
        else .next { s with tablets := s.tablets.set n { t with at_ := q, hops := t.hops + 1 } }

end Sys2Proof.Machine
end

