-- ==== Sys2Proof/Machine/Engines.lean ====
section
/-! DEFINITION. What the engines share: their access to memory for a context (R192, R205, R291), the rings that they report
to and advance (R230, R287, R289, R291), and the copy engine (R290 to R293, R378, R379). -/
namespace Sys2Proof.Machine

/-! ## STATUS codes (R291) -/

def rOK : Nat := 0x00
def rPARK : Nat := 0x01
def rABORT : Nat := 0x02
def rBADWB : Nat := 0x03
def rALIGN : Nat := 0x05
def rFORM : Nat := 0x08
def rHWERR : Nat := 0x0A
def rBADIDX : Nat := 0x0B
def rOVER : Nat := 0x0D
def rNOGRP : Nat := 0x0E
def rTIMEOUT : Nat := 0x0F

/-- No STATUS: the access goes to a frame that does not exist (R199), which stops the machine. -/
def rNOFRAME : Nat := 0x100

/-- The STATUS of a failed check of R192 or of a failure met in a transfer. -/
def statusOf (code : Nat) : Nat :=
  if code = cWINDOW then 0x04 else if code = cALIGN then 0x05 else if code = cPAGE then 0x06
  else if code = cPROT then 0x07 else if code = cFORM then 0x08 else if code = cFMT then 0x09 else 0x0A

/-- SRC of a report: 0 copy, 1 marshalling, 2 collective; the issuing core within the cluster and the platform (R291). -/
def sourceOf (kind core plat : Nat) : Nat := kind * 64 + core % 16 * 4 + plat % 4

/-! ## Accesses of engines -/

/-- Some line of a run lies on a frame that does not exist (R199). -/
def runNoFrame (core : Nat) (c : Ctx) (addr len : Nat) : Bool := (linePoints addr len).any (badFrame core c)

/-- The checks of R192 that an engine's access of a run meets before it transfers. -/
def engineCheck (s : State) (core : Nat) (c : Ctx) (rd wr : Bool) (addr len : Nat) : Option Nat :=
  let a : Access :=
    { spans := [(addr, len)], align := 1, aligned := [], rd := rd, wr := wr, amo := false,
      mst := false, vec := false, claim := false, hwRd := false, hwWr := false }
  match checkAccess s s core c a with
  | some f => some (statusOf f.1)
  | none => if runNoFrame core c addr len then some rNOFRAME else none

/-- Why an engine's work stops: a STATUS, or bytes that it needs and that must be read first, word by word. -/
inductive EngStop where
  | status (st : Nat)
  | need (ps : List Piece) (len : Nat)
  deriving DecidableEq, Repr

/-- An engine's work on the state, from the runs that it has read; it is taken up from its start when one more has been read. -/
abbrev EngM := StateT (List (List Byte × Option Nat)) (ExceptT EngStop (StateM State))

/-- The work fails with a STATUS. -/
def engineFails {α : Type} (st : Nat) : EngM α := throw (.status st)

/-- An engine reads a run for a context (R192, R208, R215). -/
def engineBytes (core : Nat) (c : Ctx) (addr len : Nat) : EngM (List Byte) := do
  match engineCheck (← getThe State) core c true false addr len with
  | some st => engineFails st
  | none =>
    if len = 0 then return []
    else match (← get) with
      | (bs, bad) :: rest =>
        set rest
        if bad.isSome then engineFails rHWERR else return bs
      | [] => throw (.need (cutRuns core c [(addr, len)]) len)

/-- An engine writes a run within a word, or a line whole, for a context. -/
def engineStore (core : Nat) (c : Ctx) (addr : Nat) (bs : List Byte) : EngM Unit := do
  let s ← getThe State
  match engineCheck s core c false true addr bs.length with
  | some st => engineFails st
  | none =>
    match writeRun s core c bs (runLines addr bs.length) with
    | (s1, some _) => do modifyThe State (fun _ => s1); engineFails rHWERR
    | (s1, none) => modifyThe State (fun _ => s1)

/-- Run an engine's work on a state. -/
def State.engine {α : Type} (s : State) (f : Fetch) (m : EngM α) : State × Except EngStop α :=
  match ((m.run' f.got).run).run s with
  | (r, s1) => (s1, r)

/-- An engine works on, unless it is reading: the work is done, or it begins the read that it needs, which `put` records, or it
fails, where it does not wait. -/
def State.work {α : Type} (s : State) (f : Fetch) (m : EngM α) (put : State → Fetch → State) (done : State → α → State)
    (fail : State → Nat → Option State) : Host.Outcome State Fault Refusal :=
  if !f.pieces.isEmpty then .refused .notEnabled
  else match s.engine f m with
    | (s1, .ok a) => .next (done s1 a)
    | (_, .error (.need ps len)) => .next (put s { f with pieces := ps, data := List.replicate len 0#8 })
    | (s1, .error (.status st)) =>
      if st = rNOFRAME then .fault .noSuchFrame
      else match fail s1 st with
        | some s2 => .next s2
        | none => .refused .notEnabled

/-- The n-th word that an engine reads performs, unless a claimed group holds it back (R186, R215, R232). -/
def State.readNth (s : State) (world : Nat) (f : Fetch) (n : Nat) (put : State → Fetch → State) :
    Host.Outcome State Fault Refusal :=
  match f.pieces[n]? with
  | none => .refused .notEnabled
  | some p =>
    if s.claimedPlace p.place then .refused .notEnabled
    else if noFrame p.place then .fault .noSuchFrame
    else
      let r := fetchWord s world f n p
      .next (put r.1 r.2)

/-- Every line of a run may be written in this cycle (R232, R519). -/
def State.runFree (s : State) (core : Nat) (c : Ctx) (addr len : Nat) : Bool :=
  (linePoints addr len).all (fun a => s.writable (placeOf core c a) false)

/-- The issuer of a command is on its platform and can be acted for. -/
def State.issuer (s : State) (core plat : Nat) (id : Word) : Option Ctx :=
  let c := s.ctx core plat
  if c.state != .empty && c.state != .loading && c.state != .saving && c.ctxid = id then some c else none

/-- The context of a CTXID, where it is on a platform and can be acted for: with its core and platform. -/
def State.present (s : State) (id : Word) : Option (Nat × Nat × Ctx) :=
  (s.whereIs id).bind (fun p => (s.issuer p.1 p.2 id).map (fun c => (p.1, p.2, c)))

/-- The n-th of the writes that an engine has to do performs, unless an earlier one of the same word, a claimed group or a
held bank holds it back (R219, R232, R519); what follows depends on whether it was done. -/
def State.performNth (s : State) (world : Nat) (ws : List Store) (n : Nat) (follow : State → Bool → State) :
    Host.Outcome State Fault Refusal :=
  match ws[n]? with
  | none => .refused .notEnabled
  | some w =>
    if wordBefore ws n w || !s.writable w.place w.begun then .refused .notEnabled
    else if noFrame w.place then .fault .noSuchFrame
    else
      let r := s.performStore world w
      .next (follow r.1 r.2)

/-! ## Rings of other contexts (R287 to R289, R291) -/

/-- The CTXID of the context of a gang that owns a ring of a core, by the placement map (R42, R292); one that has left the
gang owns none (R49, R62). -/
def State.ringOwner (s : State) (gang core ring : Nat) : Option Word :=
  (s.launches.find? (·.id = gang)).bind (fun l =>
    (l.entries.zipIdx.find? (fun p => p.1.core = core && p.1.ringmask.getLsbD ring && !l.gone.contains p.2)).map
      (fun p => l.ctxidOf p.1))

/-- The read pointer that engines observe: the one before a RELS until what it releases has performed (R230). -/
def State.seenRp (s : State) (core plat : Nat) (r : Ring) : BitVec 32 :=
  if r.rel.all (fun i => !s.isOutstanding core plat i) then r.rp else r.seen

/-- The ring has room for an advance of n, its owner being on a platform (R289). -/
def State.ringRoom (s : State) (id : Word) (ring n : Nat) : Bool :=
  match s.whereIs id with
  | some (core, plat) =>
    let r := (s.ctx core plat).ring ring
    (r.wp - s.seenRp core plat r).toNat + n ≤ r.cap
  | none => false

/-- The ring of a context after a report: WP advances by n (R291). -/
def Ctx.report (c : Ctx) (ring n status src : Nat) : Ctx :=
  let r := c.ring ring
  c.setRing ring { r with wp := r.wp + BitVec.ofNat 32 n, status := status, src := src }

/-- Report to a ring and advance it by n; while its owner is being saved, held or away, the report waits at the router (R234,
R289, R519); one for a context that has gone is lost with its ring. -/
def State.reportTo (s : State) (id : Word) (ring n status src : Nat) : State :=
  match s.whereIs id with
  | some (core, plat) =>
    let c := s.ctx core plat
    if c.state = .loading ∨ c.state = .saving then wait else s.setCtx core plat (c.report ring n status src)
  | none => if s.isAway id then wait else s
where
  wait : State := { s with reports := s.reports ++ [⟨0, 0, id, ring, n, status, src⟩] }

/-- The reports that wait for a context reach its rings when it is back (R234). -/
def State.flushReports (s : State) (core plat : Nat) : State :=
  let c := s.ctx core plat
  let mine := s.reports.filter (·.ctxid = c.ctxid)
  { s.setCtx core plat (mine.foldl (fun c r => c.report r.ring r.inc r.status r.src) c) with
    reports := s.reports.filter (·.ctxid != c.ctxid) }

/-! ## The copy engine (R290, R292) -/

/-- A waybill as its 64 bytes hold it; `bad` gathers the fields out of range (R290). -/
def readWaybill (addr : Nat) (bs : List Byte) : Waybill :=
  let w (off n : Nat) : Nat := ofBytes ((bs.drop off).take n)
  let w0 := w 0 8
  let f := w 0x30 2
  let x := w 0x32 1
  let blk (code : Nat) : Bool := code = 15
  { addr := addr, own := w0.testBit 48, next := w0 % 2 ^ 48, src := w 8 6, dst := w 16 6, len := w 0x18 4, rows := w 0x1C 4,
    spitch := sext (w 0x20 8) 64, dpitch := sext (w 0x28 8) 64, sat := f.testBit 10, rnd := f / 256 % 4,
    dfmt := f / 16 % 16, sfmt := f % 16, rv := x.testBit 7, rcore := x % 16, ring := w 0x33 1 % 64, inc := w 0x34 2,
    bad := w0 / 2 ^ 49 != 0 || w0 % 64 != 0 || w 14 2 != 0 || w 22 2 != 0 || w 0x18 4 = 0 || 2 ^ 31 < w 0x18 4 ||
      w 0x1C 4 = 0 || f / 2048 != 0 || f / 256 % 4 = 3 || blk (f / 16 % 16) || blk (f % 16) ||
      x / 16 % 8 != 0 || w 0x33 1 / 64 != 0 }

/-- A block format for a side outside core S1 is BADWB (R290); the sides are those of the first row. -/
def Waybill.blockBad (w : Waybill) (core : Nat) : Bool :=
  (isBlockFmt w.sfmt && !isS1Side core w.src) || (isBlockFmt w.dfmt && !isS1Side core w.dst)

/-- The BFMT values of the banks of a cluster's cores, by core and bank, as a waybill latches them (R138, R139). -/
def State.clusterFmts (s : State) (cluster : Nat) : SMap Nat :=
  (List.range 16).flatMap (fun q =>
    let k := s.core (cluster * 16 + q)
    (List.range 64).filterMap (fun b =>
      match k.all.find? (fun c => c.state != .empty && (c.creg 0x020).getLsbD b) with
      | some c => if c.bfmt b = 0 then none else some ((cluster * 16 + q) * 64 + b, c.bfmt b)
      | none => none))

/-- The format of a side: the latched one of its bank, else the waybill's (R139). -/
def sideFmt (fmts : SMap Nat) (core addr other : Nat) : Nat :=
  match locate core addr with
  | .own off => SMap.get 0 fmts (core * 64 + bankOf off)
  | .peer q off => SMap.get 0 fmts (q * 64 + bankOf off)
  | .s2 _ | .s3 .. | .virt _ | .nowhere => other

/-- Row r of a waybill with its formats (R290, R292). -/
def Waybill.rowAt (w : Waybill) (fmts : SMap Nat) (core r : Nat) : Row :=
  let side (base : Nat) (pitch : Int) (dense : Nat) : Nat :=
    wrap (base + r * (if pitch = 0 then (dense : Int) else pitch)) 48
  let fs (a : Nat) : Nat := sideFmt fmts core a w.sfmt
  let fd (a : Nat) : Nat := sideFmt fmts core a (w.dfmt + w.rnd * 16 + w.sat.toNat * 64)
  rowOf fs fd (side w.src w.spitch w.len) (side w.dst w.dpitch (rowOf fs fd w.src w.dst w.len).dlen) w.len

/-- A chunk would write plaintext into host memory (R342). -/
def Chunk.plainToHost (ch : Chunk) (s : State) (core : Nat) (c : Ctx) : Bool :=
  hostAt core c ch.dst &&
    !(rawCopy ch.part.sf ch.part.df && ch.dlen = 64 && ch.src % 64 = 0 && cipherAt s core c ch.src)

/-- Some chunk of a row would write plaintext into host memory. -/
def Row.plainToHost (r : Row) (s : State) (core : Nat) (c : Ctx) : Bool :=
  (linePoints r.dst r.dlen).any (fun a => match chunkAt r.parts (a - r.dst) with
    | some ch => ch.plainToHost s core c
    | none => false)

/-- The STATUS of the check of R192 that a row fails before its transfer. -/
def rowStatus (s : State) (core : Nat) (c : Ctx) (r : Row) : Option Nat :=
  let get (rd : Bool) := engineCheck s core c rd (!rd) (if rd then r.src else r.dst) (if rd then r.len else r.dlen)
  let win (st : Option Nat) : Bool := st = some 0x04
  if win (get true) || win (get false) then some 0x04
  else if !r.unaligned.isEmpty then some 0x05
  else
    let least := match get true, get false with
      | some a, some b => some (min a b)
      | some a, none => some a
      | none, b => b
    match least with
    | some st => some st
    | none =>
      if r.plainToHost s core c then some 0x08
      else if !(r.misformed core).isEmpty then some 0x09
      else none

/-- The ring that a waybill names: its owner, or none where R292's check fails. -/
def State.waybillRing (s : State) (core : Nat) (c : Ctx) (w : Waybill) : Option Word :=
  s.ringOwner c.gang (clusterOf core * 16 + w.rcore) w.ring

/-- Report on a waybill, where it names a ring. -/
def State.waybillReport (s : State) (core plat : Nat) (c : Ctx) (w : Waybill) (n status : Nat) : State :=
  if w.rv then
    match s.waybillRing core c w with
    | some id => s.reportTo id w.ring n status (sourceOf 0 core plat)
    | none => s
  else s

/-- A channel with no waybill (R292). -/
def Channel.rest (h : Channel) (st : ChanState) : Channel :=
  { h with state := st, cur := none, at_ := 0, fetch := .empty, stores := [] }

/-- Change a platform's channel. -/
def State.setChan (s : State) (core plat : Nat) (f : Channel → Channel) : State :=
  let c := s.ctx core plat
  s.setCtx core plat { c with chan := f c.chan }

/-- The channel stops at a failure (R292). -/
def State.stopChan (s : State) (core plat : Nat) (c : Ctx) (w : Waybill) (status : Nat) : State :=
  (s.waybillReport core plat c w 0 status).setChan core plat (fun h => h.rest .stopped)

/-- A waybill that has been read is checked (R292). It starts here, before its wait for ring space: the formats of its banks are
latched now (R138; log entry 99). -/
def State.takeWaybill (s : State) (core plat : Nat) (c : Ctx) (bs : List Byte) : State :=
  let w := readWaybill c.chan.head bs
  let halt (s : State) (st : ChanState) : State := s.setChan core plat (fun h => h.rest st)
  let ringOk := !w.rv || (s.waybillRing core c w).isSome
  if !w.own then halt (if ringOk then s.waybillReport core plat c w 0 rPARK else s) .parked
  else if !ringOk then halt s .stopped
  else if w.bad || w.blockBad core then s.stopChan core plat c w rBADWB
  else s.setChan core plat (fun h =>
    { h with cur := some (w, 0), fetch := .empty, started := !w.rv, fmts := s.clusterFmts (clusterOf core) })

/-- The next waybill is read; one that cannot be stops the channel, with no ring to report to (R292). -/
def State.nextWaybill (s : State) (core plat : Nat) (c : Ctx) : Host.Outcome State Fault Refusal :=
  if c.chan.head % 64 != 0 then .next (s.setChan core plat (fun h => h.rest .stopped))
  else s.work c.chan.fetch (engineBytes core c c.chan.head 64) (fun t f => t.setChan core plat (fun h => { h with fetch := f }))
    (fun t bs => t.takeWaybill core plat c bs) (fun t _ => some (t.setChan core plat (fun h => h.rest .stopped)))

/-- A channel after a chunk of its row has been read into these writes. -/
def Channel.advance (h : Channel) (w : Waybill) (row : Nat) (r : Row) (ch : Chunk) (ws : List Store) : Channel :=
  let d := h.at_ + ch.dlen
  let h1 := { h with stores := h.stores ++ ws, fetch := .empty }
  if r.dlen ≤ d then { h1 with cur := some (w, row + 1), at_ := 0 } else { h1 with at_ := d }

/-- The next chunk of the current row: its checks and the beginning of its reads, or, once they have performed, its conversion
into writes (R205, R292, R293); a failure is reported once the writes before it have performed, and random bytes wait for their
unit (R149). Random bytes go to the rows in their order, also where the destination rows do not ascend (log entry 100). None where
it waits. -/
def State.readWaybillChunk (s : State) (core plat : Nat) (c : Ctx) (w : Waybill) (row : Nat) : Option State :=
  let r := w.rowAt c.chan.fmts core row
  let stop (st : Nat) : Option State := if c.chan.stores.isEmpty then some (s.stopChan core plat c w st) else none
  match rowStatus s core c r, chunkAt r.parts c.chan.at_ with
  | some st, _ => stop st
  | none, none => none
  | none, some ch =>
    if ch.plainToHost s core c || (ch.formBad s core c r).isSome then stop rFORM
    else match c.chan.fetch.got with
      | [] => some (s.setChan core plat (fun h => { h with fetch := h.fetch.begin core c ch.runs }))
      | (_, some _) :: _ => stop rHWERR
      | (bytes, none) :: _ =>
        if c.hasUnits c.chan.seed 3 ch.draws then
          let v := ch.writes s core c r bytes (c.drawByte c.chan.seed 3)
          some ((s.setCtx core plat ((s.ctx core plat).draw c.chan.seed 3 v.2)).setChan core plat
            (fun h => h.advance w row r ch v.1))
        else
          let c1 := c.ask s.now c.chan.seed 3 ch.draws
          if c1.needs = c.needs then none else some (s.setCtx core plat c1)

/-- After the n-th of a channel's writes; one that was not done stops the channel (R209, R292). -/
def State.wroteWaybill (s : State) (core plat : Nat) (c : Ctx) (n : Nat) (ok : Bool) : State :=
  let s1 := s.setChan core plat (fun h => { h with stores := writesLeft h.stores n })
  if ok then s1 else match c.chan.cur with
    | some (b, _) => s1.stopChan core plat c b rHWERR
    | none => s1

/-- The channel goes on to the waybill after a finished one, or becomes IDLE (R292). -/
def Channel.follow (h : Channel) (next : Nat) : Channel :=
  if next = 0 then h.rest .idle else { h.rest .run with head := next }

/-- OWN of a copied waybill is cleared and NEXT returned in one access of its word (R227, R292). -/
def State.clearOwn (s : State) (core plat : Nat) (c : Ctx) (w : Waybill) : State :=
  let p := placeOf core c w.addr
  let line := p / 64
  match engineCheck s core c true true w.addr 8 with
  | some st => s.stopChan core plat c w st
  | none =>
    match (if s.badRead p 8 then none else readHome s c.world (protAt core c w.addr) p 8) with
    | none => (if s.badRead p 8 then s.poisonLine line else s.integrityFail line).stopChan core plat c w rHWERR
    | some bs =>
      let old := ofBytes bs
      let r := writeHome s c.world (protAt core c w.addr) false p (toBytes 8 (if old.testBit 48 then old - 2 ^ 48 else old))
      if !r.2 then r.1.stopChan core plat c w rHWERR
      else if w.rv then r.1.setChan core plat (fun h => { h with cur := some ({ w with next := old % 2 ^ 48 }, w.rows + 1) })
      else r.1.setChan core plat (fun h => h.follow (old % 2 ^ 48))

/-- The next step of a running channel: a waybill is read and checked, a chunk of a row is read, or, once every write of
the rows has performed, OWN is cleared and NEXT followed (R292). -/
def State.stepChan (s : State) (core plat : Nat) (c : Ctx) : Host.Outcome State Fault Refusal :=
  match c.chan.cur with
  | none => s.nextWaybill core plat c
  | some (w, row) =>
    if !c.chan.started || w.rows < row || !c.chan.fetch.pieces.isEmpty then .refused .notEnabled
    else if row < w.rows then
      if rowStatus s core c (w.rowAt c.chan.fmts core row) = some rNOFRAME then .fault .noSuchFrame
      else match s.readWaybillChunk core plat c w row with
        | some s1 => .next s1
        | none => .refused .notEnabled
    else if !c.chan.stores.isEmpty || !s.runFree core c w.addr 8 then .refused .notEnabled
    else if badFrame core c w.addr then .fault .noSuchFrame
    else .next (s.clearOwn core plat c w)

/-- A running channel goes on: its next step (`word` 0), one of its writes (2n + 1) or of its reads (2n + 2) performs (R215,
R292). -/
def execWaybillProcess (core plat word : Nat) (s : State) : Host.Outcome State Fault Refusal :=
  match s.issuer core plat (s.ctx core plat).ctxid with
  | none => .refused .notEnabled
  | some c =>
    if c.chan.state != .run then .refused .notEnabled
    else match word with
      | 0 => s.stepChan core plat c
      | k + 1 =>
        if k % 2 = 0 then s.performNth c.world c.chan.stores (k / 2) (fun s1 ok => s1.wroteWaybill core plat c (k / 2) ok)
        else s.readNth c.world c.chan.fetch (k / 2) (fun t f => t.setChan core plat (fun h => { h with fetch := f }))

/-- A waiting waybill finds room in its ring (R289). -/
def State.copyRoom (s : State) (core plat : Nat) : Option State :=
  (s.issuer core plat (s.ctx core plat).ctxid).bind (fun c =>
    match c.chan.state, c.chan.cur with
    | .run, some (w, _) =>
      match s.waybillRing core c w with
      | some id =>
        if !c.chan.started && s.ringRoom id w.ring w.inc then
          some (s.setChan core plat (fun h => { h with started := true }))
        else none
      | none => none
    | _, _ => none)

/-- The copy of a bounce channel's slot is done: the device's counter goes on, and its packet tells the host (R351; log entry
60). -/
def State.slotDone (s : State) (n : Nat) (b : Bounce) : State :=
  let s1 := { s with bounces := SMap.put s.bounces n { b with consumed := b.consumed + 1, copy := none } }
  match b.copy, b.queue with
  | some (k, _, _), some key => s1.completePacket key k stOK (b.consumed + 1) 0
  | _, _ => s1

/-- The bounce slots that a platform's channel has been copying are done. -/
def State.slotsDone (s : State) (core plat : Nat) : State :=
  s.bounces.foldl (fun t p => match p.2.copy with
    | some (_, c, n) => if c = core && n = plat then t.slotDone p.1 p.2 else t
    | none => t) s

/-- A finished waybill advances its ring, and the last of a channel is the end of a bounce slot's copy (R230, R292, R351). -/
def State.copyAdvance (s : State) (core plat : Nat) : Option State :=
  (s.issuer core plat (s.ctx core plat).ctxid).bind (fun c =>
    match c.chan.cur with
    | some (w, row) =>
      if w.rows < row then
        let s1 := (s.waybillReport core plat c w w.inc rOK).setChan core plat (fun h => h.follow w.next)
        some (if w.next = 0 then s1.slotsDone core plat else s1)
      else none
    | none => none)

/-- The copy engine accepts a CHSTART: the channel, which is not RUN, takes the head (R292, R378). -/
def execChstartAccept (core plat : Nat) (s : State) : Host.Outcome State Fault Refusal :=
  match s.headCmd core plat with
  | some ⟨_, _, .chstart head seed⟩ =>
    if (s.ctx core plat).chan.state = .run then .refused .notEnabled
    else .next ((s.popCmd core plat).setChan core plat (fun _ =>
      { Channel.empty with state := .run, head := head, seed := seed }))
  | _ => .refused .notEnabled

/-- A copy of a bounce channel's slot is aborted: its packet completes with ABORT and the device's counter, and the channel
waits for a RESYNC (R351). -/
def State.abortBounce (s : State) (n : Nat) (b : Bounce) : State :=
  let s1 := { s with bounces := SMap.put s.bounces n { b with aborted := true, copy := none } }
  match b.copy, b.queue with
  | some (k, _, _), some key => s1.completePacket key k stABORT b.consumed 0
  | _, _ => s1

/-- The bounce copies of some channels are aborted. -/
def State.abortCopies (s : State) (mine : Nat → Nat → Nat → Bool) : State :=
  s.bounces.foldl (fun t p => match p.2.copy with
    | some (_, core, plat) => if mine p.1 core plat then t.abortBounce p.1 p.2 else t
    | none => t) s

/-- The writes of lines that have begun are completed (R293). -/
def State.finishWrites (s : State) (world : Nat) (ws : List Store) : State :=
  (ws.filter Store.begun).foldl (fun t w => (t.performStore world w).1) s

/-- A channel stops before its next 64-byte write: a running one reports ABORT, or finishes the advance of a waybill that is
done (R293). -/
def State.abortChan (s : State) (core plat : Nat) : State :=
  let c := s.ctx core plat
  let idle (s : State) : State := s.setChan core plat (fun h => h.rest .idle)
  match c.chan.state, c.chan.cur with
  | .run, some (w, row) =>
    let s1 := s.finishWrites c.world c.chan.stores
    idle (
      if w.rows < row then s1.waybillReport core plat c w w.inc rOK else s1.waybillReport core plat c w 0 rABORT)
  | _, _ => idle s

/-- The copy engine accepts a CHSTOP (R293, R379). -/
def execChstopAccept (core plat : Nat) (s : State) : Host.Outcome State Fault Refusal :=
  match s.headCmd core plat with
  | some ⟨_, _, .chstop⟩ =>
    .next (((s.popCmd core plat).abortChan core plat).abortCopies (fun _ c p => c = core && p = plat))
  | _ => .refused .notEnabled

end Sys2Proof.Machine
end

