-- ==== Sys2Proof/Machine/Marshal.lean ====
section
/-! DEFINITION. The marshalling engine of a cluster: YSORT, YGATH and YCOMB (R294 to R298, R474, R475). -/
namespace Sys2Proof.Machine

/-! ## Descriptors -/

/-- Word i, of 8 bytes, of a descriptor. -/
def descWord (d : List Byte) (i : Nat) : Nat := ofBytes ((d.drop (8 * i)).take 8)

/-- Words of a descriptor that must be zero are zero. -/
def wordsZero (d : List Byte) (is : List Nat) : Bool := is.all (fun i => descWord d i = 0)

/-- Two arrays, by address and length, overlap. -/
def arraysOverlap (a b : Nat × Nat) : Bool := a.1 < b.1 + b.2 && b.1 < a.1 + a.2 && 0 < a.2 && 0 < b.2

/-- Some output overlaps an input or another output (R475). -/
def outputsOverlap (ins : List (Nat × Nat)) : List (Nat × Nat) → Bool
  | [] => false
  | o :: rest => ins.any (arraysOverlap o) || rest.any (arraysOverlap o) || outputsOverlap ins rest

/-- Report a status unless a condition holds. -/
def require (ok : Bool) (st : Nat) : EngM Unit := if ok then pure () else engineFails st

/-- Signed 32-bit words of bytes. -/
def int32s (bs : List Byte) : List Int := (chunks bs.length 4 bs).map (fun b => sext (ofBytes b) 32)

def i32Bytes (l : List Int) : List Byte := l.flatMap (fun v => toBytes 4 (wrap v 32))

/-! ## YSORT (R295, R296) -/

/-- What YSORT makes of its indices: by expert the accepted assignments, and the overflowed ones. -/
structure Sorted where
  groups : List (List Nat)
  excess : List Nat
  deriving DecidableEq, Repr

/-- The assignments of each expert, the first `cap` of them accepted (R296). -/
def sortAssignments (e : Nat) (cap : Option Nat) (idx : List Int) : Sorted :=
  let of_ (x : Nat) : List Nat := (idx.zipIdx.filter (fun p => p.1 = (x : Int))).map (·.2)
  let lists := (List.range e).map of_
  let keep (l : List Nat) : List Nat := match cap with | some n => l.take n | none => l
  let drop (l : List Nat) : List Nat := match cap with | some n => l.drop n | none => []
  { groups := lists.map keep, excess := (lists.flatMap drop).foldl insertNat [] }

/-- offs of R296. -/
def offsetsFrom (o : Nat) : List (List Nat) → List Nat
  | [] => [o]
  | g :: rest => o :: offsetsFrom (o + g.length) rest

/-- T × TOPK of a YSORT or a YCOMB. -/
def descCount (d : List Byte) : Nat := descWord d 8 % 2 ^ 17 * (descWord d 8 / 2 ^ 17 % 8 + 1)

/-- Entries of 16 bits. -/
def int16s (bs : List Byte) : List Int := (chunks bs.length 2 bs).map (fun b => sext (ofBytes b) 16)

/-- GPERM of a YSORT; none in MODE 1. -/
def gatesTo (d : List Byte) : Nat := if descWord d 8 / 2 ^ 32 % 2 = 1 then 0 else descWord d 7

/-- The fields of a YSORT's descriptor (R294, R295). -/
def ysortFields (d : List Byte) : EngM Unit := do
  let w := descWord d
  let t := w 8 % 2 ^ 17
  let e := w 8 / 2 ^ 20 % 2 ^ 12 + 1
  let mode := w 8 / 2 ^ 32 % 2
  require (wordsZero d [10, 11, 12, 13, 14, 15] && w 8 / 2 ^ 33 = 0 && w 9 / 2 ^ 32 = 0 && 1 ≤ t && t ≤ 65536 &&
    (if mode = 0 then e ≤ 1024 else w 8 / 2 ^ 17 % 8 = 0) && (List.range 8).all (fun i => w i / 2 ^ 48 = 0) &&
    (mode = 1 || gatesTo d != 0 || w 1 = 0)) rBADWB
  require ((List.range 8).all (fun i => w i % 4 = 0)) rALIGN

/-- The assignments of a YSORT, sorted. -/
def sortedOf (d : List Byte) (idx : List Int) : Sorted :=
  sortAssignments (descWord d 8 / 2 ^ 20 % 2 ^ 12 + 1) (if descWord d 9 = 0 then none else some (descWord d 9)) idx

/-- The arrays that YSORT writes, by address, but for the gates (R296). -/
def sortedArrays (d : List Byte) (idx : List Int) : List (Nat × List Byte) :=
  let w := descWord d
  let r := sortedOf d idx
  let perm := r.groups.flatten
  let pos := (List.range (descCount d)).map (fun a => match perm.findIdx? (· = a) with | some p => (p : Int) | none => -1)
  [(w 4, i32Bytes (r.groups.map (fun g => (g.length : Int)))), (w 5, i32Bytes ((offsetsFrom 0 r.groups).map Int.ofNat)),
    (w 2, i32Bytes (perm.map Int.ofNat)), (w 3, i32Bytes pos), (w 6, i32Bytes ((r.excess.length :: r.excess).map Int.ofNat))]

/-! ## Pieces of a command's work -/

/-- The job with what it reads next cleared. -/
def MarshalJob.at (j : MarshalJob) (phase item at_ : Nat) : MarshalJob :=
  { j with phase := phase, item := item, at_ := at_, fetch := .empty }

/-- Bytes of an array from a byte of it, up to the end of their line. -/
def pieceLen (addr len at_ : Nat) : Nat := min (len - at_) (64 - (addr + at_) % 64)

/-- A piece of an array's indices is read and checked; what follows the last one is looked at in `last`. -/
def checkPiece (core : Nat) (c : Ctx) (j : MarshalJob) (addr len : Nat) (ok : List Byte → EngM Unit) (keep : Bool)
    (last : MarshalJob → EngM Unit) : EngM MarshalJob := do
  let n := pieceLen addr len j.at_
  let bs ← engineBytes core c (addr + j.at_) n
  ok bs
  let j1 := { j with index := if keep then j.index ++ bs else j.index }
  if len ≤ j.at_ + n then do
    last j1
    return j1.at 2 0 0
  else return j1.at 1 0 (j.at_ + n)

/-- A piece of an output array becomes writes, which pass the checks of R192. -/
def outputPiece (core : Nat) (c : Ctx) (addr len at_ : Nat) (bs : List Byte) : EngM (List Store) := do
  match engineCheck (← getThe State) core c false true (addr + at_) bs.length with
  | some st => engineFails st
  | none => return cutStores (bs.length + 1) core c (addr, len) (addr + at_) bs false

/-- The job after a piece of its output `item`, of which there are `count`. -/
def MarshalJob.wrote (j : MarshalJob) (len n count : Nat) (ws : List Store) : MarshalJob :=
  let j1 := { j with stores := j.stores ++ ws }
  if j.at_ + n < len then j1.at 3 j.item (j.at_ + n)
  else if j.item + 1 < count then j1.at 3 (j.item + 1) 0
  else j1.at 4 0 0

/-! ## The three commands -/

/-- YSORT reads all of IDX, checks it, and then its outputs' places (R296, R475). -/
def ysortCheck (core : Nat) (c : Ctx) (j : MarshalJob) : EngM MarshalJob := do
  let w := descWord j.desc
  let e : Nat := w 8 / 2 ^ 20 % 2 ^ 12 + 1
  let n := descCount j.desc
  let gates := if gatesTo j.desc = 0 then [] else [(w 1, 4 * n)]
  checkPiece core c j (w 0) (2 * n) (fun bs => require ((int16s bs).all (fun x => x = -1 || (0 ≤ x && x < (e : Int)))) rBADIDX)
    true (fun j1 =>
      let outs := (sortedArrays j.desc (int16s j1.index)).map (fun o => (o.1, o.2.length))
      let perm := (sortedOf j.desc (int16s j1.index)).groups.flatten
      require (!outputsOverlap ((w 0, 2 * n) :: gates)
        (outs ++ (if gatesTo j.desc = 0 then [] else [(gatesTo j.desc, 4 * perm.length)]))) rBADWB)

/-- YSORT writes a piece of its next array; the gates are read where they lie (R296). -/
def ysortWrite (core : Nat) (c : Ctx) (j : MarshalJob) : EngM MarshalJob := do
  let arrays := sortedArrays j.desc (int16s j.index)
  let perm := (sortedOf j.desc (int16s j.index)).groups.flatten
  let count := if gatesTo j.desc = 0 then 5 else 6
  match arrays[j.item]? with
  | some (a, bs) =>
    let n := pieceLen a bs.length j.at_
    return j.wrote bs.length n count (← outputPiece core c a bs.length j.at_ ((bs.drop j.at_).take n))
  | none =>
    let a := gatesTo j.desc
    let len := 4 * perm.length
    let n := pieceLen a len j.at_
    let bs ← ((perm.drop (j.at_ / 4)).take (n / 4)).mapM (fun i => engineBytes core c (descWord j.desc 1 + 4 * i) 4)
    return j.wrote len n count (← outputPiece core c a len j.at_ bs.flatten)

/-- The fields of a YGATH's descriptor (R294, R297). -/
def ygathFields (d : List Byte) : EngM Unit := do
  let w := descWord d
  let n := w 9
  require (wordsZero d [3, 4, 5, 6, 7, 10, 11, 12, 13, 14, 15] && w 8 / 2 ^ 35 = 0 && w 8 % 64 = 0 && n / 2 ^ 32 = 0 &&
    (List.range 3).all (fun i => w i / 2 ^ 48 = 0)) rBADWB
  require ((List.range 3).all (fun i => w i % 4 = 0)) rALIGN
  require (!outputsOverlap [(w 1, 4 * n)] [(w 2, n * (w 8 % 2 ^ 32))]) rBADWB

/-- The row of SRC that an entry of PERM names: its address and length. -/
def gatherRow (d : List Byte) (x : Int) : Nat × Nat :=
  let rlen := descWord d 8 % 2 ^ 32
  (descWord d 0 + x.toNat / (descWord d 8 / 2 ^ 32 % 8 + 1) * rlen, rlen)

/-- YGATH checks every entry before it copies: none is negative, and DST overlaps no row of SRC that the context may read; a row
that it may not read fails when its turn comes (R475; log entry 92). -/
def ygathCheck (core : Nat) (c : Ctx) (j : MarshalJob) : EngM MarshalJob := do
  let w := descWord j.desc
  let dst := (w 2, w 9 * (w 8 % 2 ^ 32))
  let s ← getThe State
  checkPiece core c j (w 1) (4 * w 9) (fun bs => do
    require ((int32s bs).all (0 ≤ ·)) rBADIDX
    require ((int32s bs).all (fun x =>
      let r := gatherRow j.desc x
      !arraysOverlap r dst || (engineCheck s core c true false r.1 r.2).isSome)) rBADWB) false (fun _ => pure ())

/-- YGATH copies a piece of its next row (R297). -/
def ygathWrite (core : Nat) (c : Ctx) (j : MarshalJob) : EngM MarshalJob := do
  let w := descWord j.desc
  let rlen := w 8 % 2 ^ 32
  if rlen = 0 || w 9 = 0 then return j.at 4 0 0
  else
    let x := sext (ofBytes (← engineBytes core c (w 1 + 4 * j.item) 4)) 32
    require (0 ≤ x) rBADIDX
    let a := w 2 + j.item * rlen
    let n := pieceLen a rlen j.at_
    let bs ← engineBytes core c ((gatherRow j.desc x).1 + j.at_) n
    return j.wrote rlen n (w 9) (← outputPiece core c a rlen j.at_ bs)

/-- F32, BF16 and F16 by their codes. -/
def floatFmt (code : Nat) : Option Elem :=
  if code = 1 then some .f32 else if code = 2 then some .bf16 else if code = 3 then some .f16 else none

/-- One token: its gates with elements of the rows of Y that they name (R298). -/
def combineRow (yf oF : Elem) (n : Nat) (terms : List (FVal × List Byte)) : List Byte :=
  let b := yf.width / 8
  let rows := terms.map (fun p => (p.1, (chunks p.2.length b p.2).map (fun e => yf.val (ofBytes e))))
  (List.range n).flatMap (fun i =>
    let acc := rows.foldl (fun acc p => rneF32 (acc.add (p.1.mul (p.2.getD i .zero)))) FVal.zero
    toBytes (oF.width / 8) (encodeFloat oF .rne false acc).1)

/-- YFMT, OFMT, D and TOPK of a YCOMB's descriptor. -/
def combineShape (d : List Byte) : EngM (Elem × Elem × Nat × Nat) :=
  let w := descWord d 8
  match floatFmt (w / 2 ^ 28 % 16), floatFmt (w / 2 ^ 32 % 16) with
  | some yf, some oF => pure (yf, oF, (w / 2 ^ 20 % 256 + 1) * 96, w / 2 ^ 17 % 8 + 1)
  | _, _ => engineFails rBADWB

/-- The fields of a YCOMB's descriptor (R294, R298, R475). -/
def ycombFields (d : List Byte) : EngM Unit := do
  let w := descWord d
  let t := w 8 % 2 ^ 17
  require (wordsZero d [4, 5, 6, 7, 10, 11, 12, 13, 14, 15] && w 8 / 2 ^ 36 = 0 && 1 ≤ t && t ≤ 65536 &&
    1 ≤ w 9 && w 9 < 2 ^ 32 && (List.range 4).all (fun i => w i / 2 ^ 48 = 0)) rBADWB
  let (yf, oF, dim, _) ← combineShape d
  require ((List.range 4).all (fun i => w i % 4 = 0)) rALIGN
  let n := descCount d
  require (!outputsOverlap [(w 0, w 9 * (dim * (yf.width / 8))), (w 1, 4 * n), (w 2, 4 * n)]
    [(w 3, t * (dim * (oF.width / 8)))]) rBADWB

/-- An entry of POS names no row of Y, or one that there is (R475). -/
def posOk (d : List Byte) (p : Int) : Bool := p = -1 || (0 ≤ p && p < (descWord d 9 : Int))

/-- YCOMB checks every entry of POS before it writes (R475). -/
def ycombCheck (core : Nat) (c : Ctx) (j : MarshalJob) : EngM MarshalJob :=
  checkPiece core c j (descWord j.desc 2) (4 * descCount j.desc)
    (fun bs => require ((int32s bs).all (posOk j.desc)) rBADIDX) false (fun _ => pure ())

/-- YCOMB combines a piece of its next token (R298). -/
def ycombWrite (core : Nat) (c : Ctx) (j : MarshalJob) : EngM MarshalJob := do
  let w := descWord j.desc
  let (yf, oF, dim, topk) ← combineShape j.desc
  let yb := yf.width / 8
  let ob := oF.width / 8
  let a := w 3 + j.item * (dim * ob)
  let n := pieceLen a (dim * ob) j.at_
  let pos := int32s (← engineBytes core c (w 2 + 4 * j.item * topk) (4 * topk))
  let gates := (chunks topk 4 (← engineBytes core c (w 1 + 4 * j.item * topk) (4 * topk))).map ofBytes
  require (pos.all (posOk j.desc)) rBADIDX
  let terms ← ((pos.zip gates).filter (fun p => 0 ≤ p.1)).mapM (fun p => do
    let bs ← engineBytes core c (w 0 + p.1.toNat * (dim * yb) + j.at_ / ob * yb) (n / ob * yb)
    return (f32Val p.2, bs))
  return j.wrote (dim * ob) n (w 8 % 2 ^ 17) (← outputPiece core c a (dim * ob) j.at_ (combineRow yf oF (n / ob) terms))

/-! ## The engine (R294) -/

/-- Kind, descriptor, ring and increment of a marshalling command. -/
def Command.marshal : Command → Option (Nat × Nat × Nat × Nat)
  | .ysort d r i => some (0, d, r, i)
  | .ygath d r i => some (1, d, r, i)
  | .ycomb d r i => some (2, d, r, i)
  | _ => none

/-- The descriptor is read, and its fields are checked. -/
def marshalOpen (core : Nat) (c : Ctx) (j : MarshalJob) (kind desc : Nat) : EngM MarshalJob := do
  let d ← engineBytes core c desc 128
  if kind = 0 then ysortFields d else if kind = 1 then ygathFields d else ycombFields d
  let j1 := { j with desc := d }
  return if kind = 1 && descWord d 9 = 0 then j1.at 2 0 0 else j1.at 1 0 0

/-- The next piece of a job's work: of its descriptor, of its indices or of its outputs. -/
def marshalWork (core : Nat) (c : Ctx) (j : MarshalJob) (kind desc : Nat) : EngM MarshalJob :=
  if j.phase = 0 then marshalOpen core c j kind desc
  else if j.phase = 1 then
    (if kind = 0 then ysortCheck core c j else if kind = 1 then ygathCheck core c j else ycombCheck core c j)
  else (if kind = 0 then ysortWrite core c j else if kind = 1 then ygathWrite core c j else ycombWrite core c j)

/-- Bytes of a job in the routing buffers: its descriptor, its indices, what it has read and its writes (R294). -/
def MarshalJob.held (j : MarshalJob) : Nat :=
  j.desc.length + j.index.length + j.fetch.data.length + (j.fetch.got.foldl (fun n r => n + r.1.length) 0) +
    j.stores.foldl (fun n w => n + w.data.length) 0

/-- The routing buffers take another piece of work: what one reads is below 2 KiB, and they hold 4 MiB (R19, R29). -/
def MarshalJob.fits (j : MarshalJob) : Bool := j.held + 2048 ≤ 2 ^ 22

/-- The command that the engine takes next, round-robin among the cores (R294). -/
def State.nextMarshal (s : State) (cluster : Nat) : Option (Nat × Nat × Command) :=
  let last := (s.cluster cluster).marshalLast
  ((List.range 16).map (fun i => cluster * 16 + (last + 1 + i) % 16)).findSome? (fun core =>
    [0, 1, 2, 3].findSome? (fun plat =>
      match s.headCmd core plat with
      | some q => if q.cmd.marshal.isSome && (s.issuer core plat (s.ctx core plat).ctxid).isSome then
          some (core, plat, q.cmd) else none
      | none => none))

/-- The engine's own record of its command. -/
def State.setMarshal (s : State) (cluster : Nat) (j : Option MarshalJob) : State :=
  s.setCluster cluster { s.cluster cluster with marshal := j }

/-- A command ends with a report and no advance (R294). -/
def State.marshalFails (s : State) (cluster : Nat) (j : MarshalJob) (ring st : Nat) : State :=
  (s.reportTo j.ctxid ring 0 st (sourceOf 1 j.core j.plat)).setMarshal cluster none

/-- A job goes on; one that is to write finds room in its ring, or waits (R289). -/
def State.marshalOn (s : State) (cluster : Nat) (j : MarshalJob) (ring inc : Nat) : State :=
  s.setMarshal cluster (some (if j.phase = 2 && s.ringRoom j.ctxid ring inc then { j with phase := 3 } else j))

/-- The engine does the next piece of a job's work; a failure is reported once the writes before it have performed (R294). -/
def State.marshalRun (s : State) (cluster : Nat) (j : MarshalJob) (core : Nat) (c : Ctx) (kind desc ring inc : Nat) :
    Host.Outcome State Fault Refusal :=
  if j.phase = 2 || j.phase = 4 || !j.fits then .refused .notEnabled
  else s.work j.fetch (marshalWork core c j kind desc) (fun t f => t.setMarshal cluster (some { j with fetch := f }))
    (fun t j1 => t.marshalOn cluster j1 ring inc)
    (fun t st => if j.stores.isEmpty then some (t.marshalFails cluster j ring st) else none)

/-- After the n-th write of a job; one that was not done ends it with a report (R294). -/
def State.marshalWrote (s : State) (cluster : Nat) (j : MarshalJob) (ring n : Nat) (ok : Bool) : State :=
  if ok then s.setMarshal cluster (some { j with stores := writesLeft j.stores n }) else s.marshalFails cluster j ring rHWERR

/-- The engine takes the next command of the cluster's queues, where it is of a kind (R294). -/
def State.marshalTake (s : State) (kind cluster : Nat) : Option State :=
  (s.nextMarshal cluster).bind (fun q =>
    (q.2.2.marshal).bind (fun m =>
      if m.1 = kind then
        let c := s.ctx q.1 q.2.1
        let j : MarshalJob :=
          { core := q.1, plat := q.2.1, ctxid := c.ctxid, cmd := q.2.2, phase := 0, desc := [], item := 0, at_ := 0, index := [],
            fetch := .empty, stores := [] }
        let s1 := s.popCmd q.1 q.2.1
        some (s1.setCluster cluster { s1.cluster cluster with marshalLast := q.1 % 16, marshal := some j })
      else none))

/-- A step of the engine for a command of a kind: `word` 0 takes the next command, or does the next piece of the job's work; 2n + 1
performs the n-th write of the job, and 2n + 2 the n-th word that it reads. The context that it acts for must be on a platform
(R519). -/
def marshalStep (kind cluster word : Nat) (s : State) : Host.Outcome State Fault Refusal :=
  match (s.cluster cluster).marshal with
  | none => match (if word = 0 then s.marshalTake kind cluster else none) with
    | some s1 => .next s1
    | none => .refused .notEnabled
  | some j =>
    match j.cmd.marshal, s.present j.ctxid with
    | some (k, desc, ring, inc), some (core, _, c) =>
      if k != kind then .refused .notEnabled
      else match word with
        | 0 => s.marshalRun cluster j core c kind desc ring inc
        | k + 1 =>
          if k % 2 = 0 then s.performNth c.world j.stores (k / 2) (fun s1 ok => s1.marshalWrote cluster j ring (k / 2) ok)
          else s.readNth c.world j.fetch (k / 2) (fun t f => t.setMarshal cluster (some { j with fetch := f }))
    | _, _ => .refused .notEnabled

def execYsortExec (cluster word : Nat) (s : State) : Host.Outcome State Fault Refusal := marshalStep 0 cluster word s
def execYgathExec (cluster word : Nat) (s : State) : Host.Outcome State Fault Refusal := marshalStep 1 cluster word s
def execYcombExec (cluster word : Nat) (s : State) : Host.Outcome State Fault Refusal := marshalStep 2 cluster word s

/-- The ring of a waiting command has room (R289). -/
def State.marshalRoom (s : State) (cluster : Nat) : Option State :=
  match (s.cluster cluster).marshal with
  | some j =>
    match j.cmd.marshal with
    | some (_, _, ring, inc) =>
      if j.phase = 2 && s.ringRoom j.ctxid ring inc then some (s.setMarshal cluster (some { j with phase := 3 })) else none
    | none => none
  | none => none

/-- A finished command advances its ring, and the engine is free (R294). -/
def State.marshalAdvance (s : State) (cluster : Nat) : Option State :=
  match (s.cluster cluster).marshal with
  | some j =>
    match j.cmd.marshal with
    | some (_, _, ring, inc) =>
      if j.phase = 4 && j.stores.isEmpty then
        some ((s.reportTo j.ctxid ring inc rOK (sourceOf 1 j.core j.plat)).setMarshal cluster none)
      else none
    | none => none
  | none => none

end Sys2Proof.Machine
end

