-- ==== Sys2Proof/Machine/Collective.lean ====
section
/-! DEFINITION. The collective engine: XA2AV, XAR, XAG and XRUN (R299 to R301, R470 to R472). Members on other packages are
outside the model: what they send is free, and so is a failure that they meet (log entry 8). -/
namespace Sys2Proof.Machine

/-! ## Members and operations -/

/-- This package's own fabric identifier in the groups (log entry 8). -/
def ownPackage : Nat := 0

/-- Ranks of the members on this package. -/
def Collective.local (o : Collective) : List Nat :=
  (o.members.zipIdx.filter (fun p => p.1.1 = ownPackage)).map (·.2)

/-- Some member is on another package. -/
def Collective.remote (o : Collective) : Bool := o.members.any (fun m => m.1 != ownPackage)

def Collective.member (o : Collective) (rank : Nat) : Option Joined := o.joined.find? (·.rank = rank)

/-- The operation of a number. -/
def State.findColl (s : State) (id : Nat) : Option Collective := s.collectives.find? (·.id = id)

/-- Put an operation back; one whose members here have all been answered goes. -/
def State.putColl (s : State) (o : Collective) : State :=
  let gone := o.joined.all (fun j => j.phase = 2) && o.local.all o.ranks.contains
  { s with collectives :=
      if gone then s.collectives.filter (·.id != o.id) else s.collectives.map (fun q => if q.id = o.id then o else q) }

/-- FMT, OP and COUNT of word 0x30 (R299). -/
def collFmt (w : Nat) : Nat := w % 16
def collOp (w : Nat) : Nat := w / 16 % 4
def collCount (w : Nat) : Nat := w / 2 ^ 32 % 2 ^ 32
/-- The element format of FMT. -/
def collElem (w : Nat) : Elem := if collFmt w = 2 then .bf16 else .f32
def collFmtOk (w : Nat) : Bool := (collFmt w = 1 || collFmt w = 2) && collOp w != 3

/-- Report to a member's ring. -/
def State.collReport (s : State) (j : Joined) (n st : Nat) : State :=
  s.reportTo j.ctxid j.ring n st (sourceOf 2 j.core j.plat)

/-- Every member of an operation is given a STATUS, and the operation is over for them (R471, R472). -/
def State.collAll (s : State) (o : Collective) (st : Nat) (stage : Nat) : State :=
  (o.joined.foldl (fun s j => s.collReport j 0 st) s).putColl
    { o with joined := [], stage := stage, work := [], stores := [], fetch := .empty }

/-! ## Acceptance (R471, R472) -/

/-- Fields of a step of the step store (R301). -/
def stepSoff (b : BitVec 128) : Nat := (b.extractLsb' 96 32).toNat
def stepLen (b : BitVec 128) : Nat := (b.extractLsb' 64 32).toNat
def stepDoff (b : BitVec 128) : Nat := (b.extractLsb' 32 32).toNat
def stepBuf (b : BitVec 128) : Nat := (b.extractLsb' 24 8).toNat
def stepPeer (b : BitVec 128) : Nat := (b.extractLsb' 8 16).toNat
def stepOp (b : BitVec 128) : Nat := (b.extractLsb' 0 4).toNat

/-- A field of a step is out of range. -/
def stepBad (w : Nat) (b : BitVec 128) : Bool :=
  b.extractLsb' 4 4 != 0#4 || 5 < stepOp b || 2 < stepBuf b || (stepOp b = 3 && !collFmtOk w)

/-- A step writes outside its program's area of the collective buffers (R19, R301). -/
def stepOver (area : Nat) (b : BitVec 128) : Bool :=
  stepBuf b = 2 && (stepOp b = 2 || stepOp b = 3 || stepOp b = 4) && area < stepDoff b + stepLen b

/-- The program of a command is not to be run (R301, R471). -/
def State.programBad (s : State) (part prog w : Nat) : Bool :=
  if prog = 0 then w != 0
  else if prog = 1 then !collFmtOk w || collCount w = 0
  else if prog = 2 then collCount w = 0
  else if prog < 16 || 63 < prog then true
  else match SMap.find (s.partition part).programs prog with
    | some steps => steps.any (fun b => stepBad w b || stepOver (collArea part prog).2 b)
    | none => true

/-- What a collective command asks for: its program, its descriptor, its ring and its increment. -/
def Command.collective : Command → Option (Nat × Nat × Nat × Nat × Nat)
  | .xa2av d r i => some (0, 0, d, r, i)
  | .xar d r i => some (1, 1, d, r, i)
  | .xag d r i => some (2, 2, d, r, i)
  | .xrun d p r i => some (3, p, d, r, i)
  | .chstart .. | .chstop | .ringcfg .. | .ysort .. | .ygath .. | .ycomb .. | .sendh .. | .sealL .. | .openL .. | .rqseed ..
  | .axinv _ | .axqry .. => none

/-- The rank of a platform in a group of the context's partition. -/
def State.rankIn (s : State) (part group core plat : Nat) : Option (Group × Nat) :=
  (SMap.find (s.partition part).groups group).bind (fun g =>
    (g.members.findIdx? (· = (ownPackage, core, plat))).map (fun r => (g, r)))

/-- The engine reads and checks a descriptor: the group and the member (R471). -/
def readJoin (core plat : Nat) (c : Ctx) (prog desc ring inc : Nat) : EngM (Nat × Group × Joined) := do
  let d ← engineBytes core c desc 128
  let s ← getThe State
  let w := descWord d
  let group := w 5
  require (group < 64 && w 6 % 2 ^ 32 / 64 = 0 && !s.programBad c.part prog (w 6)) rBADWB
  match s.rankIn c.part group core plat with
  | none => engineFails rNOGRP
  | some (g, rank) =>
    let j : Joined :=
      { rank := rank, core := core, plat := plat, ctxid := c.ctxid, prog := prog, sbuf := w 0 % 2 ^ 48,
        rbuf := w 1 % 2 ^ 48, rcnt := w 3 % 2 ^ 48, rlim := w 4, word := w 6, arg := w 7, sends := [], ring := ring, inc := inc,
        phase := 0 }
    if prog = 0 then
      require (w 2 % 8 = 0 && w 3 % 8 = 0) rALIGN
      let n := g.members.length
      let counts := (chunks n 8 (← engineBytes core c (w 2 % 2 ^ 48) (8 * n))).map ofBytes
      require (counts.all (· < 2 ^ 63)) rBADWB
      return (group, g, { j with sends := counts })
    else
      require (prog != 1 || (w 0 % ((collElem (w 6)).width / 8) = 0 && w 1 % ((collElem (w 6)).width / 8) = 0)) rALIGN
      return (group, g, j)

/-- A member's command joins the first operation of its group that has not had one of the member, or a new one (R472). -/
def State.joinColl (s : State) (part group : Nat) (g : Group) (j : Joined) : State :=
  match s.collectives.find? (fun o => o.part = part && o.group = group && !o.ranks.contains j.rank) with
  | some o =>
    if o.stage = 2 then (s.collReport j 0 rTIMEOUT).putColl { o with ranks := insertNat o.ranks j.rank }
    else s.putColl { o with joined := o.joined ++ [j], ranks := insertNat o.ranks j.rank }
  | none =>
    { s with
      nextId := s.nextId + 1
      collectives := s.collectives ++ [
        { id := s.nextId, part := part, group := group, members := g.members, joined := [j], ranks := [j.rank],
          since := (htime s).toNat, stage := 0, draw := 0, work := [], stores := [], fetch := .empty, reader := 0, beyond := [], pcs := [],
          sent := [], received := 0 }] }

/-- The engine accepts the collective command of a kind at the head of a platform's queue, where it is not at another of it. -/
def State.collAccept (s : State) (kind core plat : Nat) : Option State :=
  let c := s.ctx core plat
  match s.headCmd core plat, s.issuer core plat c.ctxid with
  | some q, some _ =>
    if (q.cmd.collective.map (·.1)) = some kind && !s.joins.any (·.ctxid = c.ctxid) then
      some { s.popCmd core plat with
        joins := s.joins ++ [{ core := core, plat := plat, ctxid := c.ctxid, cmd := q.cmd, fetch := .empty }] }
    else none
  | _, _ => none

/-- Put back what the engine has of a command whose descriptor it reads; or drop it. -/
def State.putJoin (s : State) (id : Word) (f : Option Fetch) : State :=
  { s with joins := match f with
      | some f => s.joins.map (fun j => if j.ctxid = id then { j with fetch := f } else j)
      | none => s.joins.filter (·.ctxid != id) }

/-- The engine reads and checks the descriptor of an accepted command: the member joins its operation, or is told why not (R471,
R472); or, for `word` 2n + 2, the n-th word that it reads performs. -/
def State.collRead (s : State) (j : Join) (kind word : Nat) : Host.Outcome State Fault Refusal :=
  match j.cmd.collective, s.present j.ctxid with
  | some (k, prog, desc, ring, inc), some (core, plat, c) =>
    if k != kind then .refused .notEnabled
    else match word with
      | 0 => s.work j.fetch (readJoin core plat c prog desc ring inc) (fun t f => t.putJoin j.ctxid (some f))
          (fun t r => (t.putJoin j.ctxid none).joinColl c.part r.1 r.2.1 r.2.2)
          (fun t st => some ((t.putJoin j.ctxid none).reportTo j.ctxid ring 0 st (sourceOf 2 j.core j.plat)))
      | n + 1 =>
        if n % 2 = 1 then s.readNth c.world j.fetch (n / 2) (fun t f => t.putJoin j.ctxid (some f)) else .refused .notEnabled
  | _, _ => .refused .notEnabled

/-! ## Blocks (R193, R342) -/

/-- A member's engine reads a block; a part of a ciphertext line, or any of it where the transfer is no copy, is FORM. -/
def blockRead (core : Nat) (c : Ctx) (copy : Bool) (addr n : Nat) : EngM Block := do
  let s ← getThe State
  let lines := (runLines addr n).filter (fun l => cipherAt s core c l.1)
  require (lines.all (fun l => copy && l.2 = 64)) rFORM
  return ⟨← engineBytes core c addr n, lines.map (fun l => l.1 - addr), some c.world⟩

/-- The n bytes of a block from the k-th on. -/
def Block.slice (b : Block) (k n : Nat) : Block :=
  ⟨(b.bytes.drop k).take n, (b.cipher.filter (fun i => k ≤ i && i + 64 ≤ k + n)).map (· - k), b.world⟩

/-- A ciphertext line of a block reaches into the n bytes from the k-th on, but does not lie in them. -/
def Block.tears (b : Block) (k n : Nat) : Bool :=
  b.cipher.any (fun i => i < k + n && k < i + 64 && !(k ≤ i && i + 64 ≤ k + n))

/-- The writes of a piece of at most a line of a block, for a run that begins `run.1` and is `run.2` long: ciphertext lines
whole, plaintext over no part of a ciphertext line, to no host memory and to no other world (R193, R342). -/
def collStores (core : Nat) (c : Ctx) (run : Nat × Nat) (addr : Nat) (b : Block) : EngM (List Store) := do
  let cipher := !b.cipher.isEmpty
  let s ← getThe State
  let line := addr / 64 * 64
  match engineCheck s core c false true addr b.bytes.length with
  | some st => engineFails st
  | none =>
    require (!cipherAt s core c addr || (run.1 ≤ line && line + 64 ≤ run.1 + run.2)) rFORM
    require (if cipher then addr % 64 = 0 else !hostAt core c addr && (b.world = none || b.world = some c.world)) rFORM
    return cutStores (b.bytes.length + 1) core c run addr b.bytes cipher

/-- The writes of a piece of a block into the collective buffers. -/
def areaStores (run : Nat × Nat) (place : Nat) (b : Block) : List Store :=
  [{ place := place, addr := 0, data := b.bytes,
     whole := run.1 ≤ place / 64 * 64 && place / 64 * 64 + 64 ≤ run.1 + run.2, cipher := !b.cipher.isEmpty, prot := false,
     poison := false, begun := false }]

/-- What a member on another package contributes: byte i of its item k, under a draw (log entry 8). -/
def remoteBytes (draw k n : Nat) : List Byte := (List.range n).map (fun i => Config.fabricByte draw (2 ^ 64 * (k + 1) + i))

/-- A block of a member on another package. -/
def remoteBlock (draw k n : Nat) : Block := ⟨remoteBytes draw k n, [], none⟩

/-- Items of a pair of ranks. -/
def pairItem (src dst : Nat) : Nat := src * 1024 + dst

/-! ## What an operation transfers (R300) -/

/-- A transfer of which nothing has been read. -/
def transfer (source : BlockSource) (dest : BlockDest) (len : Nat) : Transfer := ⟨source, dest, len, 0⟩

/-- Where a rank's block comes from: its memory here, or another package. -/
def Collective.sourceAt (o : Collective) (rank addr item len : Nat) : BlockSource :=
  if (o.member rank).isSome then .memory rank addr else .block (remoteBlock o.draw item len)

/-- Bytes that rank s sends to rank d: those of a member here, or free ones (R300). -/
def Collective.count (o : Collective) (src dst : Nat) : Nat :=
  match o.member src with
  | some j => j.sends.getD dst 0
  | none => ofBytes (remoteBytes o.draw (2 ^ 20 + pairItem src dst) 8) % 2 ^ 63

/-- What every rank sends to a rank, in rank order. -/
def Collective.counts (o : Collective) (dst : Nat) : List Nat := (List.range o.members.length).map (fun src => o.count src dst)

/-- The members over their limit (R300). -/
def Collective.overs (o : Collective) : List Nat :=
  (o.joined.filter (fun j => j.rlim < (o.counts j.rank).foldl (· + ·) 0)).map (·.rank)

/-- XA2AV: every member's counts, then its blocks in rank order, of which one over its limit receives none; a block for
another package is read (R300). -/
def Collective.xa2avWork (o : Collective) : List Transfer :=
  let ranks := List.range o.members.length
  let sbuf (r d : Nat) : Nat := match o.member r with
    | some j => j.sbuf + (j.sends.take d).foldl (· + ·) 0
    | none => 0
  o.joined.map (fun j => transfer (.block ⟨(o.counts j.rank).flatMap (toBytes 8), [], none⟩) (.memory j.rank j.rcnt)
    (8 * o.members.length)) ++
  o.joined.flatMap (fun j => if o.overs.contains j.rank then [] else ranks.map (fun src =>
    transfer (o.sourceAt src (sbuf src j.rank) (pairItem src j.rank) (o.count src j.rank))
      (.memory j.rank (j.rbuf + ((o.counts j.rank).take src).foldl (· + ·) 0)) (o.count src j.rank))) ++
  o.joined.flatMap (fun j => (ranks.filter (fun d => (o.member d).isNone)).map (fun d =>
    transfer (.memory j.rank (sbuf j.rank d)) .away (j.sends.getD d 0)))

/-- XAG: every member receives every rank's block (R300). -/
def Collective.xagWork (o : Collective) (n : Nat) : List Transfer :=
  o.joined.flatMap (fun j => (List.range o.members.length).map (fun r =>
    transfer (o.sourceAt r (((o.member r).map (·.sbuf)).getD 0) (pairItem r 0) n) (.memory j.rank (j.rbuf + r * n)) n))

/-- The transfers with which a program begins: those of XA2AV, XAR and XAG, none of the step store's (R300, R301). -/
def Collective.firstWork (o : Collective) (prog w : Nat) : List Transfer :=
  (if prog = 0 then o.xa2avWork
  else if prog = 1 then [transfer .reduced .everyone (collCount w * ((collElem w).width / 8))]
  else if prog = 2 then o.xagWork (collCount w)
  else []).filter (fun t => t.len != 0)

/-- One operation of a reduction in F32 (R300). -/
def reduceOp (op : Nat) (a b : FVal) : FVal :=
  if op = 0 then rneF32 (a.add b) else if op = 1 then a.max b else a.min b

/-- One level of the tree: each part at an even place takes in its right neighbour (R300). -/
def reduceLevel (op : Nat) : List (List FVal) → List (List FVal)
  | a :: b :: rest => a.zipWith (reduceOp op) b :: reduceLevel op rest
  | [a] => [a]
  | [] => []

/-- The tree over the parts of the ranks; ten levels serve 1024 of them. -/
def reduceTree (op : Nat) : Nat → List (List FVal) → List FVal
  | 0, l => l.headD []
  | f + 1, l => reduceTree op f (reduceLevel op l)

/-- Elements as exact values, and back with RNE. -/
def decodeElems (f : Elem) (n : Nat) (bs : List Byte) : List FVal :=
  (chunks n (f.width / 8) bs).map (fun b => f.val (ofBytes b))
def encodeElems (f : Elem) (l : List FVal) : List Byte :=
  l.flatMap (fun v => toBytes (f.width / 8) (encodeFloat f .rne false v).1)

/-! ## The engine reads a piece of a transfer -/

/-- The context of a member, which must be on a platform (R519). -/
def State.memberAt (s : State) (o : Collective) (rank : Nat) : Option (Nat × Nat × Ctx) :=
  (o.member rank).bind (fun j => s.present j.ctxid)

/-- No STATUS: the step waits for a member that is off its platform, or for what another member has to do. -/
def rWAIT : Nat := 0x101

/-- A member that a step acts for, with its core. -/
def memberFor (o : Collective) (rank : Nat) : EngM (Nat × Ctx) := do
  match (← getThe State).memberAt o rank with
  | some (core, _, c) => return (core, c)
  | none => engineFails rWAIT

/-- A member's memory is read for it. -/
def memberRead (o : Collective) (rank : Nat) (copy : Bool) (addr n : Nat) : EngM Block := do
  let (core, c) ← memberFor o rank
  blockRead core c copy addr n

/-- Bytes of a transfer that are read at once: those of one line of its destination, or of its source where it leaves the
package; sixteen elements of a reduction. -/
def Transfer.piece (t : Transfer) (es : Nat) : Nat :=
  let line (a : Nat) : Nat := min (t.len - t.at_) (64 - (a + t.at_) % 64)
  match t.dest with
  | .memory _ a => line a
  | .area _ p => line p
  | .everyone => min (t.len - t.at_) (16 * es)
  | .away => match t.source with
    | .memory _ a => line a
    | .block _ | .reduced => t.len - t.at_

/-- Elements of every member, combined by the tree, and rounded to FMT (R300). -/
def Collective.reduced (o : Collective) (w at_ n : Nat) : EngM Block := do
  let f := collElem w
  let blocks ← (List.range o.members.length).mapM (fun r => match o.member r with
    | some j => memberRead o r false (j.sbuf + at_) n
    | none => pure ((remoteBlock o.draw (pairItem r 0) (at_ + n)).slice at_ n))
  let worlds := blocks.filterMap (·.world)
  require (worlds.all (fun x => worlds.head? = some x)) rFORM
  return ⟨encodeElems f (reduceTree (collOp w) 10 (blocks.map (fun b => decodeElems f n b.bytes))), [], worlds.head?⟩

/-- A piece of a transfer is read, and becomes writes with the members that they are for (R219, R300). -/
def Collective.readPiece (o : Collective) (w : Nat) (t : Transfer) : EngM (List (Nat × Store)) := do
  let n := t.piece ((collElem w).width / 8)
  let b ← match t.source with
    | .memory r a => memberRead o r true (a + t.at_) n
    | .block b => do
      require (!b.tears t.at_ n) rFORM
      pure (b.slice t.at_ n)
    | .reduced => o.reduced w t.at_ n
  let goes (rank base : Nat) : EngM (List (Nat × Store)) := do
    let (core, c) ← memberFor o rank
    return (← collStores core c (base, t.len) (base + t.at_) b).map (fun x => (rank, x))
  match t.dest with
  | .memory r a => goes r a
  | .area r p => return (areaStores (p, t.len) (p + t.at_) b).map (fun x => (r, x))
  | .everyone => return (← o.joined.mapM (fun j => goes j.rank j.rbuf)).flatten
  | .away => return []

/-- The operation after a piece of its first transfer. -/
def Collective.advanced (o : Collective) (w : Nat) (t : Transfer) (rest : List Transfer) (ws : List (Nat × Store)) :
    Collective :=
  let at1 := t.at_ + t.piece ((collElem w).width / 8)
  { o with stores := o.stores ++ ws, work := if t.len ≤ at1 then rest else { t with at_ := at1 } :: rest }

/-! ## XRUN (R301) -/

/-- The first block from a source to a destination of a length, and the rest. -/
def takeSent (src dst len : Nat) : List (Nat × Nat × Block) → Option (Block × List (Nat × Nat × Block))
  | [] => none
  | (a, d, b) :: rest =>
    if a = src && d = dst then (if b.bytes.length = len then some (b, rest) else none)
    else (takeSent src dst len rest).map (fun p => (p.1, (a, d, b) :: p.2))

/-- The block that a RECV of a member waits for, sent here or a free one of a member elsewhere, taken out of the operation. -/
def Collective.takeBlock (o : Collective) (src dst len : Nat) : Option (Block × Collective) :=
  if o.members.length ≤ src then none
  else if (o.member src).isNone then
    some (remoteBlock o.draw (2 ^ 32 + o.received) len, { o with received := o.received + 1 })
  else (takeSent src dst len o.sent).map (fun p => (p.1, { o with sent := p.2, received := o.received + 1 }))

/-- Combine a block with what its destination holds (R301). -/
def combine (w : Nat) (old new : Block) : Block :=
  let f := collElem w
  let vals (b : Block) := decodeElems f b.bytes.length b.bytes
  { new with bytes := encodeElems f ((vals old).zipWith (reduceOp (collOp w)) (vals new)) }

/-- The destination of a step: a buffer of the member, or the program's area (R301). -/
def stepDest (o : Collective) (prog : Nat) (j : Joined) (b : BitVec 128) : BlockDest :=
  if stepBuf b = 2 then .area j.rank (collPlace o.part prog (stepDoff b))
  else .memory j.rank ((if stepBuf b = 0 then j.sbuf else j.rbuf) + stepDoff b)

/-- The block that the destination of a RECVRED holds. -/
def destRead (o : Collective) (d : BlockDest) (n : Nat) : EngM Block := do
  match d with
  | .memory r a => memberRead o r false a n
  | .area _ p =>
    let s ← getThe State
    require (!(linePoints p n).any (fun a => s.isCipher (a / 64))) rFORM
    return ⟨s.bytes p n, [], none⟩
  | .everyone | .away => engineFails rWAIT

/-- A member's transfers have been made. -/
def Collective.quiet (o : Collective) (rank : Nat) : Bool :=
  !o.stores.any (·.1 = rank) && !o.work.any (fun t => match t.dest with
    | .memory r _ | .area r _ => r = rank
    | .everyone => true
    | .away => match t.source with
      | .memory r _ => r = rank
      | .block _ | .reduced => false)

/-- Where a member stands in its program. -/
def Collective.pcOf (o : Collective) (rank : Nat) : Nat := (o.pcs.lookup rank).getD 0

/-- A member goes on to its next step, with a transfer more. -/
def Collective.onward (o : Collective) (rank : Nat) (more : List Transfer) : Collective :=
  { o with
    pcs := o.pcs.map (fun p => if p.1 = rank then (p.1, p.2 + 1) else p)
    work := o.work ++ more.filter (fun t => t.len != 0) }

/-- A member takes the next step of its program, which waits for its last one's writes, for a SEND, or for the others at a
BARRIER (R301). -/
def Collective.memberStep (o : Collective) (prog w : Nat) (steps : List (BitVec 128)) (j : Joined) : EngM Collective := do
  let pc := o.pcOf j.rank
  match steps[pc]? with
  | none => engineFails rWAIT
  | some b =>
    require (o.quiet j.rank) rWAIT
    let peer := if stepPeer b = 0xFFFF then j.rank else stepPeer b
    let src := j.sbuf + stepSoff b
    let len := stepLen b
    let dest := stepDest o prog j b
    match stepOp b with
    | 1 =>
      let blk ← memberRead o j.rank true src len
      return ({ o with sent := o.sent ++ [(j.rank, peer, blk)] } : Collective).onward j.rank []
    | 2 => match o.takeBlock peer j.rank len with
      | none => engineFails rWAIT
      | some (blk, o1) => return o1.onward j.rank [transfer (.block blk) dest len]
    | 3 => match o.takeBlock peer j.rank len with
      | none => engineFails rWAIT
      | some (blk, o1) =>
        require blk.cipher.isEmpty rFORM
        let old ← destRead o dest len
        return o1.onward j.rank [transfer (.block (combine w old blk)) dest len]
    | 4 => return o.onward j.rank [transfer (.memory j.rank src) dest len]
    | 5 => if o.pcs.all (fun p => pc ≤ p.2) then return o.onward j.rank [] else engineFails rWAIT
    | _ => engineFails rWAIT

/-- The program of a member of the step store, with its steps; none in ROM. -/
def State.stepsOf (s : State) (o : Collective) (prog : Nat) : List (BitVec 128) :=
  if prog < 16 then [] else (SMap.find (s.partition o.part).programs prog).getD []

/-- Every member here has come to its END, as those of a ROM program have (R301). -/
def Collective.ended (o : Collective) (steps : List (BitVec 128)) : Bool :=
  o.pcs.all (fun p => stepOp (steps.getD p.2 0) = 0)

/-! ## The operation -/

/-- The failure that a member on another package brings, where it brings one: a check of R192 that it failed, or a
disagreement with the others (log entry 8). -/
def remoteFailure (o : Collective) (draw : Nat) : Option Nat :=
  let b := (Config.fabricByte draw 0).toNat
  if o.remote && rBADWB ≤ b && b ≤ rHWERR then some b else none

/-- Members disagree in program, FMT, OP or COUNT (R472). -/
def Collective.disagree (o : Collective) : Bool :=
  match o.joined with
  | [] => false
  | j :: rest => rest.any (fun k => k.prog != j.prog || k.word != j.word)

/-- Its transfers may begin: the members here have joined, are on their platforms, and their rings have room (R289). -/
def Collective.ready (o : Collective) (s : State) : Bool :=
  o.stage = 0 && o.local.all (fun r => (o.member r).isSome) &&
    o.joined.all (fun j => (s.present j.ctxid).isSome && (o.disagree || j.phase = 1))

/-- The transfers begin: members that disagree get BADWB, and one elsewhere may bring a failure (R471, R472). -/
def State.collStart (s : State) (o : Collective) (prog w : Nat) : State :=
  let o1 := { o with stage := 1, draw := s.oracle }
  let s1 := if o.remote then { s with oracle := s.oracle + 1 } else s
  if o.disagree then s1.collAll o rBADWB 1
  else match remoteFailure o s.oracle with
    | some st => s1.collAll o st 1
    | none => s1.putColl { o1 with
        work := o1.firstWork prog w, beyond := if prog = 0 then o1.overs else [], pcs := o.joined.map (fun j => (j.rank, 0)) }

/-- The engine's work on an operation, for its first transfer (0) or for a member's step (1 and its place): a failure, which is
every member's, comes once the writes before it have performed (R471). -/
def State.collWork (s : State) (o : Collective) (who : Nat) (m : EngM Collective) : Host.Outcome State Fault Refusal :=
  if o.fetch != .empty && o.reader != who then .refused .notEnabled
  else s.work o.fetch m (fun t f => t.putColl { o with fetch := f, reader := who })
    (fun t o1 => t.putColl { o1 with fetch := .empty })
    (fun t st => if st = rWAIT || !o.stores.isEmpty then none else some (t.collAll o st 1))

/-- The world for which a read of an operation is made: of the member that its first transfer, or the step, is of. -/
def State.readerWorld (s : State) (o : Collective) : Nat :=
  let rank := if o.reader = 0 then (match o.work with
      | ⟨.memory r _, _, _, _⟩ :: _ => some r
      | _ => (o.joined.head?).map (·.rank))
    else (o.joined[o.reader - 1]?).map (·.rank)
  ((rank.bind (s.memberAt o)).map (fun p => p.2.2.world)).getD 0

/-- A step of an operation that transfers: `word` 0 works on its first transfer, 3n + 1 performs its n-th write, 3n + 2 lets its
n-th member take a step of its program, and 3n + 3 performs the n-th word that it reads. -/
def State.collMove (s : State) (o : Collective) (prog w word : Nat) : Host.Outcome State Fault Refusal :=
  match word with
  | 0 => match o.work with
    | t :: rest => s.collWork o 0 (do return o.advanced w t rest (← o.readPiece w t))
    | [] => .refused .notEnabled
  | k + 1 =>
    if k % 3 = 0 then
      match (o.stores[k / 3]?).bind (fun p => s.memberAt o p.1) with
      | some (_, _, c) => s.performNth c.world (o.stores.map (·.2)) (k / 3) (fun s1 ok =>
          if ok then s1.putColl { o with
            stores := (o.stores.map (·.1)).eraseIdx (k / 3) |>.zip (writesLeft (o.stores.map (·.2)) (k / 3)) }
          else s1.collAll o rHWERR 1)
      | none => .refused .notEnabled
    else if k % 3 = 1 then match o.joined[k / 3]? with
      | some j => s.collWork o (k / 3 + 1) (o.memberStep prog w (s.stepsOf o prog) j)
      | none => .refused .notEnabled
    else s.readNth (s.readerWorld o) o.fetch (k / 3) (fun t f => t.putColl { o with fetch := f })

/-- The exec row of a program: 0 to 2, and 3 for those of the step store. -/
def progKind (prog : Nat) : Nat := min prog 3

/-- A collective step: an even number is twice that of a platform whose command the engine accepts and whose descriptor it reads,
an odd one names an operation, which begins or goes on. -/
def collStep (kind op word : Nat) (s : State) : Host.Outcome State Fault Refusal :=
  if op % 2 = 0 then
    match s.joins.find? (·.ctxid = (s.ctx (op / 8) (op / 2 % 4)).ctxid) with
    | some j => s.collRead j kind word
    | none => match (if word = 0 then s.collAccept kind (op / 8) (op / 2 % 4) else none) with
      | some s1 => .next s1
      | none => .refused .notEnabled
  else match s.findColl (op / 2) with
    | none => .refused .notEnabled
    | some o =>
      match o.joined with
      | [] => .refused .notEnabled
      | j :: _ =>
        if progKind j.prog != kind then .refused .notEnabled
        else if o.stage = 0 then
          (if word = 0 && o.ready s then .next (s.collStart o j.prog j.word) else .refused .notEnabled)
        else s.collMove o j.prog j.word word

def execXa2avExec (op word : Nat) (s : State) : Host.Outcome State Fault Refusal := collStep 0 op word s
def execXarExec (op word : Nat) (s : State) : Host.Outcome State Fault Refusal := collStep 1 op word s
def execXagExec (op word : Nat) (s : State) : Host.Outcome State Fault Refusal := collStep 2 op word s
def execXrunExec (op word : Nat) (s : State) : Host.Outcome State Fault Refusal := collStep 3 op word s

/-- An operation is not complete 2^26 hub cycles after its first member's command: it ends, with what is written standing
(R300, R472). The step is due, so that nothing completes later. -/
def execCollectiveTimeout (op : Nat) (s : State) : Host.Outcome State Fault Refusal :=
  match s.findColl op with
  | some o =>
    if o.stage != 2 && o.since + 2 ^ 26 ≤ (htime s).toNat then .next (s.collAll o rTIMEOUT 2) else .refused .notEnabled
  | none => .refused .notEnabled

/-- A member's ring has room (R289). -/
def State.collRoom (s : State) (op rank : Nat) : Option State :=
  (s.findColl op).bind (fun o => (o.member rank).bind (fun j =>
    if j.phase = 0 && s.ringRoom j.ctxid j.ring j.inc then
      some (s.putColl { o with joined := o.joined.map (fun k => if k.rank = rank then { k with phase := 1 } else k) })
    else none))

/-- A member's own writes have performed: its ring advances, or, where it was over its limit, does not (R300). -/
def State.collAdvance (s : State) (op rank : Nat) : Option State :=
  (s.findColl op).bind (fun o => (o.member rank).bind (fun j =>
    if o.stage = 1 && j.phase = 1 && o.quiet rank && o.ended (s.stepsOf o j.prog) then
      let s1 := if o.beyond.contains rank then s.collReport j 0 rOVER else s.collReport j j.inc rOK
      some (s1.putColl { o with joined := o.joined.map (fun k => if k.rank = rank then { k with phase := 2 } else k) })
    else none))

end Sys2Proof.Machine
end

