-- ==== Sys2Proof/Machine/Cipher.lean ====
section
/-! DEFINITION. The cipher engine of a core (R341, R412, R413), and the two steps that every engine has with its ring: room that
it finds (R289) and its advance (R230). -/
namespace Sys2Proof.Machine

/-! ## Sealed lines (R341) -/

/-- The key of a world's sealed lines. -/
def lineKey (s : State) (world : Nat) : List Byte :=
  hkdf (toBytes 32 (SMap.get 0#256 s.keys.keys world).toNat) [] [0x6C#8, 0x69#8, 0x6E#8, 0x65#8]

/-- A sealed line: 40 bytes of ciphertext, the counter, the tag. -/
def sealLine (key : List Byte) (counter : Nat) (payload : List Byte) : List Byte :=
  let c := toBytes 8 counter
  let r := gcmSeal key (c ++ toBytes 4 0) c payload
  r.1 ++ c ++ r.2

/-- The plaintext form of a sealed line, where its tag passes. -/
def openLine (key : List Byte) (line : List Byte) : Option (List Byte) :=
  let c := (line.drop 40).take 8
  (gcmOpen key (c ++ toBytes 4 0) c (line.take 40) ((line.drop 48).take 16)).map (fun p => p ++ List.replicate 24 0#8)

/-! ## The engine (R412) -/

def State.setCipher (s : State) (core : Nat) (j : Option CipherJob) : State :=
  s.setCore core { (s.core core) with cipher := j }

/-- The command stops with a STATUS (R413). -/
def State.cipherFails (s : State) (core : Nat) (j : CipherJob) (st : Nat) : State :=
  (s.reportTo j.ctxid j.ring 0 st (sourceOf 3 core j.plat)).setCipher core none

/-- Opening or sealing, first address, lines, ring and increment of a cipher command. -/
def Command.cipher : Command → Option (Bool × Nat × Nat × Nat × Nat)
  | .sealL a n r i => some (false, a, n, r, i)
  | .openL a n r i => some (true, a, n, r, i)
  | .chstart .. | .chstop | .ringcfg .. | .ysort .. | .ygath .. | .ycomb .. | .xa2av .. | .xar .. | .xag .. | .xrun ..
  | .sendh .. | .rqseed .. | .axinv _ | .axqry .. => none

/-- The engine takes the command at the head of the first queue that holds one of a kind. -/
def State.cipherTake (s : State) (opening : Bool) (core : Nat) : Option State :=
  [0, 1, 2, 3].findSome? (fun plat =>
    match s.headCmd core plat, s.issuer core plat (s.ctx core plat).ctxid with
    | some q, some c => match q.cmd.cipher with
      | some (o, a, n, ring, inc) =>
        if o = opening then
          some ((s.popCmd core plat).setCipher core (some
            { plat := plat, ctxid := c.ctxid, opening := o, started := s.ringRoom c.ctxid ring inc, addr := a, left := n,
              ring := ring, inc := inc, fetch := .empty }))
        else none
      | none => none
    | _, _ => none)

/-- What a line becomes: nothing where it is in the target form, else its new bytes and form, or a tag that fails. -/
inductive LineEnd where
  | same
  | write (s : State) (bs : List Byte) (cipher : Bool)
  | tag (counter : Nat)

/-- A line under its key (R341, R412). -/
def cipherLine (s : State) (world : Nat) (opening cipher : Bool) (bs : List Byte) : LineEnd :=
  if opening then
    if !cipher then .same
    else match openLine (lineKey s world) bs with
      | some p => .write s p false
      | none => .tag (ofBytes ((bs.drop 40).take 8))
  else if cipher then .same
  else
    let n := SMap.get 0 s.keys.seals world + 1
    .write { s with keys := { s.keys with seals := SMap.set 0 s.keys.seals world n } }
      (sealLine (lineKey s world) n (bs.take 40)) true

/-- The engine's work on one line: it is checked as read and written, and its frame as no host's, before it is read (R412). -/
def cipherWork (core : Nat) (c : Ctx) (j : CipherJob) : EngM (Option Nat) := do
  let host : Bool := match entryAt core c j.addr with | some e => entHost e | none => false
  match engineCheck (← getThe State) core c true true j.addr 64 with
  | some st => engineFails st
  | none => pure ()
  require (!host) 0x07
  let bs ← engineBytes core c j.addr 64
  let s ← getThe State
  let line := placeOf core c j.addr / 64
  match cipherLine s c.world j.opening (s.isCipher line) bs with
  | .same => return none
  | .tag n => return some n
  | .write s1 out form =>
    modifyThe State (fun _ => s1)
    engineStore core c j.addr out
    modifyThe State (fun t => t.setForm line form)
    return none

/-- The next line of the engine's command: a word of it is read, or, once they all have been, it is written whole with its form
(R215, R412, R413; log entry 51). -/
def State.cipherNext (s : State) (core : Nat) (j : CipherJob) (c : Ctx) : Host.Outcome State Fault Refusal :=
  let put (t : State) (f : Fetch) : State := t.setCipher core (some { j with fetch := f })
  if (SMap.find s.keys.keys c.world).isNone then .next (s.cipherFails core j rABORT)
  else if !j.fetch.pieces.isEmpty then
    s.readNth c.world j.fetch (Config.choice (s.oracle + 1) % j.fetch.pieces.length) put
  else if !s.runFree core c j.addr 64 then .refused .notEnabled
  else s.work j.fetch (cipherWork core c j) put
    (fun t tag => match tag with
      | none => t.setCipher core (some { j with addr := wrap48 (j.addr + 64), left := j.left - 1, fetch := .empty })
      | some n => (t.asyncAt core j.plat cSEALTAG n).setCipher core none)
    (fun t st => some (t.cipherFails core j st))

/-- A step of the cipher engine of a kind: it takes a command, or carries out the next line of the one it has. -/
def cipherStep (opening : Bool) (core : Nat) (s : State) : Host.Outcome State Fault Refusal :=
  match (s.core core).cipher with
  | none => match s.cipherTake opening core with
    | some s1 => .next s1
    | none => .refused .notEnabled
  | some j =>
    match s.issuer core j.plat j.ctxid with
    | some c =>
      if j.opening = opening && j.started && j.left != 0 then s.cipherNext core j c else .refused .notEnabled
    | none => .refused .notEnabled

def execSealExec (core : Nat) (s : State) : Host.Outcome State Fault Refusal := cipherStep false core s
def execOpenExec (core : Nat) (s : State) : Host.Outcome State Fault Refusal := cipherStep true core s

/-- The ring of a waiting command has room (R289). -/
def State.cipherRoom (s : State) (core : Nat) : Option State :=
  match (s.core core).cipher with
  | some j =>
    if !j.started && s.ringRoom j.ctxid j.ring j.inc then some (s.setCipher core (some { j with started := true }))
    else none
  | none => none

/-- A command with no line left advances its ring (R412). -/
def State.cipherAdvance (s : State) (core : Nat) : Option State :=
  match (s.core core).cipher with
  | some j =>
    if j.started && j.left = 0 then
      some ((s.reportTo j.ctxid j.ring j.inc rOK (sourceOf 3 core j.plat)).setCipher core none)
    else none
  | none => none

/-! ## Rings of all engines (R230, R289) -/

/-- An outcome where there is one. -/
def outcomeOf (o : Option State) : Host.Outcome State Fault Refusal :=
  match o with
  | some s => .next s
  | none => .refused .notEnabled

/-- An engine that waits for ring space finds room (R289). -/
def execRingSpaceAvailable (e : EngineId) (s : State) : Host.Outcome State Fault Refusal :=
  match e with
  | .copy core plat => outcomeOf (s.copyRoom core plat)
  | .marshal cluster => outcomeOf (s.marshalRoom cluster)
  | .collective op rank => outcomeOf (s.collRoom op rank)
  | .cipher core => outcomeOf (s.cipherRoom core)

/-- An engine's counted writes have performed, and it advances its ring (R230). -/
def execRingAdvance (e : EngineId) (s : State) : Host.Outcome State Fault Refusal :=
  match e with
  | .copy core plat => outcomeOf (s.copyAdvance core plat)
  | .marshal cluster => outcomeOf (s.marshalAdvance cluster)
  | .collective op rank => outcomeOf (s.collAdvance op rank)
  | .cipher core => outcomeOf (s.cipherAdvance core)

end Sys2Proof.Machine
end

