-- ==== Sys2Proof/Machine/Fitting.lean ====
section
/-! DEFINITION. The fitting engine of a die: region entries (R266, R267), the ingress (R271, R510), training (R272 to R276), the
states of a region (R277), evaluation weights (R278, R280, R281), and AXQRY and AXINV (R283, R284, R371, R373). -/
namespace Sys2Proof.Machine

/-! ## Parameters (R272, R273) -/

/-- A value rounded to F32, as bits. -/
def toF32 (x : FVal) : F32 := BitVec.ofNat 32 (rneF32Bits x)
def ofF32 (b : F32) : FVal := f32Val b.toNat

/-- The least k with 4^k at least n: ceil(log2(n) / 2). -/
def halfLog (n : Nat) : Nat := ((List.range 16).find? (fun k => n ≤ 4 ^ k)).getD 16

/-- The weight of an output and an input of a layer at the start (R273); layers are counted from 0 here. -/
def denseStart (l nIn o i : Nat) : FVal :=
  let v : Int := (((37 * o + 11 * i + 5 * l) % 32 : Nat) : Int) * 2 - 31
  .fin (v < 0) v.natAbs (-(5 : Int) - (halfLog nIn : Int))

/-- The parameters of DENSE at the start, layer by layer: each output's bias and weights. -/
def denseInit (l : Nat) : List Nat → List FVal
  | a :: b :: t =>
    (List.range b).flatMap (fun o => .zero :: (List.range a).map (denseStart l a o)) ++ denseInit (l + 1) (b :: t)
  | _ => []

/-- The parameters of ELEM(h) at the start. -/
def elemInit (h : Nat) : List FVal :=
  [.zero, .zero] ++ (List.range (h - 1)).flatMap (fun i =>
    [FVal.fin (i % 2 = 1) 1 0, FVal.fin true (2 + i / 2) (-1), FVal.zero])

def RegionDesc.init (d : RegionDesc) : List FVal := if d.elem then elemInit d.width else denseInit 0 d.sizes

/-- Store space of an entry (R267). -/
def RegionDesc.storeBytes (d : RegionDesc) : Nat := if d.elem then 16384 else 16 * d.init.length + 320 * 768

/-! ## A training step (R275) -/

/-- max(t, +0). -/
def relu (t : FVal) : FVal := t.max .zero

def fmaR (a b z : FVal) : FVal := rneF32 ((a.mul b).add z)
def mulR (a b : FVal) : FVal := rneF32 (a.mul b)
def addR (a b : FVal) : FVal := rneF32 (a.add b)

/-- Hidden units of ELEM: w1, b1, w2 of each. -/
def elemUnits (p : List FVal) : List (FVal × FVal × FVal) :=
  (chunks p.length 3 (p.drop 2)).map (fun u => (u.getD 0 .zero, u.getD 1 .zero, u.getD 2 .zero))

/-- The gradient of one sample of ELEM, in the order of its parameters. -/
def elemGrad (p : List FVal) (x target : FVal) : List FVal :=
  let us := (elemUnits p).map (fun u => (u, fmaR u.1 x u.2.1))
  let y := us.foldl (fun y u => fmaR u.1.2.2 (relu u.2) y) (fmaR (p.getD 1 .zero) x (p.getD 0 .zero))
  let e := rneF32 ((rneF32 (y.sub target)).scale 1)
  [e, mulR e x] ++ us.flatMap (fun u =>
    let d := if FVal.zero.lt u.2 then mulR e u.1.2.2 else .zero
    [mulR d x, d, mulR e (relu u.2)])

/-- Rows of a layer of DENSE from its parameters: bias and weights of each output. -/
def layerRows (nIn nOut : Nat) (p : List FVal) : List (List FVal) := chunks nOut (nIn + 1) p

/-- One output before its ReLU, in ascending index from the bias. -/
def rowSum (row xs : List FVal) : FVal :=
  ((row.drop 1).zip xs).foldl (fun z q => fmaR q.1 q.2 z) (row.headD .zero)

/-- What flows back to input i of a layer. -/
def backSum (rows : List (List FVal)) (ds : List FVal) (i : Nat) : FVal :=
  (rows.zip ds).foldl (fun z q => fmaR (q.1.getD (i + 1) .zero) q.2 z) .zero

/-- The gradient of the layers from one on, and what flows back to its inputs. -/
def denseBack (target : List FVal) : List Nat → List FVal → List FVal → List FVal × List FVal
  | a :: b :: t, p, xs =>
    let n := b * (a + 1)
    let rows := layerRows a b (p.take n)
    let ts := rows.map (fun r => rowSum r xs)
    let last := t.isEmpty
    let ys := if last then ts else ts.map relu
    let (rest, back) := denseBack target (b :: t) (p.drop n) ys
    let ds := if last then back else (ts.zip back).map (fun q => if FVal.zero.lt q.1 then q.2 else .zero)
    (ds.flatMap (fun d => d :: xs.map (fun x => mulR d x)) ++ rest, (List.range a).map (backSum rows ds))
  | _, _, ys => ([], (ys.zip target).map (fun q => rneF32 ((rneF32 (q.1.sub q.2)).scale 1)))

def RegionDesc.grad (d : RegionDesc) (p : List FVal) (s : List F32 × List F32) : List FVal :=
  if d.elem then elemGrad p (ofF32 (s.1.headD 0)) (ofF32 (s.2.headD 0))
  else (denseBack (s.2.map ofF32) d.sizes p (s.1.map ofF32)).1

/-- round(x / n, F32): the quotient to 80 bits below with a sticky bit. -/
def divR (x : FVal) (n : Nat) : FVal :=
  match x with
  | .fin neg m e =>
    let q := m * 2 ^ 80 / n
    rneF32 (.fin neg (2 * q + if m * 2 ^ 80 % n = 0 then 0 else 1) (e - 81))
  | .inf neg => .inf neg
  | .nan => .nan

/-- β of R279. -/
def fitBeta (mom : Bool) : FVal := if mom then f32Val 0x3F666666 else .zero

/-- One parameter and its momentum after a step, from the sum of its gradients. -/
def fitUpdate (lr : FVal) (mom : Bool) (batch : Nat) (w u s : FVal) : FVal × FVal :=
  let u1 := fmaR (fitBeta mom) u (divR s batch)
  (fmaR lr.neg u1 w, u1)

/-- The pairs of a step, from the cursor on, modulo the pool's fill. -/
def FitRegion.batchPairs (r : FitRegion) : List (List F32 × List F32) :=
  (List.range r.batch).map (fun i => r.train.getD ((r.cursor + i) % r.train.length) ([], []))

/-- The parameters, momentum and cursor after a step. -/
def FitRegion.step (r : FitRegion) : FitRegion :=
  let p := r.weights.map ofF32
  let sums := r.batchPairs.foldl (fun s q => s.zipWith addR (r.desc.grad p q)) (p.map (fun _ => FVal.zero))
  let out := (p.zip ((r.momentum.map ofF32).zip sums)).map (fun q =>
    fitUpdate (ofF32 r.lr) r.mom r.batch q.1 q.2.1 q.2.2)
  { r with weights := out.map (fun q => toF32 q.1), momentum := out.map (fun q => toF32 q.2)
           cursor := (r.cursor + r.batch) % r.train.length }

/-! ## Evaluation weights and validation (R276, R278, R280) -/

/-- A value rounded to BF16, as F32 bits. -/
def toBf16 (x : FVal) : F32 := BitVec.ofNat 32 ((encodeFloat .bf16 .rne false x).1 * 65536)

/-- Zeros up to a length. -/
def padTo (n : Nat) (l : List F32) : List F32 := l ++ List.replicate (n - l.length) 0

/-- The buffer of ELEM for a box whose low end is lo. -/
def elemEval (p : List FVal) (lo : FVal) : List F32 :=
  let w0 := p.getD 1 .zero
  padTo 96 ([toBf16 ((p.getD 0 .zero).add (w0.mul lo)), toBf16 .one, toBf16 lo.neg, toBf16 w0] ++
    (elemUnits p).flatMap (fun u => [toBf16 u.1, toBf16 u.2.1, toBf16 u.2.2]))

/-- One block of 96 outputs of a layer: the biases, then the weights of each input, of an even number of inputs. -/
def blockEval (nIn : Nat) (rows : List (List FVal)) : List F32 :=
  (List.range (2 * ceilDiv nIn 2 + 1)).flatMap (fun i => padTo 96 (rows.map (fun r => toBf16 (r.getD i .zero))))

/-- The buffer of DENSE. -/
def denseEval : List Nat → List FVal → List F32
  | a :: b :: t, p =>
    let n := b * (a + 1)
    (chunks (ceilDiv b 96) 96 (layerRows a b (p.take n))).flatMap (blockEval a) ++ denseEval (b :: t) (p.drop n)
  | _, _ => []

/-- The evaluation weights of a region for its box so far. -/
def FitRegion.evalNow (r : FitRegion) : List F32 :=
  let p := r.weights.map ofF32
  if r.desc.elem then elemEval p (((r.box.headD none).map (fun b => ofF32 b.1)).getD .zero) else denseEval r.desc.sizes p

/-- The surrogate on one pair's inputs, with the routine's arithmetic and its output format (R184, R280). -/
def RegionDesc.surrogate (d : RegionDesc) (eval xs : List F32) : List FVal :=
  let ins := xs.map BitVec.toNat
  let ys := if d.elem then elemRun (vecOf 32 (eval.map BitVec.toNat)) d.width ins
    else (denseRun (fun i => (eval.getD i 0).toNat) 0 d.sizes ins).map (fun y => (convertElem .f32 .bf16 .rne false y).1 * 65536)
  ys.map f32Val

/-- |surrogate − target| of every output of a pair. -/
def RegionDesc.errors (d : RegionDesc) (eval : List F32) (q : List F32 × List F32) : List FVal :=
  ((d.surrogate eval q.1).zip q.2).map (fun p => (p.1.sub (ofF32 p.2)).abs)

/-- A validation passes: the box is not empty and every error is below τ (R274, R276). -/
def FitRegion.passesNow (r : FitRegion) : Bool :=
  r.box.all Option.isSome && r.held.all (fun q => (r.desc.errors r.evalNow q).all (fun e => e.lt (f32Val r.desc.thr)))

/-- A sampled pair fails: an error above τ, or NaN (R277). -/
def FitRegion.sampleFails (r : FitRegion) (q : List F32 × List F32) : Bool :=
  (r.desc.errors r.eval q).any (fun e => !e.le (f32Val r.desc.thr))

/-! ## States (R277) -/

def FitRegion.invalidate (r : FitRegion) (cause : Nat) : FitRegion :=
  if r.state = 5 then r else { r with state := 5, cause := cause }

/-- The key that seals an entry's weights, momentum and pairs: HKDF-SHA-256 from the world key and the image hash (R282). -/
def State.fitKey (s : State) (world : Nat) (hash : BitVec 256) : List Byte :=
  hkdf (toBytes 32 (SMap.get 0#256 s.keys.keys world).toNat) (toBytes 32 hash.toNat) []

/-- A read of the entry's store: its tag verifies under the key of its world and image (R282). -/
def State.opens (s : State) (r : FitRegion) : Bool := !r.spoilt && r.sealKey == s.fitKey r.world r.hash

/-- An entry of a die as it is after a step. -/
def Die.put (d : Die) (key : Nat) (r : FitRegion) : Die := { d with regions := SMap.put d.regions key r }

/-- FALLBACK, or INVALID at the fourth. -/
def FitRegion.fallback (r : FitRegion) : FitRegion :=
  let r1 := { r with fallbacks := r.fallbacks + 1, passes := 0, failed := false }
  if 4 ≤ r1.fallbacks then r1.invalidate 1 else { r1 with state := 4 }

/-- Entry to SUBST: the box is latched and the evaluation weights have a new version. -/
def FitRegion.subst (r : FitRegion) (serial : Nat) : FitRegion :=
  { r with state := 3, passes := 0, latched := r.box.filterMap (fun b => b), version := r.version + 1, serial := serial,
           eval := r.evalNow }

/-- A training step with its validation (R275, R276); the die counts entries to SUBST. A tag that fails makes the region INVALID
(R282). -/
def execTrainingStep (die region : Nat) (s : State) : Host.Outcome State Fault Refusal :=
  let d := s.die die
  match SMap.find d.regions region with
  | none => .refused .notEnabled
  | some r =>
    if !d.ingress.isEmpty || !d.delivering.isEmpty || (r.state != 2 && r.state != 4) || r.train.isEmpty then
      .refused .notEnabled
    else
      let r1 := r.step
      .next (s.setDie die (
        if !s.opens r then d.put region (r.invalidate 4)
        else if !r1.passesNow then d.put region { r1 with passes := 0 }
        else if r1.passes = 0 then d.put region { r1 with passes := 1 }
        else { d.put region (r1.subst (d.serial + 1)) with serial := d.serial + 1 }))

/-! ## Allocation (R266, R267) -/

/-- Room for one more entry in the table and the store. -/
def Die.hasRoom (d : Die) (r : RegionDesc) : Bool :=
  d.regions.length < 1024 &&
    (d.regions.map (fun p => p.2.desc.storeBytes)).foldl (· + ·) 0 + r.storeBytes ≤ 2 ^ 26

/-- A new entry, which latches LR, BATCH and MOM of AXCFG: allocation number `born`, sealed under `key`. -/
def newRegion (q : FitRequest) (cfg : Word) (key : List Byte) (born : Nat) (d : RegionDesc) : FitRegion :=
  let b := (cfg.extractLsb' 18 7).toNat
  { world := q.world, id := q.id, hash := q.hash, state := 1, lr := cfg.extractLsb' 32 32,
    batch := if b = 0 then 32 else b, mom := cfg.getLsbD 17, desc := d, weights := d.init.map toF32,
    momentum := d.init.map (fun _ => 0), train := [], held := [],
    box := List.replicate (if d.elem then 1 else d.sizes.headD 0) none, latched := [], cursor := 0, accepted := 0,
    passes := 0, failed := false, drops := 0, fallbacks := 0, cause := 0, version := 0, serial := 0, eval := [], born := born,
    sealKey := key, spoilt := false }

/-- What an AXENTER or a surrogate's NaN does at the engine; `cfg` is the context's AXCFG. -/
def Die.request (d : Die) (cfg : Word) (key : List Byte) (q : FitRequest) : Die :=
  let at_ := regionKey q.world q.id
  match SMap.find d.regions at_ with
  | some r =>
    let r1 := if r.hash != q.hash then r.invalidate 2 else if q.kind = 1 then r.invalidate 3 else r
    { d with regions := SMap.put d.regions at_ r1 }
  | none =>
    match (if q.kind = 0 then q.desc else none) with
    | none => d
    | some desc =>
      if d.hasRoom desc then
        { d with
          regions := SMap.put d.regions at_ (newRegion q cfg key (d.allocs + 1) desc)
          noroom := eraseNat d.noroom at_, allocs := d.allocs + 1 }
      else { d with noroom := insertNat d.noroom at_ }

/-- The AXCFG of a request's context as it is now or, once the context has gone, as it was at the request (R267). -/
def State.requestCfg (s : State) (q : FitRequest) : Word :=
  let c := s.ctx q.core q.plat
  if c.state != .empty && c.ctxid = q.ctxid then c.creg 0x080 else q.cfg

/-- The request of a number among those on their way reaches the engine. -/
def execRegionAllocate (die n : Nat) (s : State) : Host.Outcome State Fault Refusal :=
  let d := s.die die
  match d.requests[n]? with
  | none => .refused .notEnabled
  | some q => .next (s.setDie die ({ d with requests := d.requests.eraseIdx n }.request (s.requestCfg q)
      (s.fitKey q.world q.hash) q))

/-! ## The ingress and the acceptance of pairs (R271, R274, R510) -/

/-- The pairs of an instance, in lane order. -/
def FitPair.samples (p : FitPair) (d : RegionDesc) : List FitSample :=
  let mk (x t : List Nat) : FitSample :=
    ⟨p.world, p.id, x.map (BitVec.ofNat 32), t.map (BitVec.ofNat 32), p.sampled⟩
  if p.elem then ((lanes 96 32 p.input.toNat).zip (lanes 96 32 p.output.toNat)).map (fun q => mk [q.1] [q.2])
  else [mk (bf16Lanes (d.sizes.headD 0) p.input) (bf16Lanes (d.sizes.getLastD 0) p.output)]

/-- The samples that an instance delivers in this cycle; none where its entry has gone. -/
def Die.samplesNow (d : Die) (p : FitPair) : List FitSample :=
  match SMap.find d.regions (regionKey p.world p.id) with
  | some r => ((p.samples r.desc).drop p.sent).take 8
  | none => []

/-- The instances that deliver in a cycle: of each context the first, so that its pairs are never dropped (R510). -/
def dueNow (now : Nat) : List FitPair → List FitPair
  | [] => []
  | p :: ps => (if p.since + p.sent / 8 ≤ now then [p] else []) ++
      (dueNow now ps).filter (fun o => o.core != p.core || o.plat != p.plat)

/-- A pair that finds the ingress full is dropped and counted (R271). -/
def Die.enter (d : Die) (q : FitSample) : Die :=
  if d.ingress.length < 64 then { d with ingress := d.ingress ++ [q] }
  else
    let key := regionKey q.world q.id
    match SMap.find d.regions key with
    | some r => { d with regions := SMap.put d.regions key { r with drops := r.drops + 1 } }
    | none => d

/-- One cycle of delivery. -/
def Die.deliver (d : Die) (now : Nat) : Die :=
  let ps := dueNow now d.delivering
  let d1 := ps.foldl (fun e p => (d.samplesNow p).foldl Die.enter e) d
  { d1 with delivering := d.delivering.filterMap (fun p =>
      if !ps.contains p then some p
      else if p.elem && p.sent + 8 < 96 then some { p with sent := p.sent + 8 } else none) }

/-- A pair is put into a ring of a capacity, as number n of its pairs. -/
def ringPut (l : List (List F32 × List F32)) (cap n : Nat) (q : List F32 × List F32) : List (List F32 × List F32) :=
  if l.length < cap then l ++ [q] else l.set (n % cap) q

/-- The box after an input. -/
def widen (b : Option (F32 × F32)) (x : F32) : Option (F32 × F32) :=
  if (ofF32 x).isNan then b
  else match b with
    | none => some (x, x)
    | some (lo, hi) => some (if (ofF32 x).lt (ofF32 lo) then x else lo, if (ofF32 hi).lt (ofF32 x) then x else hi)

/-- A pair is accepted; `opens` says whether the tag of its store verifies (R274, R277, R282). -/
def FitRegion.accept (r : FitRegion) (opens : Bool) (q : FitSample) : FitRegion :=
  if r.state = 5 then r
  else
    let pair := (q.input, q.target)
    let n := r.accepted
    let r1 := if n % 8 = 7 then { r with accepted := n + 1, held := ringPut r.held 64 (n / 8) pair }
      else { r with accepted := n + 1, train := ringPut r.train 256 (n - n / 8) pair,
                    box := (r.box.zip q.input).map (fun p => widen p.1 p.2) }
    let r2 := if r1.state = 1 && 256 ≤ r1.accepted then { r1 with state := 2 } else r1
    if q.sampled && r2.state = 3 && !opens then r2.invalidate 4
    else if q.sampled && r2.state = 3 && r2.sampleFails pair then { r2 with failed := true }
    else r2

/-- The engine accepts one pair. -/
def Die.acceptOne (opens : FitRegion → Bool) (d : Die) (q : FitSample) : Die :=
  let key := regionKey q.world q.id
  match SMap.find d.regions key with
  | some r => { d with regions := SMap.put d.regions key (r.accept (opens r) q) }
  | none => d

/-- A sampled instance of the entry is still to be compared in part. -/
def Die.comparing (d : Die) (key : Nat) : Bool :=
  d.ingress.any (fun q => q.sampled && regionKey q.world q.id = key) ||
    d.delivering.any (fun p => p.sampled && regionKey p.world p.id = key)

/-- The verdict over a sampled instance, once its pairs have been accepted or dropped (R277, R514). -/
def Die.judge (d : Die) : Die :=
  { d with regions := d.regions.map (fun p => (p.1,
      if p.2.failed && p.2.state = 3 && !d.comparing p.1 then p.2.fallback else p.2)) }

/-- Requests on their way for the entries that instances deliver to in a cycle: they reach the engine first (R267, R510). -/
def Die.awaitedRequests (d : Die) (now : Nat) : List Nat :=
  let keys := (dueNow now d.delivering).map (fun p => regionKey p.world p.id)
  (List.range d.requests.length).filter (fun n => (d.requests[n]?).any (fun q => keys.contains (regionKey q.world q.id)))

/-- One cycle of the ingress: pairs arrive, and up to 8 are accepted (R510). -/
def execPairAccept (die : Nat) (s : State) : Host.Outcome State Fault Refusal :=
  let d := s.die die
  if s.now < d.paired || !(d.awaitedRequests s.now).isEmpty || (d.ingress.isEmpty && (dueNow s.now d.delivering).isEmpty) then
    .refused .notEnabled
  else
    let d1 := d.deliver s.now
    let d2 := (d1.ingress.take 8).foldl (Die.acceptOne s.opens) { d1 with ingress := d1.ingress.drop 8 }
    .next (s.setDie die { d2.judge with paired := s.now + 1 })

/-! ## Evaluation weights and pushes (R281, R283) -/

/-- The entry that a context's region names. -/
def State.regionOf (s : State) (core plat id : Nat) : Option FitRegion :=
  SMap.find (s.die (dieOf core)).regions (regionKey (s.ctx core plat).world id)

/-- The latest version is complete in a buffer of the context. -/
def RegionLocal.complete (l : RegionLocal) (r : FitRegion) : Bool := l.ver0 = r.serial || l.ver1 = r.serial

/-- A context's view of an entry that it meets: the buffers of an earlier allocation count no more, and buffer 0 is active
(R510). -/
def RegionLocal.meet (l : RegionLocal) (r : FitRegion) : RegionLocal :=
  if l.born = some r.born then l
  else if l.born = none then { l with born := some r.born }
  else { l with born := some r.born, state := 0, ver0 := 0, ver1 := 0, active := 0 }

/-- The view after the latest entry to SUBST is known: its box, and a counter that starts at zero (R277). -/
def RegionLocal.enter (l : RegionLocal) (r : FitRegion) : RegionLocal :=
  { l with
    epoch := r.serial, counter := if l.epoch = r.serial then l.counter else 0
    box := r.latched.map (fun b => (b.1.toNat, b.2.toNat)) }

/-- The copy of the state as the engine gives it. -/
def RegionLocal.told (l : RegionLocal) (r : Option FitRegion) (st : Nat) : RegionLocal :=
  match r with
  | some r => if st = 3 then { (l.meet r).enter r with state := st } else { l.meet r with state := st }
  | none => { l with state := st }

/-- An AXINV of a region that the context has issued waits for the engine: until then its copy stays EMPTY (R284, R371). -/
def Ctx.axinvWaits (c : Ctx) (region : Nat) : Bool := c.cmds.any (·.cmd == .axinv region)

/-- The engine writes the evaluation weights into a context's inactive buffer, and the version is complete (R281). -/
def execEvalWeightsComplete (core plat region : Nat) (s : State) : Host.Outcome State Fault Refusal :=
  let c := s.ctx core plat
  match s.regionOf core plat region, c.desc region, s.issuer core plat c.ctxid with
  | some r, some d, some _ =>
    let l := (c.region region).meet r
    let buf := 1 - l.active
    let off := c.swBase + c.bufOff d buf
    if r.state != 3 || r.desc != d || !c.fits d || l.complete r ||
        (linePoints off d.bufBytes).any (fun a => s.claimedPlace (s1Place core a)) then .refused .notEnabled
    else if !s.opens r then
      .next (s.setDie (dieOf core) ((s.die (dieOf core)).put (regionKey c.world region) (r.invalidate 4)))
    else
      let s1 := s.store (s1Place core off) (r.eval.flatMap (fun w => toBytes 4 w.toNat))
      let l1 := if buf = 0 then { l with ver0 := r.serial } else { l with ver1 := r.serial }
      .next (s1.setCtx core plat ((s1.ctx core plat).setRegion region (l1.enter r)))
  | _, _, _ => .refused .notEnabled

/-- The state of a region as the engine gives it to a context: SUBST only with a version complete, or without a window. -/
def State.givenState (s : State) (core plat id : Nat) : Option Nat :=
  let c := s.ctx core plat
  match s.regionOf core plat id with
  | none => some 0
  | some r =>
    let ready := ((c.region id).meet r).complete r || !((c.desc id).map c.fits).getD false || r.desc != (c.desc id).getD r.desc
    if r.state = 3 && !ready then none else some r.state

/-- The engine pushes a transition to a context's copy (R283). -/
def execStatePush (core plat region : Nat) (s : State) : Host.Outcome State Fault Refusal :=
  let c := s.ctx core plat
  match s.givenState core plat region, s.issuer core plat c.ctxid with
  | some st, some _ =>
    let l := c.region region
    let l1 := l.told (s.regionOf core plat region) st
    if l1 = l || (c.desc region).isNone || c.axinvWaits region then .refused .notEnabled
    else .next (s.setCtx core plat (c.setRegion region l1))
  | _, _ => .refused .notEnabled

/-! ## AXQRY and AXINV (R283, R371, R373) -/

/-- The status word of R283. -/
def State.regionStatus (s : State) (core plat id : Nat) : Nat :=
  let c := s.ctx core plat
  match s.regionOf core plat id with
  | none => if (s.die (dieOf core)).noroom.contains (regionKey c.world id) then 128 else 0
  | some r =>
    let nowin := !((c.desc id).map c.fits).getD true
    r.version % 65536 * 2 ^ 48 + min r.accepted 65535 * 2 ^ 32 + min r.drops 65535 * 65536 + r.cause * 512 +
      nowin.toNat * 256 + r.fallbacks * 8 + r.state

/-- The engine answers the AXQRY of a number at the head of a platform's queue (R373, R510). -/
def execAxqryReply (core plat id : Nat) (s : State) : Host.Outcome State Fault Refusal :=
  match s.headCmd core plat, s.issuer core plat (s.ctx core plat).ctxid with
  | some ⟨n, _, .axqry region xd⟩, some _ =>
    match (if n = id then s.givenState core plat region else none) with
    | none => .refused .notEnabled
    | some st =>
      let v := s.regionStatus core plat region
      let s1 := s.popCmd core plat
      let c := s1.ctx core plat
      let c1 := if c.axinvWaits region then c else c.setRegion region ((c.region region).told (s.regionOf core plat region) st)
      .next (s1.setCtx core plat (c1.arrive (.x xd (BitVec.ofNat 64 v)) none))
  | _, _ => .refused .notEnabled

/-- The engine accepts an AXINV once the context's earlier AXENTERs of the region have reached it (R371, R514): the entry is
discarded; a key with no entry is left as it is. -/
def execAxinvAccept (core plat : Nat) (s : State) : Host.Outcome State Fault Refusal :=
  match s.headCmd core plat, s.issuer core plat (s.ctx core plat).ctxid with
  | some ⟨_, _, .axinv id⟩, some c =>
    let key := regionKey c.world id
    let s1 := s.popCmd core plat
    let d := s1.die (dieOf core)
    if d.requests.any (fun q => q.core = core && q.plat = plat && regionKey q.world q.id = key) then .refused .notEnabled
    else .next (s1.setDie (dieOf core) { d with regions := SMap.del d.regions key })
  | _, _ => .refused .notEnabled

end Sys2Proof.Machine
end

