-- ==== Sys2Proof/Machine/Gangs.lean ====
section
/-! DEFINITION. Gangs: placement maps and their checks (R42, R43), admission (R46), loading (R44, R47, R48, R120, R158, R178,
R203), release, and the end of contexts and launches (R49, R50, R62, R348, R391, R495). -/
namespace Sys2Proof.Machine

/-! ## Placement maps (R42, R43) -/

/-- A placement-map entry as its 128 bytes hold it; `bad` gathers the fields out of range and the zero fields that are not
zero. -/
def readPlacement (bs : List Byte) : Placement :=
  let w (off n : Nat) : Nat := ofBytes ((bs.drop off).take n)
  let word (off : Nat) : Word := BitVec.ofNat 64 (w off 8)
  let pl := w 2 1
  let win (off hi top : Nat) : Bool :=
    w off 8 / 2 ^ hi != 0 || w off 8 / 2 ^ 16 % 2 ^ 16 != 0 || top < w off 8 / 2 ^ 32 % 2 ^ 16
  { core := w 0 2, plat := pl % 4, prio := pl / 4 % 4, split := pl.testBit 4, share := w 3 1, ibase := w 4 2, ilen := w 6 2,
    entry := w 8 2, barmask := BitVec.ofNat 32 (w 0xC 4), bwin := word 0x10, s2win := word 0x18, s3win := word 0x20,
    ringmask := word 0x28, csimg := w 0x30 8, cslen := w 0x38 2, nbind := w 0x3A 2, rank := w 0x3C 4, bindtab := w 0x40 8,
    sptab := w 0x48 8, frec := w 0x50 8, accsave := w 0x58 8, sparea := word 0x60, splim := word 0x68, xlat := w 0x70 8,
    bad := 383 < w 0 2 || pl / 32 != 0 || 8191 < w 4 2 || w 6 2 = 0 || 8192 < w 6 2 || w 0xA 2 != 0 ||
      win 0x18 48 2560 || win 0x20 52 28672 || 3072 < w 0x38 2 || 192 < w 0x3A 2 ||
      word 0x60 &&& ~~~0x7FFFF8#64 != 0 || word 0x68 &&& ~~~0x7FFFF8#64 != 0 || w 0x78 8 != 0 }

/-- The half-cluster of a core (R23). -/
def halfClusterOf (core : Nat) : Nat := core / 8

/-- The partition holds a core's half-cluster (R328, R329). -/
def Partition.ownsCore (q : Partition) (core : Nat) : Bool := q.phc.getLsbD (halfClusterOf core) && core < 384

/-- The partition holds units [lo, hi) of a cluster's S2 (R328). -/
def Partition.ownsS2 (q : Partition) (cluster lo hi : Nat) : Bool :=
  hi ≤ lo || ((1280 ≤ lo || q.phc.getLsbD (2 * cluster)) && (hi ≤ 1280 || q.phc.getLsbD (2 * cluster + 1)))

/-- The valid S3 ranges of a partition: die, first unit, end (R329). -/
def Partition.s3Ranges (q : Partition) : List (Nat × Nat × Nat) :=
  q.ps3r.filterMap (fun p =>
    if p.2.getLsbD 63 then
      some ((p.2.extractLsb' 48 2).toNat, (p.2.extractLsb' 0 16).toNat, (p.2.extractLsb' 32 16).toNat)
    else none)

/-- The partition holds units [lo, hi) of a die's S3. -/
def Partition.ownsS3 (q : Partition) (die lo hi : Nat) : Bool :=
  (List.range (hi - lo)).all (fun i => q.s3Ranges.any (fun r => r.1 = die && r.2.1 ≤ lo + i && lo + i < r.2.2))

/-- BASE and LIMIT of a window register (R190). -/
def winBase (w : Word) : Nat := (w.extractLsb' 0 16).toNat
def winLimit (w : Word) : Nat := (w.extractLsb' 32 16).toNat

/-- Bytes [a, a + n) lie wholly in own-S1 banks of a BWIN. -/
def inBanks (bwin : Word) (a n : Nat) : Bool :=
  a + n ≤ 0x800000 && (n = 0 || (List.range ((a + n - 1) / 0x20000 - a / 0x20000 + 1)).all (fun i =>
    bwin.getLsbD (a / 0x20000 + i)))

/-! ## Tables in HBM (R42, R157, R178, R317) -/

/-- The context with the window entries that a run of virtual addresses goes through, composed (R202). -/
def State.withPages (s : State) (c : Ctx) (addr n : Nat) : Ctx :=
  { c with window := ((linePoints addr n).map windowIndex).foldl (fun w i => match s.compose c i (2 ^ 44 + i * 2 ^ 21) with
      | .entry e => SMap.put w i e
      | .invalid | .hv .. => w) [] }

/-- The shunter reads n bytes at an HBM virtual address of a context, through its translation (R42, R205); none where they
cannot be read. -/
def State.readHbm (s : State) (core : Nat) (c : Ctx) (addr n : Nat) : Option (List Byte) :=
  let c1 := s.withPages c addr n
  if n = 0 then some []
  else if (linePoints addr n).all (fun a => isVirt core a && !pageBad core c1 a && !protBad core c1 true false false a &&
      !badFrame core c1 a) then
    match (readRun s core c1 (runLines addr n)).2 with
    | .ok bs => some bs
    | .error _ => none
  else none

/-- The NBIND entries of the binding table (R157). -/
def State.bindTable (s : State) (core : Nat) (c : Ctx) : Option (List (BitVec 128)) :=
  (s.readHbm core c c.place.bindtab (16 * c.place.nbind)).map (fun bs =>
    (chunks c.place.nbind 16 bs).map (fun b => BitVec.ofNat 128 (ofBytes b)))

/-- A range of registers of a safe-point entry: first and last. -/
def readRange (b : List Byte) : Nat × Nat := (ofBytes (b.take 2) % 2048, ofBytes ((b.drop 2).take 2) % 2048)

/-- An entry of a safe-point table: its 24 bytes, and the ranges after them (R317). -/
def readPoint (h t : List Byte) : SafePoint :=
  let w (off n : Nat) : Nat := ofBytes ((h.drop off).take n)
  let nv := w 2 1
  let nm := w 3 1
  let ns := w 4 1
  { index := w 0 2 % 8192, xmask := BitVec.ofNat 64 (w 8 8), amask := BitVec.ofNat 32 (w 0x10 4),
    pmask := BitVec.ofNat 16 (w 0x14 2), v := (chunks nv 4 t).map readRange,
    m := (chunks nm 4 (t.drop (4 * nv))).map (fun b => ((readRange b).1 % 256, (readRange b).2 % 256)),
    s1 := (chunks ns 8 (t.drop (4 * nv + 4 * nm))).map (fun b => (ofBytes (b.take 4) % 2 ^ 23, ofBytes (b.drop 4) % 2 ^ 23)) }

/-- n entries of a safe-point table, from an address on (R317). -/
def State.readPoints (s : State) (core : Nat) (c : Ctx) : Nat → Nat → Option (List SafePoint)
  | 0, _ => some []
  | n + 1, addr =>
    (s.readHbm core c addr 24).bind (fun h =>
      let len := 4 * (h.getD 2 0).toNat + 4 * (h.getD 3 0).toNat + 8 * (h.getD 4 0).toNat
      (s.readHbm core c (addr + 24) len).bind (fun t =>
        (s.readPoints core c n (addr + 24 + len)).map (readPoint h t :: ·)))

/-- SP bundles of an instruction image: each has an entry in the safe-point table. -/
def spCount (instrs : List BundleBits) : Nat := (instrs.filter (fun b => b.getLsbD 0)).length

/-- A bundle holds a T-slot instruction. -/
def holdsTile (b : BundleBits) : Bool := (readBundle b).bundle.slots.any (fun p => p.1 == .t)

/-- A binding may drive rows of the tile array. -/
def bindHalf (b : BitVec 128) : Bool := b.extractLsb' 52 2 != 0#2

/-- The context drives the tile array: a T-slot instruction or a binding with HALF ≠ 0 (R43). -/
def State.drivesTiles (s : State) (part : Nat) (e : Placement) (ci : CtxImage) : Bool :=
  ci.instrs.any holdsTile ||
    ((s.bindTable e.core { Ctx.empty with place := e, part := part }).getD []).any bindHalf

/-- Which entries of a placement map drive the tile array. -/
def State.entryTiles (s : State) (part : Nat) (img : Image) (es : List Placement) (i : Nat) : Bool :=
  match es[i]?, img.ctxs[i]? with
  | some e, some ci => s.drivesTiles part e ci
  | _, _ => false

/-! ## The checks of a map (R43) -/

/-- A scratch byte that an entry of a core names belongs to the partition (R328). -/
def Partition.ownsByte (q : Partition) (core addr : Nat) : Bool :=
  match locate core addr with
  | .own _ => q.ownsCore core
  | .peer k _ => q.ownsCore k
  | .s2 off => q.ownsS2 (clusterOf core) (off / 65536) (off / 65536 + 1)
  | .s3 d off => q.ownsS3 d (off / 65536) (off / 65536 + 1)
  | .virt _ | .nowhere => false

/-- Status 6: a window or an area of an entry lies outside the partition's resources or its own banks. -/
def areaBad (q : Partition) (e : Placement) (tiles : Bool) : Bool :=
  let sp := e.sparea.toNat
  let lim := e.splim.toNat
  !q.ownsCore e.core || !q.ownsS2 (clusterOf e.core) (winBase e.s2win) (winLimit e.s2win) ||
    (List.range 4).any (fun d => e.s3win.getLsbD (48 + d) && !q.ownsS3 d (winBase e.s3win) (winLimit e.s3win)) ||
    !q.ownsByte e.core e.accsave || e.frec % 64 != 0 || !inBanks e.bwin e.frec 2048 || lim < sp || !inBanks e.bwin sp (lim - sp) ||
    (tiles && (e.accsave % 64 != 0 || !inBanks e.bwin e.accsave 147456 ||
      arraysOverlap (e.accsave, 147456) (e.frec, 2048) || arraysOverlap (e.accsave, 147456) (sp, lim - sp)))

/-- Entries that take part in a condition on pairs. -/
def pairsIn (es : List Placement) (bad : Placement → Placement → Bool) (i : Nat) (e : Placement) : Bool :=
  es.zipIdx.any (fun p => p.2 != i && bad e p.1)

def rangesMeet (a b : Placement) : Bool := a.ibase < b.ibase + b.ilen && b.ibase < a.ibase + a.ilen

/-- An entry takes part in a condition of R43, by its status. -/
def entryBad (q : Partition) (es : List Placement) (tiles : Nat → Bool) (st i : Nat) (e : Placement) : Bool :=
  match st with
  | 1 => e.bad
  | 2 => pairsIn es (fun a b => a.core = b.core && a.plat = b.plat && (a.share = 0 || a.share != b.share)) i e
  | 3 => 8192 < e.ibase + e.ilen || e.ilen ≤ e.entry || pairsIn es (fun a b => a.core = b.core && rangesMeet a b) i e
  | 4 => pairsIn es (fun a b => a.core = b.core && (a.bwin &&& b.bwin != 0 || a.ringmask &&& b.ringmask != 0)) i e
  | 5 => pairsIn es (fun a b => a.core = b.core && a.split != b.split) i e
  | 6 => areaBad q e (tiles i)
  | 7 => (List.range 32).any (fun b => e.barmask.getLsbD b &&
      !es.zipIdx.any (fun p => p.2 != i && clusterOf p.1.core = clusterOf e.core && p.1.barmask.getLsbD b))
  | _ => false

/-- core-plat of an entry (R336). -/
def Placement.corePlat (e : Placement) : Nat := e.core * 4 + e.plat

/-- The lowest status of R43 that holds, with its DETAIL. -/
def launchRefusal (q : Partition) (es : List Placement) (tiles : Nat → Bool) : Option (Nat × Nat) :=
  [1, 2, 3, 4, 5, 6, 7].findSome? (fun st =>
    (es.zipIdx.find? (fun p => entryBad q es tiles st p.2 p.1)).map (fun p => (st, p.1.corePlat)))

/-! ## Launches -/

def State.findLaunch (s : State) (id : Nat) : Option Launch := s.launches.find? (·.id = id)
def State.putLaunch (s : State) (l : Launch) : State :=
  { s with launches := s.launches.map (fun m => if m.id = l.id then l else m) }

/-- The image of a launch, and the content of its entry i. -/
def State.findImage (s : State) (addr : Nat) : Option Image := s.images.find? (·.addr = addr)
def Launch.content (l : Launch) (img : Image) (i : Nat) : Option CtxImage := (img.ctxs[i]?).bind (fun c =>
  if i < l.entries.length then some c else none)

/-- Core and platform of a launch's entries, each once. -/
def Launch.places (l : Launch) : List (Nat × Nat) :=
  l.entries.foldl (fun ps e => if ps.contains (e.core, e.plat) then ps else ps ++ [(e.core, e.plat)]) []

/-- The packet of a launch holds its queue back no longer (R46). -/
def State.letOn (s : State) (key : Nat) : State :=
  match SMap.find s.queues key with
  | some q => { s with queues := SMap.put s.queues key { q with waiting := false } }
  | none => s

/-- A launch is over, with the status of its packet. -/
def State.endLaunch (s : State) (l : Launch) (status detail : Nat) : State :=
  { s with launches := s.launches.filter (·.id != l.id) }.completePacket l.queue l.packet status 0 detail

/-! ## Zeroing (R50, R348) -/

/-- Drop every byte of a range of places, the form and poison bits of its lines and the errors of its words, which are written
whole (R209). -/
def State.zeroPlaces (s : State) (lo hi : Nat) : State :=
  { s with
    mem := s.mem.filter (fun c => c.1 < lo || hi ≤ c.1)
    form := s.form.filter (fun l => l < lo / 64 || hi / 64 ≤ l)
    poisoned := s.poisoned.filter (fun l => l < lo / 64 || hi / 64 ≤ l)
    uncorrectable := s.uncorrectable.filter (fun w => w < lo / 8 || hi / 8 ≤ w) }

/-- Zero the banks of a mask that no context of the core holds (R348). -/
def State.zeroBanks (s : State) (core : Nat) (bwin : Word) : State :=
  (List.range 64).foldl (fun s b =>
    if bwin.getLsbD b && !(s.core core).all.any (fun c => c.state != .empty && (c.creg 0x020).getLsbD b) then
      s.zeroPlaces (s1Place core (b * 0x20000)) (s1Place core ((b + 1) * 0x20000))
    else s) s

/-- A core with four EMPTY platforms is drained: it belongs to no world, its split is undone, and the counters of its halves
are reset (R50, R68, R253). -/
def State.drainCore (s : State) (core : Nat) : State :=
  let k := s.core core
  let reset (h : Half) : Half := { h with cycles := 0, matTill := 0, products := 0 }
  if k.plats.all (fun p => p.2.state == .empty) then
    s.setCore core { k with world := none, split := false, half0 := reset k.half0, half1 := reset k.half1 }
  else s

/-- Zero the rows that a platform owns (R252). -/
def State.dropRows (s : State) (core plat : Nat) : State :=
  let k := s.core core
  (List.range 2).foldl (fun s h => if (k.half h).owner = some plat then s.zeroHalf core h else s) s

/-- The platform is zeroed and EMPTY, its banks with it where no other context of the core holds them (R348). -/
def State.clearPlatform (s : State) (core plat : Nat) : State :=
  let k := s.core core
  let c := k.ctx plat
  let s1 := s.setCore core { k with
    plats := SMap.del k.plats plat, running := if k.running = some plat then none else k.running }
  s1.zeroBanks core (c.creg 0x020)

/-- A held member that a rotation may bring back, held longest (R61). -/
def Core.nextHeld (k : Core) (plat : Nat) : Option Held :=
  (k.held.filter (fun h => h.plat = plat && !h.passedOver)).foldl (fun b h => match b with
    | none => some h
    | some m => if h.since < m.since then some h else some m) none

/-- An emptied platform of a time-share group waits for its next member (R61, R495); without one, the core may be drained. -/
def State.bringNext (s : State) (core plat : Nat) : State :=
  (if ((s.core core).nextHeld plat).isSome then s.setCtx core plat { Ctx.empty with state := .loading } else s).drainCore core

/-! ## Admission (R46, R50, R68) -/

/-- A launch may be admitted. Members of a group that a failed rotation passed over keep their platform EMPTY (R61); R46 does not
say whether a launch may take it: here it waits, for they are still on their way back (log entry 91). -/
def State.admissible (s : State) (l : Launch) (img : Image) : Bool :=
  let q := s.partition l.part
  l.entries.zipIdx.all (fun p =>
    let k := s.core p.1.core
    (k.ctx p.1.plat).state == .empty && !k.held.any (·.plat = p.1.plat) &&
      (k.world = none || k.world = some img.world) && !areaBad q p.1 (s.entryTiles l.part img l.entries p.2))

/-- A waiting launch is admitted. -/
def execLaunchAdmit (id : Nat) (s : State) : Host.Outcome State Fault Refusal :=
  match s.findLaunch id with
  | some l =>
    match (if l.phase = 0 then s.findImage l.image else none) with
    | some img =>
      if !s.admissible l img then .refused .notEnabled
      else
        let q := s.partition l.part
        let s1 := s.setPartition l.part { q with
          launches := q.launches + 1, worlds := img.world :: q.worlds.filter (· != img.world) }
        let s2 := (s1.putLaunch { l with phase := 1, number := q.launches + 1 }).letOn l.queue
        .next (l.entries.foldl (fun s e =>
          let s1 := s.setCtx e.core e.plat { Ctx.empty with state := .loading, part := l.part, gang := l.id, world := img.world }
          let k := s1.core e.core
          s1.setCore e.core { k with world := some img.world, split := if k.world = none then e.split else k.split }) s2)
    | none => .refused .notEnabled
  | none => .refused .notEnabled

/-! ## Loading (R44, R47, R48, R120, R158, R178, R203) -/

/-- A binding-table entry (R157). -/
def readBinding (b : BitVec 128) : Binding :=
  { cls := (b.extractLsb' 8 2).toNat, code := (b.extractLsb' 0 8).toNat, start := (b.extractLsb' 16 13).toNat,
    bound := (b.extractLsb' 32 13).toNat, groups := (b.extractLsb' 48 4).toNat, half := (b.extractLsb' 52 2).toNat,
    hbm := b.getLsbD 54, rand := b.getLsbD 55 }

/-- The binding is in force. -/
def bindValid (b : BitVec 128) : Bool := b.getLsbD 10

/-- A check of one binding-table entry fails (R158). -/
def bindingBad (e : Placement) (b : BitVec 128) : Bool :=
  let d := readBinding b
  let half := if e.split then d.half = 0 || d.half = e.plat / 2 + 1 else d.half = 0 || d.half = 3
  b.extractLsb' 56 72 != 0#72 || b.extractLsb' 45 3 != 0#3 || b.extractLsb' 29 3 != 0#3 || b.extractLsb' 11 5 != 0#5 ||
    d.code < 0xC0 || d.cls = 3 || d.bound = 0 || 4096 < d.bound || !(d.start < e.cslen || romEntries.contains d.start) ||
    (List.range 4).any (fun g => d.groups.testBit g && e.bwin.extractLsb' (16 * g) 16 = 0#16) || !half

/-- The binding table fails a check (R158). -/
def bindingsBad (e : Placement) (bs : List (BitVec 128)) : Bool :=
  let keys := bs.map (fun b => b.extractLsb' 0 10)
  bs.any (bindingBad e) || !decide keys.Nodup || [0, 1, 2].any (fun k => 64 < (bs.filter (fun b =>
    (b.extractLsb' 8 2).toNat = k)).length)

/-- The world key that a blob holds under a key derived from the device root key, or none where it does not open (R340; log
entry 6). -/
def unwrapKey (blob : List Byte) : Option (BitVec 256) :=
  let p := Config.blobParts blob
  (gcmOpen (hkdf (toBytes 32 Config.deviceRoot.toNat) Config.blobSalt Config.blobInfo) p.1 p.2.1 p.2.2.1 p.2.2.2).map
    (fun k => BitVec.ofNat 256 (ofBytes k))

/-- The window entries that compose (R202, R203). -/
def State.composeAll (s : State) (c : Ctx) : SMap (BitVec 32) :=
  (List.range 16384).filterMap (fun i => match s.compose c i (2 ^ 44 + i * 2 ^ 21) with
    | .entry e => some (i, e)
    | .invalid | .hv .. => none)

/-- Some entry maps a frame that a ZERO command runs over, for which the shunter waits (R345). -/
def State.zeroing (s : State) (w : SMap (BitVec 32)) : Bool :=
  match s.hub.hzbusy with
  | some (first, count) => w.any (fun p => !entHost p.2 && first ≤ entFrame p.2 && entFrame p.2 < first + count)
  | none => false

/-- What the shunter puts on a platform from a launch's entry besides the initial values of R44 and what it pages: identity
and the control registers that a save image does not hold. -/
def Ctx.skeleton (l : Launch) (img : Image) (e : Placement) (ci : CtxImage) (i : Nat) : Ctx :=
  let c : Ctx := { Ctx.empty with
    state := .loading, place := e, part := l.part, gang := l.id, gangSize := l.entries.length, launch := l.number,
    world := img.world, image := img.addr, imageCtx := i, descs := ci.regions }
  ((c.setCreg 0x020 e.bwin).setCreg 0x021 e.s2win).setCreg 0x022 e.s3win

/-- The world key of an image, where its world holds one or its blob opens (R340). -/
def State.worldKey (s : State) (img : Image) : Option (BitVec 256) :=
  (SMap.find s.keys.keys img.world).or (unwrapKey img.blob)

/-- A sealed control-store image opens under the key derived from its world key, and its words have their measurement (R32,
R178; log entry 55). -/
def openStore (key : BitVec 256) (img : Image) (i : Nat) (bs : List Byte) : Option (List Byte) :=
  let p := Config.storeSeal img.hash i
  match gcmOpen (hkdf (toBytes 32 key.toNat) Config.storeSalt Config.storeInfo) p.1 p.2.1 bs p.2.2 with
  | some out => if sha256 out = Config.storeMeasure img.hash i then some out else none
  | none => none

/-- The CSLEN words at CSIMG, decrypted and measured (R178). -/
def State.storeWords (s : State) (core : Nat) (c : Ctx) (img : Image) : Option (List StitchBits) :=
  let n := c.place.cslen
  if n = 0 then some []
  else (s.readHbm core c c.place.csimg (16 * n)).bind (fun bs => (s.worldKey img).bind (fun k =>
    (openStore k img c.imageCtx bs).map (fun out => (chunks n 16 out).map (fun b => BitVec.ofNat 128 (ofBytes b)))))

/-- The shunter pages the control store: the context with its words from micro address 0 on, the rest of its bank zero, its
bindings and its safe-point table; none where a check of R158 or R178 fails on the platform that it comes to, whose core's split
is the one that HALF has to fit. -/
def State.pageStore (s : State) (core : Nat) (c : Ctx) (img : Image) (ci : CtxImage) (e : Placement) : Option Ctx :=
  (s.storeWords core c img).bind (fun ws => (s.bindTable core c).bind (fun bs =>
    (s.readPoints core c (spCount ci.instrs) c.place.sptab).bind (fun pts =>
      if bindingsBad { e with split := (s.core core).split } bs then none
      else some { c with
        bank := ws.zipIdx.map (fun p => (p.2, p.1)), bindings := (bs.filter bindValid).map readBinding, points := pts })))

/-- The initial values of R44. -/
def Ctx.initial (c : Ctx) (l : Launch) (ci : CtxImage) : Ctx :=
  let e := c.place
  let c1 := { c with
    regs := ((c.regs.setX 1 l.packet.w3).setX 2 (BitVec.ofNat 64 e.rank)).setX 3 (BitVec.ofNat 64 l.entries.length)
    flow := { Flow.empty with pc := e.ibase + e.entry } }
  ci.bfmt.foldl (fun c p => c.setCreg (0x100 + p.1 % 64) (cregWritten (0x100 + p.1 % 64) 0 p.2))
    ((c1.setCreg 0x090 e.sparea).setCreg 0x091 e.splim)

/-- Put bundles into a core's instruction memory. -/
def Core.putInstrs (k : Core) (base : Nat) : List BundleBits → Core
  | [] => k
  | b :: t => { k with imem := SMap.put k.imem base b }.putInstrs (base + 1) t

/-- The loader may write a data section (R120). -/
def sectionOk (core : Nat) (c : Ctx) (addr len : Nat) : Bool :=
  (linePoints addr len).all (fun a => match locate core a with
    | .own off => inBwin (c.creg 0x020) off
    | .s2 off => inWin (c.creg 0x021) off
    | .virt va => let e := c.entry va; entV e && entW e && (entHost e || entFrame e < 262144)
    | .peer .. | .s3 .. | .nowhere => false) &&
    (match locate core addr, locate core (addr + len - 1) with
    | .own _, .own _ | .s2 _, .s2 _ | .virt _, .virt _ => true
    | _, _ => len = 0)

/-- The context of entry i as the shunter makes it, or none where its load fails (R48). -/
def State.makeCtx (s : State) (l : Launch) (img : Image) (i : Nat) (e : Placement) : Option Ctx :=
  (l.content img i).bind (fun ci =>
    let c0 := (Ctx.skeleton l img e ci i).initial l ci
    let c := { c0 with window := s.composeAll c0 }
    if (s.worldKey img).isSome && ci.sealOk && ci.instrs.length ≤ e.ilen &&
        ci.data.all (fun d => sectionOk e.core c d.1 d.2.length) then s.pageStore e.core c img ci e else none)

/-- The world key is unwrapped when the world is first loaded (R340). -/
def State.unwrap (s : State) (img : Image) : State :=
  match SMap.find s.keys.keys img.world with
  | some _ => s
  | none => match unwrapKey img.blob with
    | some k => { s with keys := { s.keys with keys := SMap.put s.keys.keys img.world k } }
    | none => s

/-- The measurement after an instruction image (R340). -/
def State.measure (s : State) (world : Nat) (instrs : List BundleBits) : State :=
  let h := sha256 (instrs.flatMap (fun b => toBytes 64 b.toNat))
  let m := sha256 (toBytes 32 (SMap.get 0#256 s.keys.measures world).toNat ++ h)
  { s with keys := { s.keys with measures := SMap.set 0#256 s.keys.measures world (BitVec.ofNat 256 (ofBytes m)) } }

/-- A loaded context goes onto its platform, or into the shunter's keeping where a member of a lower rank is there. -/
def State.placeCtx (s : State) (l : Launch) (e : Placement) (c : Ctx) : State :=
  if l.entries.any (fun o => o.core = e.core && o.plat = e.plat && o.rank < e.rank) then
    let k := s.core e.core
    s.setCore e.core { k with held := k.held ++
      [{ plat := e.plat, ctx := c, since := 0, due := false, count := 0, passedOver := false }] }
  else s.setCtx e.core e.plat c

/-- Entry i is loaded: measured, placed, its data sections written, its save counter zero (R47, R120, R322). -/
def State.loadEntry (s : State) (l : Launch) (img : Image) (i : Nat) (e : Placement) (c : Ctx) : State :=
  match l.content img i with
  | none => s
  | some ci =>
    let s1 := (s.unwrap img).measure img.world ci.instrs
    let s2 := s1.setCore e.core ((s1.core e.core).putInstrs e.ibase ci.instrs)
    let s3 := ci.data.foldl (fun s d => (writeRun s e.core c d.2 (runLines d.1 d.2.length)).1) s2
    { s3 with keys := { s3.keys with saves := SMap.set 0 s3.keys.saves c.ctxid.toNat 0 } }.placeCtx l e c

/-- A launch fails as a whole: its platforms are zeroed and EMPTY, but for those that a killed member has left; one that a killed
member has left and that waits for a held member of the launch is EMPTY as well (R48, R62). -/
def State.failLaunch (s0 : State) (l : Launch) (detail : Nat) : State :=
  let s1 := l.entries.zipIdx.foldl (fun s p =>
    let e := p.1
    let k := s.core e.core
    let s1 := s.setCore e.core { k with held := k.held.filter (·.ctx.gang != l.id) }
    if l.gone.contains p.2 then s1
    else
      let waits := (s1.ctx e.core e.plat).gang = 0 && (s1.ctx e.core e.plat).state == .loading &&
        (s0.core e.core).held.any (fun h => h.plat = e.plat && h.ctx.gang = l.id)
      let s2 := if (s1.ctx e.core e.plat).gang = l.id || waits then s1.clearPlatform e.core e.plat else s1
      (s2.zeroBanks e.core e.bwin).drainCore e.core) s0
  s1.endLaunch l stLOADFAIL detail

/-- Entries of a launch on a platform, with their indexes. -/
def Launch.on (l : Launch) (core plat : Nat) : List (Placement × Nat) :=
  l.entries.zipIdx.filter (fun p => p.1.core = core && p.1.plat = plat)

/-- The shunter loads the contexts placed on a platform (R47); its own-S1 writes wait for claimed groups (R186). -/
def execContextLoad (core plat : Nat) (s : State) : Host.Outcome State Fault Refusal :=
  match s.launches.find? (fun l => l.phase = 1 && (l.on core plat).any (fun p => !l.loaded.contains p.2)) with
  | none => .refused .notEnabled
  | some l =>
    match s.findImage l.image with
    | none => .refused .notEnabled
    | some img =>
      let made := (l.on core plat).map (fun p => (p, s.makeCtx l img p.2 p.1))
      if made.any (fun q => (q.2.map (fun c => s.zeroing c.window)).getD false) then .refused .notEnabled
      else if (l.on core plat).any (fun p => ((l.content img p.2).map (fun ci => ci.data.any (fun d =>
          s.claimedRun core d.1 d.2.length))).getD false) then .refused .notEnabled
      else if made.any (fun q => q.2.isNone) then
        .next (s.failLaunch l (((l.entries.zipIdx.find? (fun p => (s.makeCtx l img p.2 p.1).isNone)).map
          (fun p => p.1.corePlat)).getD 0))
      else
        let s1 := made.foldl (fun s q => match q.2 with
          | some c => s.loadEntry l img q.1.2 q.1.1 c
          | none => s) s
        .next (s1.putLaunch { l with loaded := made.foldl (fun ls q => insertNat ls q.1.2) l.loaded })

/-! ## The end of a context (R49, R62, R391) -/

/-- Commands of a context that an engine has accepted and not finished (R391, R62). -/
def State.engineBusy (s : State) (core plat : Nat) : Bool :=
  let c := s.ctx core plat
  c.chan.state == .run || s.clusters.any (fun q => (q.2.marshal.map (fun j => j.ctxid == c.ctxid)).getD false) ||
    (((s.core core).cipher).map (fun j => j.plat == plat && j.ctxid == c.ctxid)).getD false ||
    s.joins.any (·.ctxid == c.ctxid) || s.collectives.any (fun o => o.joined.any (fun j => j.ctxid == c.ctxid && j.phase != 2))

/-- Every result of a context has landed, and no routine of it runs. -/
def State.landed (s : State) (core plat : Nat) : Bool :=
  let c := s.ctx core plat
  c.flights.isEmpty && c.out.isEmpty && c.awaited.isEmpty && c.moves.isEmpty && c.pending.isEmpty &&
    (((s.core core).routine).map (fun r => r.plat != plat)).getD true

/-- The rows that a platform owns have nothing on its way (R252). -/
def State.tileQuiet (s : State) (core plat : Nat) : Bool :=
  let k := s.core core
  [k.half0, k.half1].all (fun h => h.owner != some plat || (h.drain.isNone && h.fill.isNone && h.busy ≤ s.now && h.ready = 0))
    && (k.drainIds plat).isEmpty && [k.half0, k.half1].all (fun h => (h.spill.map (fun p => p.1 != plat)).getD true)

/-- A platform's context has nothing left to do. -/
def State.settledDown (s : State) (core plat : Nat) : Bool :=
  s.landed core plat && (s.ctx core plat).cmds.isEmpty && !s.engineBusy core plat && s.tileQuiet core plat &&
    (s.undrained core plat .system).isEmpty

/-- A context has left its gang (R49). -/
def State.leaveGang (s : State) (gang : Nat) (id : Word) : State :=
  match s.findLaunch gang with
  | some l => match l.entries.findIdx? (fun e => l.ctxidOf e = id) with
    | some i => s.putLaunch { l with gone := insertNat l.gone i }
    | none => s
  | none => s

/-- The context leaves its gang, and its platform is zeroed for the next member of its group (R49, R252, R348, R495). -/
def State.retire (s : State) (core plat : Nat) : State :=
  let c := s.ctx core plat
  let s1 := s.leaveGang c.gang c.ctxid
  let s2 := { s1.leaveBarriers core c.ctxid with reports := s1.reports.filter (·.ctxid != c.ctxid) }
  ((s2.dropRows core plat).clearPlatform core plat).bringNext core plat

/-- The conditions of R391 hold, and the platform of a halted context is zeroed. -/
def execHaltZeroing (core plat : Nat) (s : State) : Host.Outcome State Fault Refusal :=
  let c := s.ctx core plat
  if c.haltPending && !c.killPending && s.settledDown core plat then .next (s.retire core plat) else .refused .notEnabled

/-- A context is stopped for a kill: it issues nothing more, its queued commands are discarded, its channel is stopped, and no
image saved before can be restored (R62); a bounce slot that it copies is aborted, as by CHSTOP (R351). -/
def State.stopForKill (s : State) (core plat : Nat) : State :=
  let c := s.ctx core plat
  let s1 := s.setCtx core plat { c with
    killPending := true, cmds := [], seeding := false, latch := none, faultPending := none, asyncFaults := []
    pending := c.pending.filter (fun r => !c.cmds.any (fun q => match q.cmd with
      | .axqry _ xd => r == .x xd
      | _ => false)) }
  let s2 := (((s1.abortChan core plat).abortCopies (fun _ n p => n = core && p = plat)).leaveBarriers core
    c.ctxid).refusePreempt core plat
  let s3 := if (s2.core core).running = some plat then s2.yieldCore core plat (s2.now + 1) (s2.now + 3) else s2
  let n := SMap.get 0 s3.keys.saves c.ctxid.toNat
  { s3 with keys := { s3.keys with saves := SMap.set 0 s3.keys.saves c.ctxid.toNat (n + 1) } }

/-- The command that names a platform, of an OP, among those under way. -/
def State.underWay (s : State) (op core plat : Nat) : Option Running :=
  s.commands.find? (fun r => r.packet.op.toNat = op && r.packet.w0.toNat = core * 4 + plat)

/-- A command under way completes. -/
def State.finish (s : State) (r : Running) (status count detail : Nat) : State :=
  { s with commands := s.commands.filter (·.id != r.id) }.completePacket r.queue r.packet status count detail

/-- A kill asked for stops the context of a platform whose load or restore has ended (R62). -/
def State.killNow (s : State) (core plat : Nat) : State :=
  let c := s.ctx core plat
  if (s.underWay 8 core plat).isSome && !c.killPending && c.state != .empty && c.state != .loading then s.stopForKill core plat
  else s

/-- The context is released: it is READY, and its core may issue its first bundle in this cycle (R47, R497). -/
def Ctx.released (c : Ctx) (now : Nat) : Ctx := { c.makeReady now with wake := now }

/-- Every context of a gang has loaded, and the dispatcher releases them (R47). -/
def execGangRelease (gang : Nat) (s : State) : Host.Outcome State Fault Refusal :=
  match s.findLaunch gang with
  | none => .refused .notEnabled
  | some l =>
    if l.phase != 1 || !(List.range l.entries.length).all l.loaded.contains then .refused .notEnabled
    else
      let s1 := l.places.foldl (fun s p =>
        let c := s.ctx p.1 p.2
        if c.gang = gang && c.state == .loading && !c.killPending then s.setCtx p.1 p.2 (c.released s.now) else s) s
      let s2 := l.places.foldl (fun s p =>
        let k := s.core p.1
        s.setCore p.1 { k with held := k.held.map (fun h => if h.ctx.gang = gang then { h with since := s.now, due := false } else h) }) s1
      let s3 := l.places.foldl (fun s p => s.killNow p.1 p.2) s2
      .next (s3.putLaunch { l with phase := 2 })

/-- The load of a platform's context is still under way. -/
def State.stillLoading (s : State) (core plat : Nat) : Bool :=
  let c := s.ctx core plat
  c.state == .loading && !s.launches.any (fun l => l.phase = 1 && l.id = c.gang && (l.on core plat).all (fun p =>
    l.loaded.contains p.2) && (l.on core plat) != [])

/-- A kill that waited for a load stops its context, or is refused where the load has failed; or the platform of a stopped
context is zeroed (R62). -/
def execKillZeroing (core plat : Nat) (s : State) : Host.Outcome State Fault Refusal :=
  let c := s.ctx core plat
  if c.killPending then
    if c.state == .saving || c.state == .loading || !s.settledDown core plat then .refused .notEnabled
    else
      let s1 := s.retire core plat
      match s1.underWay 8 core plat with
      | some r => .next (s1.finish r stOK 0 0)
      | none => .next s1
  else match s.underWay 8 core plat with
    | some r =>
      if c.state == .empty then .next (s.finish r stREFUSED 0 (core * 4 + plat))
      else if c.state == .saving || s.stillLoading core plat then .refused .notEnabled
      else .next (s.stopForKill core plat)
    | none => .refused .notEnabled

/-- Every context of a gang has left it, and every one of its platforms is zeroed (R49). -/
def execLaunchComplete (gang : Nat) (s : State) : Host.Outcome State Fault Refusal :=
  match s.findLaunch gang with
  | none => .refused .notEnabled
  | some l =>
    if l.phase != 2 || !(List.range l.entries.length).all l.gone.contains ||
        l.places.any (fun p => (s.ctx p.1 p.2).gang = gang && (s.ctx p.1 p.2).state != .empty) then .refused .notEnabled
    else .next (s.endLaunch l stOK 0)

end Sys2Proof.Machine
end

