-- ==== Sys2Proof/Machine/Saves.lean ====
section
/-! DEFINITION. Save images (R317, R320 to R322), the saving and restoring of contexts by pre-emption, SAVE and rotation (R60,
R61, R234, R252, R519). The order of the parts of a body is R321's; their encoding is the model's (log entry 16). -/
namespace Sys2Proof.Machine

/-! ## What a save keeps (R317, R321) -/

/-- The registers and S1 ranges that a save keeps. -/
structure Live where
  v : List (Nat × Nat)
  m : List (Nat × Nat)
  s1 : List (Nat × Nat)
  deriving DecidableEq, Repr, Inhabited

/-- The context's fault record, which a handler resumes from (R319, R321). -/
def Ctx.record (c : Ctx) : Nat × Nat := (c.place.frec, c.place.frec + 2048)

/-- The live state of the safe point that a context stands at, with the record inside a handler (R319); whole banks and the
record where no table describes it. `back` is the state in which the context comes back. -/
def Ctx.live (c : Ctx) (back : PlatState) : Live :=
  match (if back == .faulted then none else c.safe.bind (fun t => c.points.find? (·.index = t))) with
  | some p => ⟨p.v, p.m, p.s1 ++ (if (c.creg 0x062).getLsbD 15 then [c.record] else [])⟩
  | none => ⟨[(0, 2047)], [(0, 255)], [c.record]⟩

/-- What a held member keeps of its registers: the whole banks, as R499 shows of a vector that its table does not list (log
entry 56). -/
def wholeBanks : Live := ⟨[(0, 2047)], [(0, 255)], []⟩

def inRanges (rs : List (Nat × Nat)) (n : Nat) : Bool := rs.any (fun r => r.1 ≤ n && n ≤ r.2)

/-- A context's own state as a save keeps it, in the state in which it comes back (R60, R281, R321). -/
def Ctx.trim (c : Ctx) (l : Live) (back : PlatState) : Ctx :=
  { c with
    state := back
    regs := { c.regs with v := c.regs.v.filter (fun p => inRanges l.v p.1), m := c.regs.m.filter (fun p => inRanges l.m p.1) }
    flights := [], pending := [], out := [], flushes := [], needs := [], awaited := [], moves := [], fences := [], cmds := [], cmdSiding := 0,
    arrSiding := 0, chan := Channel.empty, window := [], bank := [], bindings := [], why := none, faultPending := none,
    resume := .none, override := [], readySince := 0, overdue := false, wake := 0, yielded := false,
    preempt := none, rotating := false, bundles := 0, nextId := 0, seeding := false,
    rings := c.rings.map (fun p => (p.1, { p.2 with seen := p.2.rp, rel := [] })),
    regions := c.regions.map (fun p => (p.1, { p.2 with state := 0, ver0 := 0, ver1 := 0, active := 1, box := [] })) }

/-! ## Writing a body -/

def wBool (b : Bool) : List Byte := toBytes 1 b.toNat
def wList {α : Type} (f : α → List Byte) (l : List α) : List Byte := toBytes 4 l.length ++ l.flatMap f
def wOpt {α : Type} (f : α → List Byte) : Option α → List Byte
  | none => toBytes 1 0
  | some a => toBytes 1 1 ++ f a

def wWords (n k : Nat) (get : Nat → Nat) : List Byte := (List.range k).flatMap (fun i => toBytes n (get i))

def wMicro (m : Micro) : List Byte :=
  toBytes 2 m.pc ++ toBytes 48 m.flags.toNat ++ toBytes 2 m.count ++ wOpt (toBytes 2) m.link ++ toBytes 2 m.steps ++
    wOpt (fun w => toBytes 384 w.toNat) m.word

def wTemps (h : SMap Vec) (n : SMap (BitVec 16)) : List Byte :=
  wWords 384 16 (fun i => (SMap.get 0#3072 h i).toNat) ++ wWords 2 4 (fun i => (SMap.get 0#16 n i).toNat)

def wArgs (a : RoutineArgs) : List Byte :=
  let b := a.bind
  [a.slot, a.cls, a.p0, a.p1, a.p2, a.p3, a.k, a.fmt, a.rm, a.pl, a.seed, b.cls, b.code, b.start, b.bound, b.groups, b.half, a.preds].flatMap
    (toBytes 8) ++ [a.sat, a.acc, b.hbm, b.rand, a.rom].flatMap wBool ++ wOpt (toBytes 1) a.region

def wAfter : After → List Byte
  | .skipTo t => toBytes 1 0 ++ toBytes 8 t
  | .park => toBytes 1 1 ++ toBytes 8 0
  | .halt => toBytes 1 2 ++ toBytes 8 0
  | .yield => toBytes 1 3 ++ toBytes 8 0
  | .tret => toBytes 1 4 ++ toBytes 8 0

def wXfer (x : Xfer) : List Byte := toBytes 8 x.target ++ wBool x.taken ++ toBytes 1 x.left ++ wBool x.closes

def wLoop (l : LoopEntry) : List Byte := toBytes 4 l.first ++ toBytes 4 l.last ++ toBytes 8 l.left

def wReplay (d : Replay) : List Byte :=
  toBytes 6 d.base.toNat ++ [d.cn0, d.cn1, d.cn2, d.cn3, d.ch].flatMap (toBytes 8) ++
    [d.st0, d.st1, d.st2, d.st3].flatMap (fun s => toBytes 4 s.toNat)

def wRing (r : Ring) : List Byte :=
  toBytes 4 r.wp.toNat ++ toBytes 4 r.rp.toNat ++ toBytes 4 r.cap ++ toBytes 1 r.status ++ toBytes 1 r.src

def wShadow (s : Shadow) : List Byte := wMicro s.micro ++ wTemps s.h s.n ++ wOpt wArgs s.saved

def wRegion (p : Nat × RegionLocal) : List Byte := toBytes 1 p.1 ++ toBytes 8 p.2.counter ++ toBytes 8 p.2.epoch

/-- A poison mark: the register by its fault value, the address and the code. -/
def wPoison (p : RegId × Nat × Nat) : List Byte := toBytes 2 p.1.value ++ toBytes 8 p.2.1 ++ toBytes 1 p.2.2

/-- A count of a bank stream, by its slot (R146, R151). -/
def wPair (p : Nat × Nat) : List Byte := toBytes 8 p.1 ++ toBytes 8 p.2

/-- An asynchronous fault that waits for its delivery (R305). -/
def wFault (f : FaultInfo) : List Byte :=
  toBytes 1 f.code ++ toBytes 1 f.slot ++ toBytes 8 f.value ++ toBytes 8 f.mpc ++ wOpt (toBytes 2) f.upc

/-- Control registers that a save carries: those that are not the windows; SPN goes with the stacks (R190, R321). -/
def savedCregs (c : Ctx) : List (Nat × Word) := (c.setSpn 0).cregs.filter (fun p => p.1 < 0x020 || 0x022 < p.1)

/-- Parts 1 to 4 of a body, of a trimmed context; `own` is TSPLIT's owner state, the halves that the context owned (R321).
What the parts have no place for in the spec's list follows within the part it belongs to (log entry 16). -/
def fixedPart (c : Ctx) (own : Nat) : List Byte :=
  toBytes 8 c.flow.pc ++ wWords 8 63 (fun i => (c.regs.getX (i + 1)).toNat) ++ wWords 8 32 (fun i => (c.regs.getA i).toNat) ++
  toBytes 2 c.regs.p.toNat ++ wList wLoop c.flow.loops ++ wList (toBytes 8) c.flow.rets ++ toBytes 2 c.spn ++
  wOpt wXfer c.flow.xfer ++ wOpt wAfter c.flow.after ++ wBool (c.state == .parked) ++ wBool (c.state == .faulted) ++
  wList (fun p => toBytes 2 p.1 ++ toBytes 8 p.2.toNat) (savedCregs c) ++ toBytes 1 own ++
  wWords 62 4 (fun i => ofBytes (wReplay (SMap.get Replay.empty c.replays i))) ++
  wWords 14 64 (fun i => ofBytes (wRing (SMap.get Ring.empty c.rings i))) ++
  wList (fun w => toBytes 384 w.toNat) c.queue ++ toBytes 32 c.key.toNat ++ toBytes 8 c.qcount.toNat ++
  toBytes 8 c.seeds ++ wList (fun p => toBytes 8 p.1 ++ toBytes 32 p.2.toNat) c.oldKeys ++ wList wPair c.taken ++
  wList wPair c.units ++
  wMicro c.micro ++ wTemps c.regs.h c.regs.n ++ wOpt wShadow c.shadow ++
  wOpt (fun l => toBytes 1 l.id ++ toBytes 384 l.input.toNat ++ wBool l.observed ++ wBool l.sampled) c.latch ++
  wOpt wArgs c.saved ++ wBool c.recCloses ++ wOpt wAfter c.recAfter ++ wOpt (fun w => toBytes 384 w.toNat) c.word ++
  wOpt (fun w => toBytes 384 w.toNat) c.wordAside ++ wList wRegion c.regions ++ wList (toBytes 2) c.arrivals ++
  wList wPoison c.poison ++ wList wFault c.asyncFaults ++ wOpt (toBytes 2) c.safe

/-- Parts 5 and 6: the contents of the live ranges one after another, which the safe-point table delimits, then the accumulator
masks and their rows (R252, R321, R520). -/
def livePart (s : State) (core : Nat) (c : Ctx) (l : Live) : List Byte :=
  let range (n : Nat) (get : Nat → Nat) (r : Nat × Nat) : List Byte := wWords n (r.2 + 1 - r.1) (fun i => get (r.1 + i))
  let rows (plane : Nat) : List Byte := (maskRows (c.accMask.getD plane 0)).flatMap (fun r =>
    s.bytes (accSavePlace core c plane r) 768)
  l.v.flatMap (range 384 (fun i => (c.regs.getV i).toNat)) ++ l.m.flatMap (range 768 (fun i => (c.regs.getM i).toNat)) ++
    l.s1.flatMap (fun r => s.bytes (s1Place core r.1) (r.2 - r.1)) ++
    wWords 12 2 (fun i => (c.accMask.getD i 0).toNat) ++ rows 0 ++ rows 1

/-! ## Reading a body -/

/-- A reader takes bytes from the front. -/
abbrev Rd := StateM (List Byte)

def rNum (n : Nat) : Rd Nat := fun bs => (ofBytes (bs.take n), bs.drop n)
def rBool : Rd Bool := do return (← rNum 1) != 0
def rTimes {α : Type} (r : Rd α) : Nat → Rd (List α)
  | 0 => pure []
  | k + 1 => do
    let a ← r
    return a :: (← rTimes r k)
def rList {α : Type} (r : Rd α) : Rd (List α) := do rTimes r (← rNum 4)
def rOpt {α : Type} (r : Rd α) : Rd (Option α) := do
  if ← rBool then return some (← r) else return none
def rVec : Rd Vec := do return BitVec.ofNat 3072 (← rNum 384)

/-- A map of the values that are not the default, keys from 0. -/
def mapOf {α : Type} [DecidableEq α] (d : α) (l : List α) : SMap α :=
  (l.zipIdx.filter (fun p => p.1 ≠ d)).map (fun p => (p.2, p.1))

def rMicro : Rd Micro := do
  return { pc := ← rNum 2, flags := BitVec.ofNat 384 (← rNum 48), count := ← rNum 2, link := ← rOpt (rNum 2), steps := ← rNum 2,
           word := ← rOpt rVec }

def rTemps : Rd (SMap Vec × SMap (BitVec 16)) := do
  let h ← rTimes rVec 16
  let n ← rTimes (rNum 2) 4
  return (mapOf 0 h, mapOf 0 (n.map (BitVec.ofNat 16)))

def rArgs : Rd RoutineArgs := do
  let n ← rTimes (rNum 8) 18
  let b ← rTimes rBool 5
  let region ← rOpt (rNum 1)
  let at_ (i : Nat) : Nat := n.getD i 0
  let flag (i : Nat) : Bool := b.getD i false
  return { slot := at_ 0, cls := at_ 1, p0 := at_ 2, p1 := at_ 3, p2 := at_ 4, p3 := at_ 5, k := at_ 6, fmt := at_ 7, rm := at_ 8,
           pl := at_ 9, seed := at_ 10, preds := at_ 17, sat := flag 0, acc := flag 1, region := region, rom := flag 4, own := [],
           bind := { cls := at_ 11, code := at_ 12, start := at_ 13, bound := at_ 14, groups := at_ 15, half := at_ 16,
                     hbm := flag 2, rand := flag 3 } }

def rAfter : Rd After := do
  let k ← rNum 1
  let t ← rNum 8
  return if k = 0 then .skipTo t else if k = 1 then .park else if k = 2 then .halt else if k = 3 then .yield else .tret

def rXfer : Rd Xfer := do
  return { target := ← rNum 8, taken := ← rBool, left := ← rNum 1, closes := ← rBool }

def rLoop : Rd LoopEntry := do return { first := ← rNum 4, last := ← rNum 4, left := ← rNum 8 }

def rFault : Rd FaultInfo := do
  return { code := ← rNum 1, slot := ← rNum 1, value := ← rNum 8, mpc := ← rNum 8, upc := ← rOpt (rNum 2) }

def rReplay : Rd Replay := do
  let base ← rNum 6
  let n ← rTimes (rNum 8) 5
  let st ← rTimes (rNum 4) 4
  return { base := BitVec.ofNat 48 base, cn0 := n.getD 0 0, cn1 := n.getD 1 0, cn2 := n.getD 2 0, cn3 := n.getD 3 0, ch := n.getD 4 0,
           st0 := BitVec.ofNat 32 (st.getD 0 0), st1 := BitVec.ofNat 32 (st.getD 1 0), st2 := BitVec.ofNat 32 (st.getD 2 0),
           st3 := BitVec.ofNat 32 (st.getD 3 0) }

def rRing : Rd Ring := do
  let wp ← rNum 4
  let rp ← rNum 4
  let cap ← rNum 4
  let status ← rNum 1
  let src ← rNum 1
  return { wp := BitVec.ofNat 32 wp, rp := BitVec.ofNat 32 rp, cap := cap, status := status, src := src,
           seen := BitVec.ofNat 32 rp, rel := [] }

def rShadow : Rd Shadow := do
  let m ← rMicro
  let (h, n) ← rTemps
  return { micro := m, h := h, n := n, saved := ← rOpt rArgs }

def rRegion : Rd (Nat × RegionLocal) := do
  let id ← rNum 1
  let counter ← rNum 8
  let epoch ← rNum 8
  return (id, { RegionLocal.fresh with counter := counter, epoch := epoch, active := 1, born := none })

/-- A register by its fault value (R303). -/
def regOfValue (v : Nat) : RegId :=
  let n := v % 4096
  if v / 4096 = 0 then .x n else if v / 4096 = 1 then .p n else if v / 4096 = 2 then .a n
  else if v / 4096 = 3 then .v n else .m n

def rPoison : Rd (RegId × Nat × Nat) := do return (regOfValue (← rNum 2), ← rNum 8, ← rNum 1)

def rLatch : Rd RegionLatch := do return { id := ← rNum 1, input := ← rVec, observed := ← rBool, sampled := ← rBool }

/-- Lay parts 1 to 4 over a skeleton. -/
def rFixed (c : Ctx) : Rd Ctx := do
  let pc ← rNum 8
  let x ← rTimes (rNum 8) 63
  let a ← rTimes (rNum 8) 32
  let p ← rNum 2
  let loops ← rList rLoop
  let rets ← rList (rNum 8)
  let spn ← rNum 2
  let xfer ← rOpt rXfer
  let after ← rOpt rAfter
  let parked ← rBool
  let faulted ← rBool
  let cregs ← rList (do return (← rNum 2, BitVec.ofNat 64 (← rNum 8)))
  let _ ← rNum 1
  let replays ← rTimes rReplay 4
  let rings ← rTimes rRing 64
  let queue ← rList rVec
  let key ← rNum 32
  let qcount ← rNum 8
  let seeds ← rNum 8
  let oldKeys ← rList (do return (← rNum 8, BitVec.ofNat 256 (← rNum 32)))
  let taken ← rList (do return (← rNum 8, ← rNum 8))
  let units ← rList (do return (← rNum 8, ← rNum 8))
  let micro ← rMicro
  let (h, n) ← rTemps
  let shadow ← rOpt rShadow
  let latch ← rOpt rLatch
  let saved ← rOpt rArgs
  let closes ← rBool
  let recAfter ← rOpt rAfter
  let word ← rOpt rVec
  let aside ← rOpt rVec
  let regions ← rList rRegion
  let arrivals ← rList (rNum 2)
  let poison ← rList rPoison
  let faults ← rList rFault
  let safe ← rOpt (rNum 2)
  let c1 : Ctx := { c with
    state := if parked then .parked else if faulted then .faulted else .ready
    regs := { c.regs with
      x := mapOf 0 (0 :: x.map (BitVec.ofNat 64)), a := mapOf 0 (a.map (BitVec.ofNat 64)), p := BitVec.ofNat 16 p, h := h, n := n }
    flow := { pc := pc, loops := loops, rets := rets, xfer := xfer, after := after }
    replays := replays.zipIdx.map (fun q => (q.2, q.1)), rings := rings.zipIdx.map (fun q => (q.2, q.1))
    queue := queue, key := BitVec.ofNat 256 key, qcount := BitVec.ofNat 64 qcount, seeds := seeds, oldKeys := oldKeys
    taken := taken, units := units
    micro := micro, shadow := shadow, latch := latch, saved := saved, recCloses := closes, recAfter := recAfter, word := word
    wordAside := aside, regions := regions, arrivals := arrivals, poison := poison, asyncFaults := faults, safe := safe }
  return (cregs.foldl (fun c q => c.setCreg q.1 q.2) c1).setSpn spn

/-- Read something of each of a list. -/
def rEach {α β : Type} (f : α → Rd β) : List α → Rd (List β)
  | [] => pure []
  | a :: t => do
    let b ← f a
    return b :: (← rEach f t)

/-- The vectors, or moments, of a live range. -/
def rRange (n : Nat) (r : Nat × Nat) : Rd (List (Nat × Nat)) := do
  let vals ← rTimes (rNum n) (r.2 + 1 - r.1)
  return vals.zipIdx.map (fun p => (r.1 + p.2, p.1))

/-- The bytes of an S1 range, with its start. -/
def rS1 (r : Nat × Nat) : Rd (Nat × List Byte) := do
  let bs ← get
  set (bs.drop (r.2 - r.1))
  return (r.1, bs.take (r.2 - r.1))

/-- The whole body: the context with its live registers, the S1 ranges, and the rows for ACCSAVE. The safe point in its fixed
part and the table that the shunter has paged delimit the live ranges (R317). -/
def rBody (c : Ctx) : Rd (Ctx × List (Nat × List Byte) × List (List Byte)) := do
  let c1 ← rFixed c
  let l := c1.live c1.state
  let v ← rEach (rRange 384) l.v
  let m ← rEach (rRange 768) l.m
  let s1 ← rEach rS1 l.s1
  let masks ← rTimes (rNum 12) 2
  let rows ← rTimes (do let b ← get; set (b.drop 768); return b.take 768)
    ((masks.map (fun w => (maskRows (BitVec.ofNat 96 w)).length)).foldl (· + ·) 0)
  let regs := m.flatten.foldl (fun r p => r.setM p.1 (BitVec.ofNat 6144 p.2))
    (v.flatten.foldl (fun r p => r.setV p.1 (BitVec.ofNat 3072 p.2)) c1.regs)
  return ({ c1 with regs := regs, accMask := masks.map (BitVec.ofNat 96) }, s1, rows)

/-! ## Images (R320, R322) -/

/-- The place of a guest-physical address of a partition, where its second stage lets the shunter reach it (R201, R518). -/
def State.guestPlace (s : State) (part gpa : Nat) (write : Bool) : Option Nat :=
  match s.stage2 part (gpa / 2 ^ 21) with
  | some e =>
    if entV e && (if write then entW e else entR e) && (entHost e || entFrame e < 262144) then
      some (framePlace (entHost e) (entFrame e) (gpa % 2 ^ 21))
    else none
  | none => none

/-- Guest-physical lines of an image of n bytes at an aligned address. -/
def imageLines (gpa n : Nat) : List Nat := (List.range ((n + 63) / 64)).map (fun i => gpa + 64 * i)

/-- Write an image line by line, or none where a line has no place. -/
def State.writeGuest (s : State) (part : Nat) : Nat → List (List Byte) → Option State
  | _, [] => some s
  | gpa, b :: rest => match s.guestPlace part gpa true with
    | some p => (s.store p b).writeGuest part (gpa + 64) rest
    | none => none

/-- Read n lines of an image. -/
def State.readGuest (s : State) (part : Nat) : Nat → Nat → Option (List Byte)
  | _, 0 => some []
  | gpa, k + 1 => match s.guestPlace part gpa false with
    | some p => (s.readGuest part (gpa + 64) k).map (fun t => s.bytes p 64 ++ t)
    | none => none

/-- Key and IV of an image (R320). -/
def imageKey (s : State) (world : Nat) (hash : BitVec 256) (ctxid : Nat) : List Byte :=
  hkdf (toBytes 32 (SMap.get 0#256 s.keys.keys world).toNat) (toBytes 32 hash.toNat) (toBytes 8 ctxid)
def imageIv (count plat : Nat) : List Byte := toBytes 8 count ++ toBytes 4 plat

/-- A save image: header, body, tag (R320). -/
def sealImage (s : State) (core plat : Nat) (c : Ctx) (body : List Byte) : List Byte :=
  let id := c.ctxid.toNat
  let count := SMap.get 0 s.keys.saves id
  let hdr := toBytes 8 id ++ toBytes 8 count ++ toBytes 4 body.length ++ toBytes 2 core ++ toBytes 1 plat ++ toBytes 1 1 ++
    List.replicate 40 0#8
  let hash := (s.findImage c.image).elim 0 (·.hash)
  let r := gcmSeal (imageKey s c.world hash id) (imageIv count plat) hdr body
  hdr ++ r.1 ++ r.2

/-- An access to host memory made for a packet carries its PASID (R335). -/
def State.carryFor (s : State) (pasid : BitVec 20) (addr len : Nat) (write : Bool) : State :=
  { s with carried := s.carried ++ [(pasid, addr, len, write)] }

def State.carry (s : State) (k : Packet) (addr len : Nat) (write : Bool) : State :=
  s.carryFor (k.pasid.extractLsb' 0 20) addr len write

/-- The lines of an image that lie on host frames are accesses made for its packet (R335). -/
def State.carryImage (s : State) (part : Nat) (k : Packet) (gpa lines : Nat) (write : Bool) : State :=
  (imageLines gpa (64 * lines)).foldl (fun s a => match s.guestPlace part a write with
    | some p => if isHostPlace p then s.carry k (p - hostPlace 0) 64 write else s
    | none => s) s

/-- Lines of an image that a RESTORE reads: its header, and the rest where its counter is the context's (R322). -/
def State.imageReads (s : State) (part gpa : Nat) : Nat :=
  match s.readGuest part gpa 1 with
  | none => 0
  | some hdr =>
    if ofBytes ((hdr.drop 8).take 8) != SMap.get 0 s.keys.saves (ofBytes (hdr.take 8)) then 1
    else (64 + ofBytes ((hdr.drop 16).take 4) + 16 + 63) / 64

/-! ## Saving (R60, R61, R234, R252) -/

/-- Engines are in the middle of no work of the context (R234, R519). -/
def State.enginesIdle (s : State) (core plat : Nat) : Bool :=
  let c := s.ctx core plat
  !s.clusters.any (fun q =>
      (q.2.marshal.map (fun j => j.ctxid == c.ctxid && (!j.stores.isEmpty || j.fetch != .empty))).getD false) &&
    !s.joins.any (·.ctxid == c.ctxid) &&
    !((((s.core core).cipher).map (fun j => j.ctxid == c.ctxid && j.started)).getD false) &&
    !s.collectives.any (fun o => o.joined.any (fun j => j.ctxid == c.ctxid && o.stores.any (·.1 = j.rank)))

/-- The shunter may save a context (R234). -/
def State.savable (s : State) (core plat : Nat) : Bool :=
  s.landed core plat && (s.ctx core plat).cmds.isEmpty && (s.undrained core plat .system).isEmpty && s.tileQuiet core plat &&
    s.enginesIdle core plat

/-- The rows that a platform owns go to its ACCSAVE, and the halves become unowned (R252). -/
def State.spillAll (s : State) (core plat : Nat) : State :=
  (List.range 2).foldl (fun s h =>
    if ((s.core core).half h).owner = some plat then (s.spillOut core h).zeroHalf core h else s) s

/-- The halves that a platform owns, a bit each (R249, R321). -/
def Core.ownedBits (k : Core) (plat : Nat) : Nat :=
  (k.half0.owner == some plat).toNat + 2 * (k.half1.owner == some plat).toNat

/-- The spill of the rows that a platform owns would write into a claimed group (R186). -/
def State.spillClaimed (s : State) (core plat : Nat) : Bool :=
  ((s.core core).ownedBits plat != 0) && s.saveClaimed core plat

/-- A context goes into the shunter's keeping, and the next member of its group comes (R61). -/
def State.holdCtx (s : State) (core plat : Nat) (c : Ctx) : State :=
  let k := s.core core
  let h : Held := { plat := plat, ctx := { c with chan := (s.ctx core plat).chan }, since := s.now, due := false,
                    count := SMap.get 0 s.keys.saves c.ctxid.toNat, passedOver := false }
  let next := k.nextHeld plat
  let s1 := s.setCore core { k with plats := SMap.del k.plats plat, held := k.held ++ [h] }
  if next.isSome then s1.setCtx core plat { Ctx.empty with state := .loading } else s1

/-- A context leaves its core in a sealed image: what stays of it is named, and its platform is zeroed (R291, R348, R519). -/
def State.sendAway (s : State) (core plat : Nat) (c : Ctx) : State :=
  let k := s.core core
  let a : Away := { ctxid := c.ctxid, plat := plat, gang := c.gang, bwin := c.creg 0x020, chan := c.chan }
  ((s.setCore core { k with away := k.away ++ [a] }).clearPlatform core plat).bringNext core plat

/-- The save image of a context (R320, R321). -/
def State.imageOf (s : State) (core plat own : Nat) (back : PlatState) : List Byte :=
  let c := s.ctx core plat
  let l := c.live back
  let t := c.trim l back
  sealImage s core plat c (fixedPart t own ++ livePart s core t l)

/-- The image of a context is written at its destination, or none where the partition has no place for it. -/
def State.writeImage (s : State) (core plat dest own : Nat) (back : PlatState) : Option State :=
  let img := s.imageOf core plat own back
  s.writeGuest (s.ctx core plat).part dest (chunks (img.length / 64 + 1) 64 img)

/-- The accesses of an image's write, made for its packet (R335). -/
def State.carrySave (s : State) (core plat own : Nat) (back : PlatState) (dest : Nat) (k : Packet) (t : State) : State :=
  t.carryImage (s.ctx core plat).part k dest (((s.imageOf core plat own back).length + 63) / 64) true

/-- The partition has no place for the image: the packet is refused, and the context stays where it is, switched out at its safe
point; one that was PARKED takes an arrival that has come meanwhile (R52, R64; log entry 57). -/
def State.stay (s : State) (core plat : Nat) (back : PlatState) (key : Nat) (k : Packet) : State :=
  let c := s.ctx core plat
  let c1 := match back with
    | .faulted => { c with state := .faulted, why := none }
    | .parked =>
      if c.arrivals.isEmpty then { c with state := .parked, why := none, preempt := none }
      else ({ c with preempt := none }.takeArrival).makeReady s.now
    | _ => { c with preempt := none }.makeReady s.now
  ((s.setCtx core plat c1).completePacket key k stREFUSED 0 (core * 4 + plat)).killNow core plat

/-- The shunter's save has ended: the context is off its platform, as `go` says, or a kill that waited for the save removes
it, whose counter makes the image stale (R62, R349). -/
def State.saved (s : State) (core plat : Nat) (go : State → State) : State :=
  match s.underWay 8 core plat with
  | some r => ((s.stopForKill core plat).retire core plat).finish r stOK 0 0
  | none => if (s.ctx core plat).killPending then (s.stopForKill core plat).retire core plat else go s

/-- Where the image of a context that leaves its platform goes: of a steward's save or pre-emption, its destination (R60, R316). -/
def State.imageDest (s : State) (core plat : Nat) (back : PlatState) : Option Nat :=
  if back == .faulted then (s.underWay 6 core plat).map (fun r => r.packet.w1.toNat) else (s.ctx core plat).preempt.map (·.1)

/-- The partition has a place for the image. -/
def State.imageFits (s : State) (core plat : Nat) (back : PlatState) : Bool :=
  match s.imageDest core plat back with
  | some dest => (s.writeImage core plat dest ((s.core core).ownedBits plat) back).isSome
  | none => true

/-- The lines of which a write has begun and is not complete. -/
def State.begunLines (s : State) : List Nat :=
  let lines (ws : List Store) : List Nat := (ws.filter Store.begun).map (·.place / 64)
  (s.cores.flatMap (fun k => k.2.all.flatMap (fun c =>
    (c.out.flatMap (fun o => if o.cls == .w then (o.pieces.filter Piece.begun).map (·.place / 64) else [])) ++
      c.moves.flatMap (fun m => lines m.stores) ++ lines c.chan.stores))) ++
    s.clusters.flatMap (fun q => ((q.2.marshal.map (·.stores)).map lines).getD []) ++
    s.collectives.flatMap (fun o => lines (o.stores.map (·.2)))

/-- Every 64-byte write that an engine or another core had begun before SAVING has been completed (R519). -/
def State.begunDone (s : State) (core plat : Nat) : Bool :=
  !(s.begunLines.any (fun l => s1Place core 0 ≤ l * 64 && l * 64 < s1Place core 0x800000 &&
    ((s.ctx core plat).creg 0x020).getLsbD ((l * 64 - s1Place core 0) / 0x20000)))

/-- The context that leaves its platform, or the FAULTED one that a SAVE names, enters SAVING, in the cycle in which the
conditions of R234 hold; its packet is refused where the partition has no place for the image (R52, R60, R61, R316). -/
def State.startSave (s : State) (core plat : Nat) : Host.Outcome State Fault Refusal :=
  let c := s.ctx core plat
  if !s.savable core plat || c.killPending || c.resume != .none then .refused .notEnabled
  else
    match c.state, c.why, s.underWay 6 core plat with
    | .faulted, _, some r =>
      if s.imageFits core plat .faulted then
        .next (s.setCtx core plat { c with state := .saving, why := some (.leaving .faulted) })
      else .next ({ s with commands := s.commands.filter (·.id != r.id) }.stay core plat .faulted r.queue r.packet)
    | _, some (.leaving back), _ =>
      match (if s.imageFits core plat back then none else c.preempt) with
      | some (_, key, k) => .next (s.stay core plat back key k)
      | none => .next (s.setCtx core plat { c with state := .saving })
    | _, _, _ => .refused .notEnabled

/-- A save: the context enters SAVING, a step that is due; then its image is written, or it is held, and it is off its platform.
The spill of its rows waits for claimed groups (R186), and the image for writes that had begun and for a place that a change of
the second stage has taken away (R519; log entry 57). -/
def execContextSave (core plat : Nat) (s : State) : Host.Outcome State Fault Refusal :=
  let c := s.ctx core plat
  if c.state != .saving then s.startSave core plat
  else if s.spillClaimed core plat || !s.begunDone core plat then .refused .notEnabled
  else
    let own := (s.core core).ownedBits plat
    let s1 := s.spillAll core plat
    let c1 := s1.ctx core plat
    match c.why with
    | some (.leaving back) =>
      match (if back == .faulted then s.underWay 6 core plat else none), c.preempt with
      | some r, _ =>
        match s1.writeImage core plat r.packet.w1.toNat own back with
        | some s2 => .next ((((s1.carrySave core plat own back r.packet.w1.toNat r.packet s2).refusePreempt core plat).finish r stOK 0
            0).saved core plat (fun t => t.sendAway core plat c1))
        | none => .refused .notEnabled
      | none, some (dest, key, k) =>
        match s1.writeImage core plat dest own back with
        | some s2 => .next ((((s1.carrySave core plat own back dest k s2).setCtx core plat { c1 with preempt := none
            }).completePacket key k stOK 0 0).saved core plat (fun t => t.sendAway core plat c1))
        | none => .refused .notEnabled
      | none, none => .next (s1.saved core plat (fun t => t.holdCtx core plat (c1.trim wholeBanks back)))
    | _ => .refused .notEnabled

/-! ## Restoring (R61, R178, R203, R322) -/

/-- A failed check of R322. -/
inductive RestoreFail where
  | stale | tag | load
  deriving DecidableEq, Repr

/-- A FAULTED context, or one whose image was saved FAULTED, enters READY and resumes from its record; the core's other platforms
issue as before (R310, R316). -/
def State.resumeNow (s : State) (core plat : Nat) (skip : Bool) : State :=
  let k := s.core core
  let s1 := (s.setCtx core plat ((s.ctx core plat).makeReady s.now)).resumeFrom core plat skip
  s1.setCore core { (s1.core core) with nextIssue := k.nextIssue, switchAt := k.switchAt }

/-- A restored context comes back: its windows composed, its reports counted, a parked one with an arrival ready (R64, R234). One
whose image was saved FAULTED enters READY, as every restored one does (R52), and resumes from its record (log entry 56). -/
def State.comeBack (s : State) (core plat : Nat) (c : Ctx) : State :=
  let id := c.ctxid.toNat
  let n := SMap.get 0 s.keys.saves id
  let c1 := { c with window := s.composeAll c }
  let c2 := if c1.state == .parked then (if c1.arrivals.isEmpty then c1 else c1.takeArrival.makeReady s.now)
    else c1.makeReady s.now
  let s0 := s.setCtx core plat c2
  let s1 := if c1.state == .faulted then s0.resumeNow core plat false else s0
  ({ s1 with keys := { s1.keys with saves := SMap.set 0 s1.keys.saves id (n + 1) } }.flushReports core plat).killNow core plat

/-- The launch and entry of a CTXID in a partition. -/
def State.entryOf (s : State) (part id : Nat) : Option (Launch × Placement × Nat) :=
  s.launches.findSome? (fun l => if l.part = part && l.phase = 2 then
    (l.entries.zipIdx.find? (fun p => (l.ctxidOf p.1).toNat = id)).map (fun p => (l, p.1, p.2)) else none)

/-- An entry as the platform that it comes to has it: the core's split decides what HALF fits (R68, R158). -/
def State.entryAt (s : State) (core plat : Nat) (e : Placement) : Placement :=
  { e with core := core, plat := plat, split := (s.core core).split }

/-- What a restore of a held member finds: its checks, then its context with the control store paged (R61, R322). -/
def State.checkHeld (s : State) (core : Nat) (h : Held) : Except RestoreFail Ctx :=
  let c := h.ctx
  if h.count != SMap.get 0 s.keys.saves c.ctxid.toNat then .error .stale
  else if (SMap.find s.keys.keys c.world).isNone then .error .tag
  else match s.findLaunch c.gang, s.findImage c.image with
    | some l, some img => match l.content img c.imageCtx with
      | some ci =>
        match s.pageStore core c img ci (s.entryAt core h.plat c.place) with
        | some c1 => .ok { c1 with state := if c.state == .loading then .ready else c.state }
        | none => .error .load
      | none => .error .load
    | _, _ => .error .load

/-- A rotation's restore ends: the member held longest is back, or is passed over and the next one tried (R61). -/
def State.endRotation (s : State) (core plat : Nat) (h : Held) : Host.Outcome State Fault Refusal :=
  let k := s.core core
  match s.checkHeld core h with
  | .ok c =>
    if s.zeroing (s.composeAll c) then .refused .notEnabled
    else .next ((s.setCore core { k with held := k.held.filter (fun o => o != h) }).comeBack core plat c)
  | .error f =>
    let code := match f with | .stale => cSAVESTALE | .tag => cSEALTAG | .load => cUNBOUND
    let entry := faultEntry h.ctx.ctxid core plat { code := code, slot := 8, value := h.count, mpc := 0, upc := none }
    let s1 := s.setCore core { k with
      held := k.held.map (fun o => if o = h then { o with passedOver := true } else o), plats := SMap.del k.plats plat }
    .next ((s1.bringNext core plat).queueFault h.ctx.part entry)

/-- What a RESTORE finds in an image: its checks, then its context with what it holds of S1 and ACCSAVE (R322). -/
def State.checkImage (s : State) (part core plat gpa : Nat) :
    Except RestoreFail (Ctx × List (Nat × List Byte) × List (List Byte)) :=
  match s.readGuest part gpa 1 with
  | none => .error .tag
  | some hdr =>
    let id := ofBytes (hdr.take 8)
    let count := ofBytes ((hdr.drop 8).take 8)
    let len := ofBytes ((hdr.drop 16).take 4)
    if count != SMap.get 0 s.keys.saves id then .error .stale
    else match s.entryOf part id with
      | none => .error .tag
      | some (l, e, i) => match s.findImage l.image with
        | none => .error .tag
        | some img =>
          match s.readGuest part gpa ((64 + len + 16 + 63) / 64), SMap.find s.keys.keys img.world with
          | some bs, some _ =>
            match gcmOpen (imageKey s img.world img.hash id) (imageIv count (ofBytes ((hdr.drop 22).take 1))) hdr
                ((bs.drop 64).take len) ((bs.drop (64 + len)).take 16) with
            | none => .error .tag
            | some body =>
              let e1 := s.entryAt core plat e
              match (l.content img i).bind (fun ci => s.pageStore core (Ctx.skeleton l img e1 ci i) img ci e1) with
              | some c => .ok ((rBody c).run body).1
              | none => .error .load
          | _, _ => .error .tag

/-- The instructions of a context's entry. -/
def State.instrsOf (s : State) (c : Ctx) : List BundleBits :=
  (((s.findImage c.image).bind (fun img => img.ctxs[c.imageCtx]?)).map CtxImage.instrs).getD []

/-- A RESTORE command ends (R322): the context is back with its S1 ranges and rows, or the platform is EMPTY. -/
def State.endRestore (s : State) (core plat : Nat) (r : Running) : Host.Outcome State Fault Refusal :=
  let part := ((SMap.find s.queues r.queue).map HostQueue.part).getD 0
  let reads (t : State) : State := t.carryImage part r.packet r.packet.w1.toNat (s.imageReads part r.packet.w1.toNat) false
  match s.checkImage part core plat r.packet.w1.toNat with
  | .error f =>
    let st := match f with | .stale => stSAVESTALE | .tag => stSEALTAG | .load => stLOADFAIL
    let k := s.core core
    .next (reads (((s.setCore core { k with plats := SMap.del k.plats plat }).bringNext core plat).finish r st 0 (core * 4 + plat)))
  | .ok (c, s1s, rows) =>
    let at_ := (maskRows (c.accMask.getD 0 0)).map (accSavePlace core c 0) ++
      (maskRows (c.accMask.getD 1 0)).map (accSavePlace core c 1)
    if s.zeroing (s.composeAll c) || s1s.any (fun p => s.claimedRun core p.1 p.2.length) ||
        at_.any s.claimedPlace then .refused .notEnabled
    else
      let away := s.cores.findSome? (fun k => k.2.away.find? (·.ctxid == c.ctxid))
      let s1 : State := { s with cores := s.cores.map (fun k => (k.1, { k.2 with
        away := k.2.away.filter (·.ctxid != c.ctxid), held := k.2.held.filter (·.ctx.ctxid != c.ctxid) })) }
      let s2 := s1.setCore core ({ (s1.core core) with world := some c.world }.putInstrs c.place.ibase (s.instrsOf c))
      let s3 := s1s.foldl (fun s p => s.store (s1Place core p.1) p.2) s2
      let s4 := (at_.zip rows).foldl (fun s p => s.store p.1 p.2) s3
      .next (reads ((s4.comeBack core plat { c with chan := (away.map Away.chan).getD Channel.empty }).finish r stOK 0 0))

/-- The RESTORE commands under way that name a platform, those that have begun or the others. -/
def State.restores (s : State) (core plat : Nat) (begun : Bool) : List Running :=
  s.commands.filter (fun r => r.packet.op.toNat = 7 && r.packet.w0.toNat = core * 4 + plat && (r.waits != []) == begun)

/-- The world that a save image at an address belongs to, and the placement entry of its context, where its header names a
context of the partition. -/
def State.imageWorld (s : State) (part gpa : Nat) : Option Nat :=
  (s.readGuest part gpa 1).bind (fun hdr =>
    (s.entryOf part (ofBytes (hdr.take 8))).bind (fun e => (s.findImage e.1.image).map Image.world))
def State.imageEntry (s : State) (part gpa : Nat) : Option Placement :=
  (s.readGuest part gpa 1).bind (fun hdr => (s.entryOf part (ofBytes (hdr.take 8))).map (fun e => e.2.1))

/-- A RESTORE begins: onto an EMPTY platform of a core that is drained or belongs to the image's world, which enters LOADING, a
drained core with the entry's split; else it is refused (R50, R68, R322, R524; log entry 83). -/
def State.beginRestore (s : State) (core plat : Nat) (r : Running) : State :=
  let part := ((SMap.find s.queues r.queue).map HostQueue.part).getD 0
  let k := s.core core
  let w := s.imageWorld part r.packet.w1.toNat
  if (k.ctx plat).state != .empty || (k.world.isSome && w.isSome && k.world != w) then
    s.finish r stREFUSED 0 (core * 4 + plat)
  else
    let split := ((s.imageEntry part r.packet.w1.toNat).map Placement.split).getD false
    let s1 := s.setCore core { k with
      world := if w.isSome then w else k.world, split := if k.world.isSome then k.split else split }
    { s1.setCtx core plat { Ctx.empty with state := .loading, part := part, world := w.getD 0 } with
      commands := s1.commands.map (fun o => if o.id = r.id then { o with waits := [(core, plat, r.id)] } else o) }

/-- A RESTORE command begins, one of those that wait for the platform (R337); or the shunter's restore onto a LOADING platform
ends: a RESTORE command's, or a held member's (R61, R322). -/
def execRestoreComplete (core plat : Nat) (s : State) : Host.Outcome State Fault Refusal :=
  if (s.ctx core plat).state != .loading then
    match (s.restores core plat false)[Config.choice s.oracle % (s.restores core plat false).length]? with
    | some r => .next (s.beginRestore core plat r)
    | none => .refused .notEnabled
  else if s.launches.any (fun l => l.phase = 1 && (l.on core plat) != []) then .refused .notEnabled
  else match s.restores core plat true with
    | r :: _ => s.endRestore core plat r
    | [] => match (s.core core).nextHeld plat with
      | some h => s.endRotation core plat h
      | none => .refused .notEnabled

end Sys2Proof.Machine
end

