-- ==== Sys2Proof/Machine/HostCmds.lean ====
section
/-! DEFINITION. The host's queues (R333 to R335), the stream commands (R336, R302, R340, R351), completion records and
interrupts (R337, R338). -/
namespace Sys2Proof

/-- Core and platform of a packet's core-plat (R336). -/
def Packet.core (k : Packet) : Nat := k.w0.toNat / 4
def Packet.plat (k : Packet) : Nat := k.w0.toNat % 4

end Sys2Proof
namespace Sys2Proof.Machine

/-! ## Queues and packets (R333, R334, R335) -/

/-- The compute dies run: STATE is RUN (R352, R355). -/
def State.up (s : State) : Bool := s.hub.mbstate = 2

def State.logHub (s : State) (e : LogEntry) : State := { s with hub := { s.hub with log := s.hub.log ++ [e] } }

def State.putQueue (s : State) (key : Nat) (q : HostQueue) : State := { s with queues := SMap.put s.queues key q }

/-- A host write to the notify page of a function (R334): a TAIL is taken, or the write is dropped. -/
def execNotifyTailWrite (fn offset size : Nat) (value : BitVec 32) (s : State) : Host.Outcome State Fault Refusal :=
  if !s.up || !s.hub.linkUp then .refused .notEnabled
  else if s.resetting.contains fn || 4096 ≤ offset then .next s
  else
    let key := queueKey fn (offset / 512 % 8)
    let reg := offset % 512
    let logged : Host.Outcome State Fault Refusal := .next (s.logHub (.notify fn offset))
    if reg = 4 then .next s
    else if reg != 0 then logged
    else if size != 4 then .next s
    else match SMap.find s.queues key with
      | none => logged
      | some q =>
        if !q.v || q.size < (value - q.head).toNat then logged else .next (s.putQueue key { q with tail := value })

/-- A packet as its 64 bytes hold it (R335). -/
def readPacket (bs : List Byte) : Packet :=
  let w (off n : Nat) : Nat := ofBytes ((bs.drop off).take n)
  let word (i : Nat) : Word := BitVec.ofNat 64 (w (16 + 8 * i) 8)
  { op := BitVec.ofNat 8 (w 0 1), flags := BitVec.ofNat 8 (w 1 1), zero2 := BitVec.ofNat 16 (w 2 2),
    pasid := BitVec.ofNat 32 (w 4 4), tag := BitVec.ofNat 64 (w 8 8),
    w0 := word 0, w1 := word 1, w2 := word 2, w3 := word 3, w4 := word 4, w5 := word 5 }

/-- The packet that a queue interface reads next. -/
def State.headPacket (s : State) (q : HostQueue) : Packet :=
  readPacket (s.bytes (hostPlace (q.ring + 64 * (q.head.toNat % q.size))) 64)

/-- The dispatcher may start a queue's next packet: behind no LAUNCH that waits, no held completion and, with ORDER, no
packet that has not completed (R46, R335, R337). -/
def HostQueue.mayStart (q : HostQueue) (k : Packet) : Bool :=
  q.v && q.head != q.tail && !q.waiting && q.done.isEmpty && (!k.flags.getLsbD 1 || q.open_ = 0)

/-- What a stream command does once its packet is read: the state after it, or none where it has to wait (R345). -/
abbrev CommandRun := State → Nat → HostQueue → Packet → Option State

/-- PASID n is in a queue's table of 32 (R333); an entry is 4 bytes in the layout of a packet's field (log entry 88). -/
def State.pasidAllowed (s : State) (base n : Nat) : Bool :=
  (List.range 32).any (fun i => s.word (hvPlace (base + 4 * i)) 4 % 2 ^ 20 = n % 2 ^ 20)

/-- The queue is that of a bounce channel that waits for a RESYNC: any other packet is ignored (R351). -/
def State.deaf (s : State) (key : Nat) (k : Packet) : Bool :=
  k.op != 0x0B#8 && s.bounces.any (fun b => b.2.aborted && b.2.queue = some key)

/-- The dispatcher takes a packet (R335, R336): one whose PASID is not allowed completes with BADPASID, one of no command with
BADOP. -/
def takePacket (op fn q : Nat) (k : Packet) (run : CommandRun) (s : State) : Host.Outcome State Fault Refusal :=
  match SMap.find s.queues (queueKey fn q) with
  | none => .refused .notEnabled
  | some qi =>
    if !s.up || !s.hub.linkUp || s.resetting.contains fn || !qi.mayStart k || s.headPacket qi != k then .refused .notEnabled
    else if s.deaf (queueKey fn q) k then .next (s.putQueue (queueKey fn q) { qi with head := qi.head + 1 })
    else
      let s1 := s.putQueue (queueKey fn q) { qi with head := qi.head + 1, open_ := qi.open_ + 1 }
      if !s.pasidAllowed qi.pasids k.pasid.toNat then .next (s1.completePacket (queueKey fn q) k stBADPASID 0 0)
      else if k.op = 0 || 0x0C#8 < k.op then .next (s1.completePacket (queueKey fn q) k stBADOP 0 0)
      else if k.op.toNat = op then
        match run s1 (queueKey fn q) qi k with
        | some s2 => .next s2
        | none => .refused .notEnabled
      else .refused .notEnabled

/-! ## Commands that name a platform -/

/-- The packet completes with REFUSED for its core-plat. -/
def State.refusePacket (s : State) (key : Nat) (k : Packet) : State := s.completePacket key k stREFUSED 0 k.w0.toNat

/-- A command for a platform of the partition whose context is in a state that `ok` admits; REFUSED else (R336). -/
def onPlatform (ok : State → Packet → Bool) (run : State → Nat → Packet → Option State) : CommandRun := fun s key q k =>
  if (s.partition q.part).ownsCore k.core && ok s k then run s key k else some (s.refusePacket key k)

/-- A command stays under way until it completes. -/
def State.startCommand (s : State) (key : Nat) (k : Packet) (waits : List (Nat × Nat × Nat)) : State :=
  { s with nextId := s.nextId + 1, commands := s.commands ++ [⟨s.nextId, key, k, waits⟩] }

/-- The shunter is at work on the platform for a SAVE (R321). -/
def State.saving (s : State) (core plat : Nat) : Bool := (s.underWay 6 core plat).isSome

/-- The platform holds a FAULTED context that waits for its steward (R316). -/
def State.isFaulted (s : State) (k : Packet) : Bool :=
  (s.ctx k.core k.plat).state == .faulted && !(s.ctx k.core k.plat).killPending && !s.saving k.core k.plat

/-! ## LAUNCH (R43, R46) -/

/-- The entries of a placement map in host memory. -/
def State.readMap (s : State) (addr : Nat) : Nat → List Placement
  | 0 => []
  | n + 1 => readPlacement (s.bytes (hostPlace addr) 128) :: s.readMap (addr + 128) n

def runLaunch : CommandRun := fun s0 key q k =>
  match s0.findImage k.w0.toNat with
  | none => some (s0.completePacket key k stREFUSED 0 0)
  | some img =>
    if 393216 < k.w2.toNat then some (s0.completePacket key k 1 0 0)
    else
      let es := s0.readMap k.w1.toNat k.w2.toNat
      let s := s0.carry k k.w1.toNat (128 * k.w2.toNat) false
      match launchRefusal (s.partition q.part) es (s.entryTiles q.part img es) with
      | some (st, detail) => some (s.completePacket key k st 0 detail)
      | none =>
        let l : Launch := { id := s.nextId, queue := key, packet := k, part := q.part, image := img.addr, entries := es,
                            phase := 0, loaded := [], gone := [], number := 0 }
        let s1 := match SMap.find s.queues key with
          | some qi => s.putQueue key { qi with waiting := true }
          | none => s
        some { s1 with nextId := s.nextId + 1, launches := s1.launches ++ [l] }

def execLaunch (fn q : Nat) (k : Packet) (s : State) : Host.Outcome State Fault Refusal :=
  takePacket 0x01 fn q k runLaunch s

/-! ## PREEMPT (R60, R518) -/

/-- A pre-emption may be asked for: W1 is aligned, and the context is there and on its way to no other end. -/
def preemptOk (s : State) (k : Packet) : Bool :=
  let c := s.ctx k.core k.plat
  k.w1.toNat % 64 = 0 && !c.haltPending && !c.killPending && c.preempt.isNone && !s.saving k.core k.plat &&
    !c.rotating && c.state != .empty && c.state != .loading && c.state != .saving

def runPreempt (s : State) (key : Nat) (k : Packet) : Option State :=
  let c := s.ctx k.core k.plat
  let s1 := s.setCtx k.core k.plat { c with preempt := some (k.w1.toNat, key, k) }
  let atSafe := (c.state == .ready || (c.state == .blocked && c.why != some .fault)) && c.safe.isSome
  some (if (c.state == .parked || atSafe) && c.asyncFaults.isEmpty then
      s1.leave k.core k.plat (if c.state == .parked then .parked else .ready)
    else s1)

def execPreempt (fn q : Nat) (k : Packet) (s : State) : Host.Outcome State Fault Refusal :=
  takePacket 0x02 fn q k (onPlatform preemptOk runPreempt) s

/-! ## RESUME, RESUMESKIP, REFILL (R310, R311, R204, R205) -/

def runResume (skip : Bool) (s : State) (key : Nat) (k : Packet) : Option State :=
  some ((s.resumeNow k.core k.plat skip).completePacket key k stOK 0 0)

def execResume (fn q : Nat) (k : Packet) (s : State) : Host.Outcome State Fault Refusal :=
  takePacket 0x03 fn q k (onPlatform State.isFaulted (runResume false)) s

def execResumeskip (fn q : Nat) (k : Packet) (s : State) : Host.Outcome State Fault Refusal :=
  takePacket 0x04 fn q k (onPlatform State.isFaulted (runResume true)) s

/-- The virtual address of a refill: that of the fault where it lies in the page, else the page's first byte. -/
def State.refillVa (s : State) (core plat index : Nat) : Nat :=
  let c := s.ctx core plat
  let v := s.word (s1Place core (c.place.frec + 0x10)) 8
  if c.state == .faulted && isVirt core v && windowIndex v = index then v else 2 ^ 44 + index * 2 ^ 21

/-- REFILL names an entry and a context that is there, FAULTED where it is to resume. -/
def refillOk (s : State) (k : Packet) : Bool :=
  let c := s.ctx k.core k.plat
  k.w1.toNat < 16384 && c.state != .empty && c.state != .loading && !c.haltPending && !c.killPending &&
    c.faultPending.isNone && !s.saving k.core k.plat && (!k.w2.getLsbD 0 || c.state == .faulted)

/-- What a refill finds for its entry now. -/
def State.refillFinds (s : State) (k : Packet) : Composed :=
  s.compose (s.ctx k.core k.plat) k.w1.toNat (s.refillVa k.core k.plat k.w1.toNat)

/-- The entry is written, and the context resumes where the packet asks for it (R204, R205). -/
def State.refillEntry (s : State) (k : Packet) (e : BitVec 32) : State :=
  let c := s.ctx k.core k.plat
  let s1 := s.setCtx k.core k.plat { c with window := SMap.set 0#32 c.window k.w1.toNat e }
  if k.w2.getLsbD 0 then s1.resumeNow k.core k.plat false else s1

/-- A table or data fault goes to the hypervisor core (R204). -/
def State.refillFault (s : State) (k : Packet) (kind gpa : Nat) : State :=
  s.logHub (.hvFault (s.ctx k.core k.plat).part k.core k.plat (s.refillVa k.core k.plat k.w1.toNat) kind gpa)

/-- A refill: one that meets a table or data fault stays under way until the hypervisor core has mapped the frame. -/
def runRefill (s : State) (key : Nat) (k : Packet) : Option State :=
  match s.refillFinds k with
  | .entry e => if s.zeroing [(k.w1.toNat, e)] then none else some ((s.refillEntry k e).completePacket key k stOK 0 0)
  | .invalid => some ((s.refillEntry k 0).completePacket key k stOK 0 0)
  | .hv kind gpa => some ((s.refillFault k kind gpa).startCommand key k [(kind, gpa, 0)])

/-- The hypervisor core reissues a refill once its fault is another or gone (R204); one whose context has gone or may not
resume any more is refused. -/
def State.reissue (s : State) (r : Running) : Host.Outcome State Fault Refusal :=
  if !refillOk s r.packet then .next (s.finish r stREFUSED 0 r.packet.w0.toNat)
  else match s.refillFinds r.packet with
    | .entry e =>
      if s.zeroing [(r.packet.w1.toNat, e)] then .refused .notEnabled
      else .next ((s.refillEntry r.packet e).finish r stOK 0 0)
    | .invalid => .next ((s.refillEntry r.packet 0).finish r stOK 0 0)
    | .hv kind gpa =>
      if r.waits = [(kind, gpa, 0)] then .refused .notEnabled
      else
        let s1 := s.refillFault r.packet kind gpa
        .next { s1 with commands := s1.commands.map (fun o => if o.id = r.id then { o with waits := [(kind, gpa, 0)] } else o) }

/-- A refill of a queue that waits for the hypervisor core. -/
def State.refillWaits (s : State) (key : Nat) (k : Packet) : Option Running :=
  s.commands.find? (fun r => r.queue = key && r.packet == k && k.op = 5#8)

def execRefill (fn q : Nat) (k : Packet) (s : State) : Host.Outcome State Fault Refusal :=
  match s.refillWaits (queueKey fn q) k with
  | some r => s.reissue r
  | none => takePacket 0x05 fn q k (onPlatform refillOk runRefill) s

/-! ## SAVE, RESTORE, KILL (R321, R322, R62) -/

def saveOk (s : State) (k : Packet) : Bool := k.w1.toNat % 64 = 0 && s.isFaulted k

def execSave (fn q : Nat) (k : Packet) (s : State) : Host.Outcome State Fault Refusal :=
  takePacket 0x06 fn q k (onPlatform saveOk (fun s key k => some (s.startCommand key k []))) s

/-- A RESTORE that names an EMPTY platform of a core that is drained or belongs to the image's world is under way; it begins in a
step of its own, when the platform may no longer be EMPTY (R50, R322, R337, R524). -/
def runRestore : CommandRun := fun s key q k =>
  let core := s.core k.core
  let w := s.imageWorld q.part k.w1.toNat
  if k.w1.toNat % 64 != 0 || (core.ctx k.plat).state != .empty || (core.world.isSome && w.isSome && core.world != w) ||
      !(s.partition q.part).ownsCore k.core then some (s.refusePacket key k)
  else some (s.startCommand key k [])

def execRestore (fn q : Nat) (k : Packet) (s : State) : Host.Outcome State Fault Refusal :=
  takePacket 0x07 fn q k runRestore s

def killOk (s : State) (k : Packet) : Bool :=
  (s.ctx k.core k.plat).state != .empty && (s.underWay 8 k.core k.plat).isNone

/-- KILL stops the context at once, or when the shunter's load or save ends; a SAVE not yet begun is refused (R62). -/
def runKill (s : State) (key : Nat) (k : Packet) : Option State :=
  let c := s.ctx k.core k.plat
  let s1 := match (if c.state == .saving then none else s.underWay 6 k.core k.plat) with
    | some r => s.finish r stREFUSED 0 k.w0.toNat
    | none => s
  let s2 := if c.killPending || c.state == .saving || s.stillLoading k.core k.plat then s1 else s1.stopForKill k.core k.plat
  some (s2.startCommand key k [])

def execKill (fn q : Nat) (k : Packet) (s : State) : Host.Outcome State Fault Refusal :=
  takePacket 0x08 fn q k (onPlatform killOk runKill) s

/-! ## REVOKE (R206) -/

def revokeOk (s : State) (k : Packet) : Bool :=
  k.w1.toNat + k.w2.toNat ≤ 16384 && (s.ctx k.core k.plat).state != .empty

/-- The addresses of words that engines have looked up for a context and that have not performed yet. -/
def State.engineAddrs (s : State) (core plat : Nat) : List Nat :=
  let c := s.ctx core plat
  let mine (id : Word) : Bool := id = c.ctxid
  let of_ (f : Fetch) (ws : List Store) : List Nat := f.pieces.map Piece.addr ++ ws.map Store.addr
  of_ c.chan.fetch c.chan.stores ++
    s.clusters.flatMap (fun q => match q.2.marshal with
      | some j => if mine j.ctxid then of_ j.fetch j.stores else []
      | none => []) ++
    (match (s.core core).cipher with
    | some j => if mine j.ctxid then of_ j.fetch [] else []
    | none => []) ++
    (s.joins.filter (fun j => mine j.ctxid)).flatMap (fun j => of_ j.fetch []) ++
    s.collectives.flatMap (fun o => if o.joined.any (fun j => mine j.ctxid) then of_ o.fetch (o.stores.map (·.2)) else [])

/-- An engine has still to perform an access that looked up one of n entries from the i-th on (R206). -/
def State.enginesUse (s : State) (core plat i n : Nat) : Bool :=
  (s.engineAddrs core plat).any (fun a => isVirt core a && i ≤ windowIndex a && windowIndex a < i + n)

/-- Window entries are cleared; the completion waits for the accesses outstanding. -/
def runRevoke (s : State) (key : Nat) (k : Packet) : Option State :=
  let c := s.ctx k.core k.plat
  let s1 := s.setCtx k.core k.plat { c with
    window := c.window.filter (fun p => p.1 < k.w1.toNat || k.w1.toNat + k.w2.toNat ≤ p.1) }
  some (s1.startCommand key k
    ((s.outstanding k.core k.plat ⟨true, true, true, false⟩ .package).map (fun id => (k.core, k.plat, id))))

def execRevoke (fn q : Nat) (k : Packet) (s : State) : Host.Outcome State Fault Refusal :=
  takePacket 0x09 fn q k (onPlatform revokeOk runRevoke) s

/-- Every access that looked up a cleared entry has performed (R206). -/
def execRevokeComplete (n : Nat) (s : State) : Host.Outcome State Fault Refusal :=
  match s.commands.find? (·.id = n) with
  | some r =>
    if r.packet.op = 0x09#8 && r.waits.all (fun w => !s.isOutstanding w.1 w.2.1 w.2.2) &&
        !s.enginesUse r.packet.core r.packet.plat r.packet.w1.toNat r.packet.w2.toNat then .next (s.finish r stOK 0 0)
    else .refused .notEnabled
  | none => .refused .notEnabled

/-! ## CLAIM, RESYNC, ATTEST (R302, R351, R340) -/

/-- The world that a command of a partition speaks for: that of its latest launch (log entry 30). -/
def State.partWorld (s : State) (part : Nat) : Nat := (s.partition part).worlds.headD 0

/-- The first claim of a slot takes it. -/
def runClaim : CommandRun := fun s key q k =>
  let p := s.partition q.part
  let slot := k.w0.toNat
  if 4096 ≤ slot || 1 < k.w1.toNat then some (s.completePacket key k stREFUSED 0 0)
  else match SMap.find p.slots slot with
    | some _ => some (s.completePacket key k stOCCUPIED 0 0)
    | none =>
      let world := ((s.findImage k.w2.toNat).map Image.world).getD (s.partWorld q.part)
      some ((s.setPartition q.part { p with slots := SMap.put p.slots slot ⟨k.w1.toNat, world, k.w2.toNat⟩ }).completePacket
        key k stOK 0 0)

def execClaim (fn q : Nat) (k : Packet) (s : State) : Host.Outcome State Fault Refusal :=
  takePacket 0x0A fn q k runClaim s

/-- The key of bounce channel n of a function. -/
def bounceKey (queue n : Nat) : Nat := queue / 65536 * 65536 + n % 65536

/-- A RESYNC with the device's counter sets both counters, and the channel runs again; any other is answered with BADSYNC. -/
def runResync : CommandRun := fun s key _ k =>
  match (if k.w0.toNat < 65536 then SMap.find s.bounces (bounceKey key k.w0.toNat) else none) with
  | none => some (s.completePacket key k stREFUSED 0 0)
  | some b =>
    if k.w1.toNat = b.consumed then
      some ({ s with
        bounces := SMap.put s.bounces (bounceKey key k.w0.toNat) { b with produced := b.consumed, aborted := false }
      }.completePacket key k stOK 0 0)
    else some (s.completePacket key k stBADSYNC b.consumed 0)

def execResync (fn q : Nat) (k : Packet) (s : State) : Host.Outcome State Fault Refusal :=
  takePacket 0x0B fn q k runResync s

/-- What an attestation covers: nonce, firmware measurement, M, partition and key erasures (R340). -/
def State.attested (s : State) (part : Nat) (nonce : List Byte) : List Byte :=
  nonce ++ toBytes 32 s.hub.firmware.toNat ++ toBytes 32 (SMap.get 0#256 s.keys.measures (s.partWorld part)).toNat ++
    toBytes 8 part ++ toBytes 8 s.keys.erasures

/-- The report: what it covers, then the signature of its digest. -/
def runAttest : CommandRun := fun s key q k =>
  if k.w1.toNat % 64 != 0 then some (s.completePacket key k stREFUSED 0 0)
  else
    let body := s.attested q.part (s.bytes (hostPlace k.w1.toNat) 64)
    let sig := ecdsaSign Config.attestKey (Config.attestNonce s.oracle) (ofBytesBE (sha256 body))
    let report := body ++ toBytes 32 sig.1 ++ toBytes 32 sig.2
    let s1 := ({ s with oracle := s.oracle + 1 }.carry k k.w1.toNat 64 false).carry k k.w2.toNat report.length true
    some ((s1.store (hostPlace k.w2.toNat) report).completePacket key k stOK 0 0)

def execAttest (fn q : Nat) (k : Packet) (s : State) : Host.Outcome State Fault Refusal :=
  takePacket 0x0C fn q k runAttest s

/-! ## Completion records and interrupts (R236, R337, R338) -/

/-- The oldest completion that a queue holds is written to the next slot of its ring; its interrupt follows. -/
def execCompletionRecord (fn q : Nat) (s : State) : Host.Outcome State Fault Refusal :=
  match SMap.find s.queues (queueKey fn q) with
  | none => .refused .notEnabled
  | some qi =>
    match qi.done with
    | [] => .refused .notEnabled
    | (record, irq, pasid) :: rest =>
      if !s.hub.linkUp then .refused .notEnabled
      else
        let addr := qi.cring + 32 * (qi.cslot % qi.size)
        let s1 := (s.store (hostPlace addr) record).carryFor pasid addr 32 true
        let s2 := s1.putQueue (queueKey fn q) { qi with cslot := qi.cslot + 1, done := rest }
        .next { s2 with irqs := if irq then s2.irqs ++ [(fn, qi.vec)] else s2.irqs }

/-- The key of an entry of the remapping table. -/
def irqKey (fn vec : Nat) : Nat := fn * 64 + vec % 64

def MsixEntry.empty : MsixEntry := ⟨0, 0, false, false, false⟩

/-- An interrupt request meets its entry of the remapping table. -/
def execInterruptRequest (fn vec : Nat) (s : State) : Host.Outcome State Fault Refusal :=
  if !s.irqs.contains (fn, vec) then .refused .notEnabled
  else
    let s1 := { s with irqs := s.irqs.erase (fn, vec) }
    let e := SMap.get MsixEntry.empty s.remap (irqKey fn vec)
    .next (if !e.v then s1.logHub (.irq fn vec)
      else if e.mask then { s1 with remap := SMap.put s1.remap (irqKey fn vec) { e with pend := true } }
      else { s1 with sent := s1.sent ++ [(e.addr, e.data)] })

/-- MASK of a remapping-table entry clears, and a request that it held is sent. -/
def execInterruptUnmask (fn vec : Nat) (s : State) : Host.Outcome State Fault Refusal :=
  match SMap.find s.remap (irqKey fn vec) with
  | none => .refused .notEnabled
  | some e =>
    let s1 := { s with remap := SMap.put s.remap (irqKey fn vec) { e with mask := false, pend := false } }
    .next (if e.v && e.pend then { s1 with sent := s1.sent ++ [(e.addr, e.data)] } else s1)

/-- An adapter slot is released and zeroed (R302, R348). -/
def execAdapterSlotRelease (part slot : Nat) (s : State) : Host.Outcome State Fault Refusal :=
  let p := s.partition part
  match SMap.find p.slots slot with
  | some _ => .next (s.setPartition part { p with slots := SMap.del p.slots slot })
  | none => .refused .notEnabled

end Sys2Proof.Machine
end

