-- ==== Sys2Proof/Machine/Hub.lean ====
section
/-! DEFINITION. The hub: boot, reset, alarms and power (R331, R347, R352 to R357), registers that the hypervisor core and the
service core write (R329, R344 to R346, R355), function-level reset (R349, R350), interchange messages (R339). -/
namespace Sys2Proof.Machine

/-! ## Boot and reset (R352, R353, R354) -/

/-- Storage that survives: device HBM, hypervisor memory and host memory. -/
def State.keepStacks (s : State) : State :=
  { s with
    mem := s.mem.filter (fun c => 2 ^ 60 ≤ c.1)
    form := s.form.filter (fun l => 2 ^ 54 ≤ l)
    poisoned := s.poisoned.filter (fun l => 2 ^ 54 ≤ l)
    uncorrectable := s.uncorrectable.filter (fun w => 2 ^ 57 ≤ w) }

/-- Every SRAM of R29 is zeroed: the cores with their register banks, instruction memories and control stores, the clusters
and the fitting stores (R353). -/
def State.zeroSrams (s : State) : State := { s.keepStacks with cores := [], clusters := [], dies := [] }

/-- The service core boots (R352, R353): in BOOT it checks the firmware of slots 0 and 1, in SELFTEST it tests the blocks and
releases the compute dies, with the device registers at their reset values (R16), no function assigned, or it enters the
safe state, in which the link trains (R354). -/
def execPowerOn (ok0 ok1 : Bool) (digest0 digest1 : BitVec 256) (fail : BitVec 46) (s : State) :
    Host.Outcome State Fault Refusal :=
  let h := s.hub
  if h.mbstate = 0 then
    if !ok0 && !ok1 then .next { s with hub := { h with boots := h.boots + 1, mbstate := 3, mbcause := 1, linkUp := true } }
    else .next { s with hub := { h with
      boots := h.boots + 1, mbstate := 1, firmware := if ok0 then digest0 else digest1 } }
  else if h.mbstate = 1 then
    let s1 := s.zeroSrams
    if fail != 0 then .next { s1 with hub := { h with mbstate := 3, mbcause := 2, mbfail := fail, linkUp := true } }
    else .next { s1 with
      now := 0, functions := [], partitions := []
      hub := { Hub.empty with
        boots := h.boots, firmware := h.firmware, mbstate := 2, log := h.log, eccS1 := h.eccS1, eccS2 := h.eccS2,
        eccS3 := h.eccS3, eccHbm := h.eccHbm, integHbm := h.integHbm } }
  else .refused .notEnabled

/-- A device reset starts boot anew. -/
def execDeviceReset (s : State) : Host.Outcome State Fault Refusal :=
  let t := s.keepStacks
  .next { State.reset with
    mem := t.mem, form := t.form, poisoned := t.poisoned, uncorrectable := t.uncorrectable
    oracle := s.oracle, images := s.images, inputs := s.inputs
    hub := { Hub.empty with boots := s.hub.boots } }

/-! ## Erasing keys (R282, R341, R347, R348) -/

/-- Everything of a world leaves a die's fitting engine. -/
def Die.dropWorld (d : Die) (w : Nat) : Die :=
  { d with
    regions := d.regions.filter (·.2.world != w), delivering := d.delivering.filter (·.world != w)
    ingress := d.ingress.filter (·.world != w), requests := d.requests.filter (·.world != w) }

/-- A world's keys and counters go, and with them its fitting entries and adapter slots. The counters are those of the
partition's contexts. -/
def State.eraseWorld (s : State) (part w : Nat) : State :=
  { s with
    keys := { s.keys with
      keys := SMap.del s.keys.keys w, seals := SMap.del s.keys.seals w
      saves := s.keys.saves.filter (fun p => p.1 / 2 ^ 32 % 256 != part % 256), erasures := s.keys.erasures + 1 }
    dies := s.dies.map (fun p => (p.1, p.2.dropWorld w))
    partitions := s.partitions.map (fun p => (p.1, { p.2 with slots := p.2.slots.filter (·.2.world != w) })) }

/-- A sensor leaves its band: the key store is erased, and the compute dies are held in reset (R347, R354). -/
def execSensorAlarm (s : State) : Host.Outcome State Fault Refusal :=
  let keys : KeyStore := { KeyStore.empty with erasures := s.keys.erasures + 1 }
  let parts := s.partitions.map (fun p => (p.1, { p.2 with slots := [] }))
  if s.hub.mbstate = 4 then .refused .notEnabled
  else if s.hub.mbstate = 3 then .next { s with keys := keys, partitions := parts, dies := [] }
  else
    .next { s with
      keys := keys, partitions := parts, cores := [], clusters := [], dies := [], arrivals := [], reports := []
      joins := [], collectives := [], launches := [], commands := [], tablets := [], fullSince := [], irqs := []
      hub := { s.hub with mbstate := 4, mbcause := 3, linkUp := true } }

/-! ## Power (R357) -/

/-- Each filter's burst grows by its rate at the end of a millisecond (R339). -/
def FilterEntry.refill (f : FilterEntry) : FilterEntry := { f with left := min f.burst (f.left + f.rate) }

/-- The end of a millisecond, with the input power averaged over it in units of 10 W. -/
def execPowerLoopTick (input : BitVec 16) (s : State) : Host.Outcome State Fault Refusal :=
  let h := s.hub
  let i := input.toNat
  let level := if h.pwrlim < i then min 5 (h.pwrLevel + 1)
    else if i * 100 < h.pwrlim * 95 then h.pwrLevel - 1 else h.pwrLevel
  .next { s with hub := { h with pwrLevel := level, pwrInput := input }, filters := s.filters.map FilterEntry.refill }

/-- The instantaneous input exceeds 7.5 kW. -/
def execOverpowerTrip (s : State) : Host.Outcome State Fault Refusal :=
  .next { s with hub := { s.hub with pwrLevel := 5 } }

/-- PWRLIM (R355). -/
def execPwrlimWrite (v : Word) (s : State) : Host.Outcome State Fault Refusal :=
  let limit := v.toNat % 65536
  .next (if 100 ≤ limit && limit ≤ 750 then { s with hub := { s.hub with pwrlim := limit } } else s)

/-! ## Partition registers (R329) -/

/-- A write that the hub ignores and logs. -/
def ignored (reg : Nat) (v : Word) (s : State) : Host.Outcome State Fault Refusal := .next (s.logHub (.refusedWrite reg v))

/-- Some platform of a half-cluster's cores is not EMPTY. -/
def State.halfInUse (s : State) (h : Nat) : Bool :=
  s.cores.any (fun k => halfClusterOf k.1 = h && (k.2.plats.any (fun p => p.2.state != .empty) || k.2.held != []))

/-- S2 of the half-clusters of a mask is zeroed (R328, R348). -/
def State.zeroS2 (s : State) (halves : Word) : State :=
  (List.range 48).foldl (fun s h =>
    if halves.getLsbD h then
      s.zeroPlaces (s2Place (h / 2) (h % 2 * 0x5000000)) (s2Place (h / 2) (h % 2 * 0x5000000 + 0x5000000))
    else s) s

/-- PHC: half-clusters change owner. -/
def execPhcWrite (part : Nat) (v : Word) (s : State) : Host.Outcome State Fault Refusal :=
  let q := s.partition part
  let new := v &&& 0xFFFFFFFFFFFF#64
  let gone := q.phc &&& ~~~new
  if !s.up || 48 ≤ part then .refused .notEnabled
  else if (List.range 48).any (fun h => gone.getLsbD h && s.halfInUse h) ||
      s.partitions.any (fun p => p.1 != part && p.2.phc &&& new != 0) then ignored 0 v s
  else .next ((s.zeroS2 gone).setPartition part { q with phc := new })

/-- S3 units of a partition's ranges that it holds no longer are zeroed. -/
def State.zeroS3 (s : State) (old new : Partition) : State :=
  old.s3Ranges.foldl (fun s r => (List.range (r.2.2 - r.2.1)).foldl (fun s i =>
    let u := r.2.1 + i
    if new.ownsS3 r.1 u (u + 1) then s else s.zeroPlaces (s3Place r.1 (u * 0x10000)) (s3Place r.1 ((u + 1) * 0x10000))) s) s

/-- Two S3 ranges overlap. -/
def s3Meet (a b : Nat × Nat × Nat) : Bool := a.1 = b.1 && a.2.1 < b.2.2 && b.2.1 < a.2.2

/-- PS3R0 to PS3R3. -/
def execPs3rWrite (part n : Nat) (v : Word) (s : State) : Host.Outcome State Fault Refusal :=
  let q := s.partition part
  let w := v &&& 0x8003FFFF0000FFFF#64
  let new := { q with ps3r := SMap.set 0#64 q.ps3r n w }
  if !s.up || 48 ≤ part || 4 ≤ n then .refused .notEnabled
  else if 28672 < (w.extractLsb' 32 16).toNat || s.partitions.any (fun p => p.1 != part && p.2.s3Ranges.any (fun a =>
      new.s3Ranges.any (s3Meet a))) then ignored (1 + n) v s
  else .next ((s.zeroS3 q new).setPartition part new)

/-- PQOS. -/
def execPqosWrite (part : Nat) (v : Word) (s : State) : Host.Outcome State Fault Refusal :=
  let quant := (v.extractLsb' 16 21).toNat
  if !s.up || 48 ≤ part then .refused .notEnabled
  else if quant < 1024 || 1048576 < quant then ignored 5 v s
  else .next (s.setPartition part { (s.partition part) with pqos := v &&& 0x1FFFFFFFFF#64 })

/-! ## TAGBASE and ZERO (R344, R345) -/

/-- Some valid window entry of the package names a protected frame of a stack. -/
def State.protMapped (s : State) (stack : Nat) : Bool :=
  s.cores.any (fun k => k.2.all.any (fun c => c.window.any (fun p =>
    entV p.2 && entProt p.2 && !entHost p.2 && entFrame p.2 % 8 = stack)))

/-- The first frame above a tag region. -/
def tagEnd (base frames : Nat) : Nat := if frames = 0 then base else base + 8 * ((frames * 655360 - 1) / 2 ^ 21) + 1

/-- TAGBASE of a stack. -/
def execTagbaseWrite (stack : Nat) (v : Word) (s : State) : Host.Outcome State Fault Refusal :=
  let base := (v.extractLsb' 0 18).toNat
  if !s.up || 8 ≤ stack then .refused .notEnabled
  else if base % 8 != stack || 262144 < tagEnd base (v.extractLsb' 48 15).toNat || s.protMapped stack then ignored (8 + stack) v s
  else .next { s with hub := { s.hub with tagbase := SMap.set 0#64 s.hub.tagbase stack (v &&& 0xFFFF00000003FFFF#64) } }

/-- HZCTL: GO starts the ZERO command (R345). -/
def execZero (v : Word) (s : State) : Host.Outcome State Fault Refusal :=
  let first := s.hub.hzframe.toNat
  let count := s.hub.hzcount.toNat
  if !s.up then .refused .notEnabled
  else if !v.getLsbD 0 then .next s
  else if s.hub.hzbusy.isSome || count = 0 || 262144 < first + count then ignored 16 v s
  else .next { s with hub := { s.hub with hzbusy := some (first, count) } }

/-- The frame whose metadata a byte of a tag region holds (R343, R344). -/
def State.metaFrame (s : State) (place : Nat) : Option Nat :=
  let f := (place - 2 ^ 60) / 2 ^ 21
  let t := SMap.get 0#64 s.hub.tagbase (f % 8)
  let base := (t.extractLsb' 0 18).toNat
  let b := (f - base) / 8 * 2 ^ 21 + place % 2 ^ 21
  if isHbmPlace place && t.getLsbD 63 && base ≤ f && b / 655360 < (t.extractLsb' 48 15).toNat then some (b / 655360 * 8 + f % 8)
  else none

/-- A place in device HBM whose frame, or the frame whose metadata it holds, satisfies a predicate. -/
def State.zeroesAt (s : State) (inRange : Nat → Bool) (place : Nat) : Bool :=
  (isHbmPlace place && inRange ((place - 2 ^ 60) / 2 ^ 21)) || ((s.metaFrame place).map inRange).getD false

/-- Frames of device HBM are zeroed, with the counters and tags of those that are covered. -/
def State.zeroFrames (s : State) (inRange : Nat → Bool) : State :=
  { s with
    mem := s.mem.filter (fun c => !s.zeroesAt inRange c.1)
    form := s.form.filter (fun l => !s.zeroesAt inRange (64 * l))
    poisoned := s.poisoned.filter (fun l => !s.zeroesAt inRange (64 * l))
    uncorrectable := s.uncorrectable.filter (fun w => !s.zeroesAt inRange (8 * w)) }

/-- Every write of the ZERO command has performed. -/
def execZeroComplete (s : State) : Host.Outcome State Fault Refusal :=
  match s.hub.hzbusy with
  | none => .refused .notEnabled
  | some (first, count) =>
    let s1 := s.zeroFrames (fun f => first ≤ f && f < first + count)
    .next ({ s1 with hub := { s1.hub with hzbusy := none } }.logHub .zeroDone)

/-! ## Registers without a row of their own, and reads (R15) -/

/-- Word i of a value of 128 bits or more replaced. -/
def putWord (old i : Nat) (v : Word) : Nat :=
  old - old / 2 ^ (64 * i) % 2 ^ 64 * 2 ^ (64 * i) + v.toNat * 2 ^ (64 * i)

/-- A queue interface's 32-byte entry (R333), as one number. -/
def HostQueue.entry (q : HostQueue) : Nat :=
  q.ring % 2 ^ 64 + q.cring % 2 ^ 64 * 2 ^ 64 +
    (q.size % 2 ^ 32 + q.vec % 2 ^ 8 * 2 ^ 32 + q.v.toNat * 2 ^ 40 + q.part % 2 ^ 16 * 2 ^ 48) * 2 ^ 128 +
    q.pasids % 2 ^ 64 * 2 ^ 192

/-- A queue interface that no entry describes yet. -/
def HostQueue.empty : HostQueue :=
  { ring := 0, cring := 0, size := 0, vec := 0, v := false, part := 0, pasids := 0, head := 0, tail := 0, cslot := 0, open_ := 0,
    done := [], waiting := false }

/-- The queue interface with an entry in place of its own (R333); one that comes into being starts with no packet. -/
def HostQueue.setEntry (q : HostQueue) (e : Nat) : HostQueue :=
  let f := e / 2 ^ 128
  { q with
    ring := e % 2 ^ 64, cring := e / 2 ^ 64 % 2 ^ 64, size := f % 2 ^ 32, vec := f / 2 ^ 32 % 64, v := f / 2 ^ 40 % 2 = 1
    part := f / 2 ^ 48 % 2 ^ 16, pasids := e / 2 ^ 192 % 2 ^ 64 }

/-- The 16 bytes of an entry of the remapping table (R338). -/
def MsixEntry.entry (e : MsixEntry) : Nat :=
  e.addr % 2 ^ 64 + (e.data.toNat + e.v.toNat * 2 ^ 32 + e.mask.toNat * 2 ^ 33 + e.pend.toNat * 2 ^ 34) * 2 ^ 64
def readMsix (e : Nat) : MsixEntry :=
  { addr := e % 2 ^ 64, data := BitVec.ofNat 32 (e / 2 ^ 64), v := e.testBit 96, mask := e.testBit 97, pend := e.testBit 98 }

/-- A collective group, its number of members (0) or a member: its package, core and platform (R299; log entry 88). -/
def State.readGroup (s : State) (part g i : Nat) : Nat :=
  let ms := ((SMap.find (s.partition part).groups g).map Group.members).getD []
  if i = 0 then ms.length
  else match ms[i - 1]? with
    | some m => m.1 * 2 ^ 32 + m.2.1 * 4 + m.2.2
    | none => 0

/-- The steward defines a group of 2 to 1024 members, or a member of one; any other number takes the group away (R299). -/
def State.writeGroup (s : State) (part g i : Nat) (v : Word) : State :=
  let q := s.partition part
  let ms := ((SMap.find q.groups g).map Group.members).getD []
  let n := v.toNat
  if i = 0 then
    s.setPartition part { q with groups :=
      if 2 ≤ n && n ≤ 1024 then SMap.put q.groups g ⟨(ms ++ List.replicate n (0, 0, 0)).take n⟩ else SMap.del q.groups g }
  else if i ≤ ms.length then
    s.setPartition part { q with groups := SMap.put q.groups g ⟨ms.set (i - 1) (n / 2 ^ 32, n % 2 ^ 32 / 4, n % 4)⟩ }
  else s

/-- The steward writes half a step of a program of its partition, one of 16 to 63 with up to 256 steps (R301). -/
def State.writeProgram (s : State) (part n i : Nat) (v : Word) : State :=
  let q := s.partition part
  let steps := (SMap.find q.programs n).getD []
  let more := steps ++ List.replicate (i / 2 + 1 - steps.length) 0#128
  if 16 ≤ n && n < 64 && i < 512 then
    s.setPartition part { q with
      programs := SMap.put q.programs n (more.set (i / 2) (BitVec.ofNat 128 (putWord (more.getD (i / 2) 0).toNat (i % 2) v))) }
  else s

/-- An entry of the filter table as 16 bytes (R339; log entry 88). -/
def FilterEntry.empty : FilterEntry := ⟨0, 0, 0, 0, 0, 0⟩
def FilterEntry.entry (f : FilterEntry) : Nat :=
  f.src % 2 ^ 16 + f.dst % 2 ^ 16 * 2 ^ 16 + f.maxSize % 2 ^ 16 * 2 ^ 32 + (f.rate % 2 ^ 32 + f.burst % 2 ^ 32 * 2 ^ 32) * 2 ^ 64
def readFilter (e : Nat) : FilterEntry :=
  let burst := e / 2 ^ 96 % 2 ^ 32
  ⟨e % 2 ^ 16, e / 2 ^ 16 % 2 ^ 16, e / 2 ^ 32 % 2 ^ 16, e / 2 ^ 64 % 2 ^ 32, burst, burst⟩

/-- A bounce channel's queue, as the hypervisor core has set it up (R351; log entry 60). -/
def Bounce.entry (b : Bounce) : Nat := match b.queue with
  | some k => 2 ^ 63 + k % 8
  | none => 0
def State.setBounce (s : State) (fn n : Nat) (v : Word) : State :=
  let key := bounceKey (fn * 65536) n
  { s with bounces := if v.getLsbD 63 then SMap.put s.bounces key ⟨0, 0, false, some (queueKey fn (v.toNat % 8)), none⟩
      else SMap.del s.bounces key }

/-- The hypervisor core hands the next packet of a bounce channel's queue, and with it the next slot, to a copy channel: the
device's produced counter goes on (R351; log entry 60). -/
def State.startSlot (s : State) (fn n core plat : Nat) : State :=
  let key := bounceKey (fn * 65536) n
  match SMap.find s.bounces key with
  | some b => match b.copy, b.queue.bind (fun k => (SMap.find s.queues k).map (fun q => (k, q))) with
    | none, some (k, q) =>
      if !b.aborted && q.mayStart (s.headPacket q) then
        { s.putQueue k { q with head := q.head + 1, open_ := q.open_ + 1 } with
          bounces := SMap.put s.bounces key { b with produced := b.produced + 1, copy := some (s.headPacket q, core, plat) } }
      else s
    | _, _ => s
  | none => s

/-- Reads of the management window (R355). -/
def State.window (s : State) (off : Nat) : Nat :=
  let h := s.hub
  if off = 0x000 then h.mbstate + h.mbcause * 256
  else if off = 0x008 then h.mbfail.toNat
  else if off = 0x010 then h.eccS1
  else if off = 0x018 then h.eccS2
  else if off = 0x020 then h.eccS3
  else if off = 0x028 then h.eccHbm + h.integHbm * 2 ^ 32
  else if off = 0x030 then h.pwrInput.toNat + h.pwrLevel * 65536
  else if off = 0x038 then h.pwrlim
  else 0

/-- What a read of a hub register or table returns (R15, R329, R345, R346). -/
def State.readHub (s : State) (r : HubReg) : Nat :=
  match r with
  | .pfq p => (s.partition p).pfq.toNat
  | .xl2base p => (s.partition p).xl2base.toNat
  | .xl2len p => (s.partition p).xl2len.toNat
  | .hzframe => s.hub.hzframe.toNat
  | .hzcount => s.hub.hzcount.toNat
  | .alarmcfg => s.hub.alarmcfg.toNat
  | .window off => s.window off
  | .function fn => match SMap.find s.functions fn with
    | some p => p + 2 ^ 63
    | none => 0
  | .queue fn q i => (SMap.get HostQueue.empty s.queues (queueKey fn q)).entry / 2 ^ (64 * i)
  | .remap fn vec i => (SMap.get MsixEntry.empty s.remap (irqKey fn vec)).entry / 2 ^ (64 * i)
  | .memory a => s.word (hvPlace a) 8
  | .group p g i => s.readGroup p g i
  | .program p n i => (((SMap.find (s.partition p).programs n).getD []).getD (i / 2) 0).toNat / 2 ^ (64 * (i % 2))
  | .filter n i => (s.filters.getD n .empty).entry / 2 ^ (64 * i)
  | .bounce fn n i => if i = 0 then ((SMap.find s.bounces (bounceKey (fn * 65536) n)).map Bounce.entry).getD 0 else 0
  | .host a => s.word (hostPlace a) 8

/-- The physical function (R331). -/
def physicalFunction : Nat := 256

/-- The word of its SR-IOV capability that holds the numbers of virtual functions, initial and in all: 256 of each, from the release
of the compute dies on (R352; log entry 9). -/
def State.sriov (s : State) : BitVec 32 := if s.up then 0x01000100#32 else 0#32

/-- A virtual function that a partition holds, in the running device, or the physical function (R331, R332, R354). -/
def State.present? (s : State) (fn : Nat) : Bool := fn = physicalFunction || (s.up && (SMap.find s.functions fn).isSome)

/-- A read of the notify page or of the rest of BAR0 (R331, R334). -/
def State.readNotify (s : State) (fn off : Nat) : Nat :=
  if off < 4096 && off % 512 = 4 then
    (SMap.get HostQueue.empty s.queues (queueKey fn (off / 512 % 8))).head.toNat
  else 0

/-- What a read from outside returns: RW, RO and W1C fields as they are, WO ones as zero (R15). -/
def State.readOutside (s : State) (r : OutsideRead) : Nat :=
  match r with
  | .config fn off =>
    (if fn = physicalFunction && off = Config.sriov then s.sriov
      else if s.present? fn then Config.configSpace fn off else 0xFFFFFFFF#32).toNat
  | .bar0 fn off => if s.present? fn then s.readNotify fn off else 2 ^ 64 - 1
  | .hub h => s.readHub h
  | .phc p => (s.partition p).phc.toNat
  | .ps3r p n => (SMap.get 0#64 (s.partition p).ps3r n).toNat
  | .pqos p => (s.partition p).pqos.toNat
  | .tagbase st => (SMap.get 0#64 s.hub.tagbase st).toNat
  | .hzctl => s.hub.hzbusy.isSome.toNat * 2

/-- A write of the management window, whose one RW register is PWRLIM (R355). -/
def State.writeWindow (s : State) (off : Nat) (v : Word) : Host.Outcome State Fault Refusal :=
  if off = 0x038 then execPwrlimWrite v s else .next s

/-- A write of a hub register, or by the hypervisor core, the steward or the host of a table or of memory, where the compute dies
run; a remapping entry whose MASK clears sends what it held back (R338). -/
def State.writeHub (s : State) (r : HubReg) (v : Word) : State :=
  match r with
  | .pfq part => s.setPartition part { (s.partition part) with pfq := v &&& 0xF000FFFFFFFFFFE0#64 }
  | .xl2base part => s.setPartition part { (s.partition part) with xl2base := v &&& 0xFFFFFFFFF000#64 }
  | .xl2len part => s.setPartition part { (s.partition part) with xl2len := v &&& 0x3FFFFF#64 }
  | .hzframe => { s with hub := { s.hub with hzframe := v &&& 0x3FFFF#64 } }
  | .hzcount => { s with hub := { s.hub with hzcount := v &&& 0x7FFFF#64 } }
  | .alarmcfg => { s with hub := { s.hub with alarmcfg := v &&& 3#64 } }
  | .window _ => s
  | .function fn =>
    { s with functions := if v.getLsbD 63 then SMap.put s.functions fn (v.toNat % 48) else SMap.del s.functions fn }
  | .queue fn q i =>
    let o := SMap.get HostQueue.empty s.queues (queueKey fn q)
    s.putQueue (queueKey fn q) (o.setEntry (putWord o.entry i v))
  | .remap fn vec i =>
    let o := SMap.get MsixEntry.empty s.remap (irqKey fn vec)
    let e := readMsix (putWord o.entry i v)
    let sends := o.mask && !e.mask && e.v && (o.pend || e.pend)
    { s with
      remap := SMap.put s.remap (irqKey fn vec) (if sends then { e with pend := false } else e)
      sent := if sends then s.sent ++ [(e.addr, e.data)] else s.sent }
  | .memory a => s.store (hvPlace a) (toBytes 8 v.toNat)
  | .group p g i => s.writeGroup p g i v
  | .program p n i => s.writeProgram p n i v
  | .filter n i =>
    let fs := s.filters ++ List.replicate (n + 1 - s.filters.length) FilterEntry.empty
    { s with filters := fs.set n (readFilter (putWord (fs.getD n .empty).entry i v)) }
  | .bounce fn n i => if i = 0 then s.setBounce fn n v else s.startSlot fn n (v.toNat % 1536 / 4) (v.toNat % 4)
  | .host a => s.store (hostPlace a) (toBytes 8 v.toNat)

/-- A write of a register of the hub, or of a control register by the running context (R201, R315, R345, R346, R355, R435). -/
def execRegisterWrite (r : RegTarget) (v : Word) (s : State) : Host.Outcome State Fault Refusal :=
  match r with
  | .ctx n => setcAlone n v s
  | .hub (.window off) => s.writeWindow off v
  | .hub h => if !s.up then .refused .notEnabled else .next (s.writeHub h v)

/-! ## The link and its functions (R331, R332, R346) -/

def State.answer (s : State) (a : Answer) : State := { s with answers := s.answers ++ [a] }

/-- A flit is undelivered after 16 retries: the link is down, and every function reports completion timeout. -/
def execLinkRetryExhausted (s : State) : Host.Outcome State Fault Refusal :=
  if !s.hub.linkUp then .refused .notEnabled
  else .next { s with
    hub := { s.hub with linkUp := false }, answers := s.answers ++ (List.range 257).map .timeout }

/-- A read comes over the link, and not from the hub's own cores. -/
def overLink : OutsideRead → Bool
  | .config .. | .bar0 .. => true
  | .hub r => match r with
    | .window _ => true
    | .pfq _ | .xl2base _ | .xl2len _ | .hzframe | .hzcount | .alarmcfg | .function _ | .queue .. | .remap .. | .memory _
    | .group .. | .program .. | .filter .. | .bounce .. | .host _ => false
  | .phc _ | .ps3r .. | .pqos _ | .tagbase _ | .hzctl => false

/-- A read from outside is answered: a configuration request from the firmware tables of the hypervisor core, where a virtual
function that no partition holds reads as absent (R332); the notify page, the management window and the hub registers have
no row of their own (R15, R334, R355). -/
def execConfigRequest (r : OutsideRead) (s : State) : Host.Outcome State Fault Refusal :=
  if overLink r && !s.hub.linkUp then .refused .notEnabled
  else .next (s.answer (.read r (BitVec.ofNat 64 (s.readOutside r))))

/-- A request reaches a resource that its requester does not own (R346). -/
def execRefusedAccess (requester : Nat) (write : Bool) (s : State) : Host.Outcome State Fault Refusal :=
  if !s.up then .refused .notEnabled
  else
    let s1 := if s.hub.alarmcfg.getLsbD 1 then s.logHub (.access requester) else s
    .next (s1.answer (if s.hub.alarmcfg.getLsbD 0 then .faulted requester
      else if write then .dropped requester else .allOnes requester))

/-! ## Interchange (R339, R342) -/

/-- The runs of guest-physical addresses of a partition, each in one line, as places; none where some line has no place. -/
def State.guestRuns (s : State) (part gpa n : Nat) (write : Bool) : Option (List (Nat × Nat)) :=
  (runLines gpa n).mapM (fun l => (s.guestPlace part l.1 write).map (fun p => (p, l.2)))

/-- Source and destination of a message, where both partitions can reach them. -/
def State.messageRuns (s : State) (m : Message) : Option (List (Nat × Nat) × List (Nat × Nat)) :=
  match s.guestRuns m.src m.srcAddr m.size false, s.guestRuns m.dst m.dstAddr m.size true with
  | some a, some b => some (a, b)
  | _, _ => none

/-- A message's lines may be copied with their form bits: a ciphertext line whole, from a line's start to a line's start, a
part of a ciphertext line nowhere, and a plaintext line to no other world (R193, R339, R342). -/
def State.mayCopy (s : State) (m : Message) (runs : List (Nat × Nat) × List (Nat × Nat)) : Bool :=
  let cipher (r : Nat × Nat) : Bool := s.isCipher (r.1 / 64)
  runs.1.all (fun r => if cipher r then r.2 = 64 && m.srcAddr % 64 = m.dstAddr % 64 else !m.otherWorld) &&
    runs.2.all (fun r => !cipher r || r.2 = 64)

/-- The bytes of runs. -/
def State.bytesAt (s : State) (runs : List (Nat × Nat)) : List Byte := runs.flatMap (fun r => s.bytes r.1 r.2)

/-- Write bytes over runs; the lines in ciphertext form of the source keep it. -/
def State.putRuns (s : State) (cipher : List Nat) : List (Nat × Nat) → List Byte → State
  | [], _ => s
  | (p, n) :: rest, bs =>
    (s.storeRaw p (bs.take n) (if cipher.contains p then [p / 64] else [])).putRuns cipher rest (bs.drop n)

/-- The destinations of a message's ciphertext lines. -/
def State.cipherDests (s : State) (runs : List (Nat × Nat) × List (Nat × Nat)) : List Nat :=
  ((runs.1.zip runs.2).filter (fun p => s.isCipher (p.1.1 / 64))).map (·.2.1)

/-- A message is refused: it is dropped, counted and logged, and the sender's command completes with FILTERED. -/
def State.refuseMessage (s : State) (m : Message) : State :=
  let s1 := (s.logHub (.filtered m.src m.dst)).answer (.filtered m.src m.dst)
  ({ s1 with hub := { s1.hub with refusals := s1.hub.refusals + 1 } }).completePacket (queueKey m.fn m.q) m.packet stFILTERED 0 0

/-- An entry of the filter table lets a message pass now. -/
def FilterEntry.passes (f : FilterEntry) (m : Message) : Bool :=
  f.src = m.src && f.dst = m.dst && m.size ≤ min f.maxSize 4096 && f.left != 0 && f.burst ≤ 64

/-- A message that leaves one partition or world for another. -/
def execInterchangeMessage (m : Message) (s : State) : Host.Outcome State Fault Refusal :=
  if !s.up then .refused .notEnabled
  else match s.filters.findIdx? (·.passes m), s.messageRuns m with
    | some i, some runs =>
      if !s.mayCopy m runs then .next (s.refuseMessage m)
      else
        let s1 := s.putRuns (s.cipherDests runs) runs.2 (s.bytesAt runs.1)
        let s2 : State := { s1 with
          filters := s.filters.zipIdx.map (fun p => if p.2 = i then { p.1 with left := p.1.left - 1 } else p.1) }
        .next (s2.completePacket (queueKey m.fn m.q) m.packet stOK 0 0)
    | _, _ => .next (s.refuseMessage m)

/-! ## Function-level reset (R349, R350) -/

/-- The packets of a queue that have not started complete with REFUSED. -/
def State.refuseQueue (s : State) (key : Nat) (q : HostQueue) : State :=
  let n := (q.tail - q.head).toNat
  let ks := (List.range n).map (fun i => s.headPacket { q with head := q.head + BitVec.ofNat 32 i })
  ks.foldl (fun t k => t.completePacket key k stREFUSED 0 0) (s.putQueue key { q with head := q.tail, open_ := q.open_ + n })

/-- A launch of a function under reset: one that waits or loads ends, the contexts of a running one that are on no platform
leave it. -/
def State.removeLaunch (s : State) (l : Launch) : State :=
  if l.phase = 0 then (s.endLaunch l stREFUSED 0).letOn l.queue
  else if l.phase = 1 then s.failLaunch l 0
  else
    let off := s.cores.flatMap (fun k => (k.2.held.map (fun h => (h.ctx.gang, h.ctx.ctxid))) ++
      k.2.away.map (fun a => (a.gang, a.ctxid)))
    (off.filter (fun p => p.1 = l.id)).foldl (fun t p => t.leaveGang p.1 p.2) s

/-- The running channels of held and saved contexts of some gangs report ABORT on their waybills (R293, R349). -/
def State.abortOff (s : State) (gangs : List Nat) : State :=
  s.cores.foldl (fun t k =>
    let off := k.2.held.map (fun h => (h.plat, h.ctx.gang, h.ctx.chan)) ++ k.2.away.map (fun a => (a.plat, a.gang, a.chan))
    (off.filter (fun p => gangs.contains p.2.1)).foldl (fun t p => match p.2.2.state, p.2.2.cur with
      | .run, some (w, _) => t.waybillReport k.1 p.1 { Ctx.empty with gang := p.2.1, chan := p.2.2 } w 0 rABORT
      | _, _ => t) t) s

/-- Held and saved contexts of a partition's launches are forgotten, their banks zeroed (R348), and no platform waits for one
of them. -/
def State.dropOff (s : State) (gangs : List Nat) : State :=
  s.cores.foldl (fun t k =>
    let core := t.core k.1
    let out := core.held.filter (fun h => gangs.contains h.ctx.gang)
    let t1 := t.setCore k.1 { core with
      held := core.held.filter (fun h => !gangs.contains h.ctx.gang), away := core.away.filter (fun a => !gangs.contains a.gang) }
    out.foldl (fun t h =>
      let t2 := t.zeroBanks k.1 (h.ctx.creg 0x020)
      if (t2.ctx k.1 h.plat).state == .loading && (t2.restores k.1 h.plat true).isEmpty then
        (t2.clearPlatform k.1 h.plat).drainCore k.1
      else t2) t1) s

/-- The context of a platform is of a partition, and may be stopped: a load or a restore under way ends first (R62). -/
def State.mayStop (s : State) (part core plat : Nat) : Bool :=
  let c := s.ctx core plat
  c.part = part && c.state != .empty && c.state != .loading && !c.killPending

/-- Contexts of a partition on platforms are stopped; one that is being saved stops when its save ends, and a SAVE that has not
begun is refused (R62). -/
def State.stopAll (s : State) (part : Nat) : State :=
  (s.cores.flatMap (fun k => k.2.plats.map (fun p => (k.1, p.1)))).foldl (fun t p =>
    let c := t.ctx p.1 p.2
    if !t.mayStop part p.1 p.2 then t
    else if c.state == .saving then t.setCtx p.1 p.2 { c with killPending := true }
    else match t.underWay 6 p.1 p.2 with
      | some r => (t.finish r stREFUSED 0 (p.1 * 4 + p.2)).stopForKill p.1 p.2
      | none => t.stopForKill p.1 p.2) s

/-- RESTORE commands of a partition that have not begun are refused. -/
def State.refuseRestores (s : State) (part : Nat) : State :=
  (s.commands.filter (fun r => r.packet.op = 7#8 && r.waits = [] &&
    ((SMap.find s.queues r.queue).map HostQueue.part) = some part)).foldl (fun t r =>
      t.finish r stREFUSED 0 r.packet.w0.toNat) s

/-- The queues of a function. -/
def State.queuesOf (s : State) (fn : Nat) : SMap HostQueue := s.queues.filter (fun p => p.1 / 65536 = fn)

/-- Step 1: the notify page drops writes, and packets not yet started complete with REFUSED. -/
def State.beginReset (s : State) (fn : Nat) : State :=
  (s.queuesOf fn).foldl (fun t p => t.refuseQueue p.1 p.2) { s with resetting := insertNat s.resetting fn }

/-- Step 1 is over: the records of its packets are written. -/
def State.refusedAll (s : State) (fn : Nat) : Bool := (s.queuesOf fn).all (fun p => p.2.done.isEmpty)

/-- The contexts of a partition are being removed. -/
def State.removePart (s : State) (part : Nat) : State :=
  let ls := s.launches.filter (fun l => l.part = part)
  let s1 := ls.foldl State.removeLaunch (s.abortOff (ls.map (·.id)))
  ((s1.dropOff (ls.map (·.id))).refuseRestores part).stopAll part

/-- Step 2: contexts are being removed, channels report ABORT, and copies of bounce channels are aborted. -/
def State.removeAll (s : State) (fn : Nat) (part : Option Nat) : State :=
  let s2 := match part with
    | some p => s.removePart p
    | none => s
  { s2.abortCopies (fun n _ _ => n / 65536 = fn) with removing := insertNat s2.removing fn }

/-- A context of the partition that a load or restore has kept from being stopped may be stopped now. -/
def State.someStops (s : State) (part : Nat) : Bool :=
  s.cores.any (fun k => k.2.plats.any (fun p => s.mayStop part k.1 p.1))

/-- Nothing of a partition runs any more. -/
def State.emptied (s : State) (part : Nat) : Bool :=
  !s.launches.any (fun l => l.part = part) &&
    !s.cores.any (fun k => k.2.plats.any (fun p => p.2.state != .empty && p.2.part = part))

/-- Device frames that a partition's second stage names. -/
def State.framesOf (s : State) (part : Nat) : List Nat :=
  (List.range (s.partition part).l2len).filterMap (fun f => match s.stage2 part f with
    | some e => if entV e && !entHost e then some (entFrame e) else none
    | none => none)

/-- Steps 3 to 5 for a partition: second-stage entries are revoked, keys erased, storage zeroed. -/
def State.clearPart (s : State) (fn part : Nat) : State :=
  let q := s.partition part
  let frames := s.framesOf part
  let s1 := s.zeroPlaces (hvPlace q.l2base) (hvPlace (q.l2base + 4 * q.l2len))
  let others := s.functions.filter (fun f => f.1 != fn)
  let lone := q.worlds.filter (fun w => !others.any (fun f => (s.partition f.2).worlds.contains w))
  let s2 := lone.foldl (fun t w => t.eraseWorld part w) s1
  let s3 := (s2.zeroS2 q.phc).zeroS3 q { q with ps3r := [] }
  let s4 := ((List.range 64).foldl (fun t p =>
    t.zeroPlaces (collPlace part p 0) (collPlace part p 0 + (collArea part p).2)) s3).zeroFrames frames.contains
  s4.setPartition part { (s4.partition part) with worlds := [] }

/-- Step 6: what is pending for the function is cleared, and the reset is complete (R350). -/
def State.endReset (s : State) (fn : Nat) (part : Option Nat) : State :=
  let t := match part with
    | some p => s.clearPart fn p
    | none => s
  { t with
    resetting := eraseNat t.resetting fn, removing := eraseNat t.removing fn, irqs := t.irqs.filter (fun i => i.1 != fn)
    remap := t.remap.map (fun (p : Nat × MsixEntry) => (p.1, if p.1 / 64 = fn then { p.2 with pend := false } else p.2)) : State
  }.answer (.resetDone fn)

/-- A function-level reset of a virtual function that a partition holds, of one that none does, or of the physical function: it
begins; once its waiting packets are refused its contexts are removed; once they have gone, it ends. -/
def execFunctionLevelReset (fn : Nat) (s : State) : Host.Outcome State Fault Refusal :=
  let part := SMap.find s.functions fn
  if !s.up then .refused .notEnabled
  else if !s.resetting.contains fn then .next (s.beginReset fn)
  else if !s.removing.contains fn then
    (if s.refusedAll fn then .next (s.removeAll fn part) else .refused .notEnabled)
  else if part.all s.emptied then .next (s.endReset fn part)
  else if part.any s.someStops then .next (s.removePart (part.getD 0))
  else .refused .notEnabled

end Sys2Proof.Machine
end

