-- ==== Sys2Proof/Machine/StitchOps.lean ====
section
/-! DEFINITION. Each stitch operation alone: one cycle of the focus core's routine on a stitch that holds nothing else
(R160 to R175). -/
namespace Sys2Proof.Machine

/-- One cycle of the focus core's routine on a given stitch. -/
def oneStitch (st : Stitch) (s : State) : Host.Outcome State Fault Refusal :=
  match (s.core s.focus.1).routine with
  | some r =>
    if r.plat = s.focus.2 ∧ r.next ≤ s.now ∧ !r.ended then .next (s.microCycle s.focus.1 r (some (st, [])))
    else .refused .notEnabled
  | none => .refused .notEnabled

/-- A stitch of one lane operation. -/
def laneOnly (op : Nat) (l : LaneArgs) : Stitch := { romIdle with lane := some (op, l), neg := l, lit := l.lit }
def aguOnly (op : Nat) (u : AguArgs) : Stitch := { romIdle with agu := some (op, u) }
def tileOnly (op : Nat) (t : TileArgs) : Stitch := { romIdle with tile := some (op, t) }

/-! ## Sequencer (R163) -/

def execSeqJump (target : BitVec 13) (s : State) : Host.Outcome State Fault Refusal :=
  oneStitch { romIdle with seq := .jump target } s
def execSeqBrif (c : Cond) (target : BitVec 13) (s : State) : Host.Outcome State Fault Refusal :=
  oneStitch { romIdle with seq := .brif c target } s
def execSeqLoop (n : BitVec 2) (target : BitVec 13) (s : State) : Host.Outcome State Fault Refusal :=
  oneStitch { romIdle with seq := .loop n target } s
def execSeqCallrom (target : BitVec 13) (s : State) : Host.Outcome State Fault Refusal :=
  oneStitch { romIdle with seq := .callrom target } s
def execSeqRetrom (s : State) : Host.Outcome State Fault Refusal := oneStitch { romIdle with seq := .retrom } s
def execSeqEnd (s : State) : Host.Outcome State Fault Refusal := oneStitch { romIdle with seq := .stop } s
def execSeqRaise (c : Cond) (code : BitVec 13) (s : State) : Host.Outcome State Fault Refusal :=
  oneStitch { romIdle with seq := .raise c code } s

/-! ## Lane operations (R166 to R170) -/

def execLaneMov (l : LaneArgs) (s : State) : Host.Outcome State Fault Refusal := oneStitch (laneOnly 0x01 l) s
def execLaneAdd (l : LaneArgs) (s : State) : Host.Outcome State Fault Refusal := oneStitch (laneOnly 0x02 l) s
def execLaneSub (l : LaneArgs) (s : State) : Host.Outcome State Fault Refusal := oneStitch (laneOnly 0x03 l) s
def execLaneMul (l : LaneArgs) (s : State) : Host.Outcome State Fault Refusal := oneStitch (laneOnly 0x04 l) s
def execLaneFma (l : LaneArgs) (s : State) : Host.Outcome State Fault Refusal := oneStitch (laneOnly 0x05 l) s
def execLaneFnma (l : LaneArgs) (s : State) : Host.Outcome State Fault Refusal := oneStitch (laneOnly 0x06 l) s
def execLaneHorn (l : LaneArgs) (s : State) : Host.Outcome State Fault Refusal := oneStitch (laneOnly 0x07 l) s
def execLaneMin (l : LaneArgs) (s : State) : Host.Outcome State Fault Refusal := oneStitch (laneOnly 0x08 l) s
def execLaneMax (l : LaneArgs) (s : State) : Host.Outcome State Fault Refusal := oneStitch (laneOnly 0x09 l) s
def execLaneAbs (l : LaneArgs) (s : State) : Host.Outcome State Fault Refusal := oneStitch (laneOnly 0x0A l) s
def execLaneNeg (l : LaneArgs) (s : State) : Host.Outcome State Fault Refusal := oneStitch (laneOnly 0x0B l) s
def execLaneClmps (l : LaneArgs) (s : State) : Host.Outcome State Fault Refusal := oneStitch (laneOnly 0x0C l) s
def execLaneAnd (l : LaneArgs) (s : State) : Host.Outcome State Fault Refusal := oneStitch (laneOnly 0x0D l) s
def execLaneOr (l : LaneArgs) (s : State) : Host.Outcome State Fault Refusal := oneStitch (laneOnly 0x0E l) s
def execLaneXor (l : LaneArgs) (s : State) : Host.Outcome State Fault Refusal := oneStitch (laneOnly 0x0F l) s
def execLaneShl (l : LaneArgs) (s : State) : Host.Outcome State Fault Refusal := oneStitch (laneOnly 0x10 l) s
def execLaneShr (l : LaneArgs) (s : State) : Host.Outcome State Fault Refusal := oneStitch (laneOnly 0x11 l) s
def execLaneSra (l : LaneArgs) (s : State) : Host.Outcome State Fault Refusal := oneStitch (laneOnly 0x12 l) s
def execLaneCmplt (l : LaneArgs) (s : State) : Host.Outcome State Fault Refusal := oneStitch (laneOnly 0x13 l) s
def execLaneCmple (l : LaneArgs) (s : State) : Host.Outcome State Fault Refusal := oneStitch (laneOnly 0x14 l) s
def execLaneCmpeq (l : LaneArgs) (s : State) : Host.Outcome State Fault Refusal := oneStitch (laneOnly 0x15 l) s
def execLaneSel (l : LaneArgs) (s : State) : Host.Outcome State Fault Refusal := oneStitch (laneOnly 0x16 l) s
def execLaneSelz (l : LaneArgs) (s : State) : Host.Outcome State Fault Refusal := oneStitch (laneOnly 0x17 l) s
def execLaneRndi (l : LaneArgs) (s : State) : Host.Outcome State Fault Refusal := oneStitch (laneOnly 0x18 l) s
def execLaneCvt (l : LaneArgs) (s : State) : Host.Outcome State Fault Refusal := oneStitch (laneOnly 0x19 l) s
def execLaneScalb (l : LaneArgs) (s : State) : Host.Outcome State Fault Refusal := oneStitch (laneOnly 0x1A l) s
def execLaneMantc (l : LaneArgs) (s : State) : Host.Outcome State Fault Refusal := oneStitch (laneOnly 0x1B l) s
def execLaneExpc (l : LaneArgs) (s : State) : Host.Outcome State Fault Refusal := oneStitch (laneOnly 0x1C l) s
def execLaneRcpe (l : LaneArgs) (s : State) : Host.Outcome State Fault Refusal := oneStitch (laneOnly 0x1D l) s
def execLaneRsqe (l : LaneArgs) (s : State) : Host.Outcome State Fault Refusal := oneStitch (laneOnly 0x1E l) s
def execLaneRecs (l : LaneArgs) (s : State) : Host.Outcome State Fault Refusal := oneStitch (laneOnly 0x1F l) s
def execLaneRsqs (l : LaneArgs) (s : State) : Host.Outcome State Fault Refusal := oneStitch (laneOnly 0x20 l) s
def execLaneResd (l : LaneArgs) (s : State) : Host.Outcome State Fault Refusal := oneStitch (laneOnly 0x21 l) s
def execLaneFixrcp (l : LaneArgs) (s : State) : Host.Outcome State Fault Refusal := oneStitch (laneOnly 0x22 l) s
def execLaneFixrsq (l : LaneArgs) (s : State) : Host.Outcome State Fault Refusal := oneStitch (laneOnly 0x23 l) s
def execLaneFixlog (l : LaneArgs) (s : State) : Host.Outcome State Fault Refusal := oneStitch (laneOnly 0x24 l) s
def execLaneNcdf (l : LaneArgs) (s : State) : Host.Outcome State Fault Refusal := oneStitch (laneOnly 0x25 l) s
def execLaneNpdf (l : LaneArgs) (s : State) : Host.Outcome State Fault Refusal := oneStitch (laneOnly 0x26 l) s
def execLaneNscl (l : LaneArgs) (s : State) : Host.Outcome State Fault Refusal := oneStitch (laneOnly 0x27 l) s
def execLaneRadd (l : LaneArgs) (s : State) : Host.Outcome State Fault Refusal := oneStitch (laneOnly 0x28 l) s
def execLaneRmax (l : LaneArgs) (s : State) : Host.Outcome State Fault Refusal := oneStitch (laneOnly 0x29 l) s
def execLaneBce (l : LaneArgs) (s : State) : Host.Outcome State Fault Refusal := oneStitch (laneOnly 0x2A l) s
def execLaneNetu (l : LaneArgs) (s : State) : Host.Outcome State Fault Refusal := oneStitch (laneOnly 0x2B l) s
def execLaneFmab (l : LaneArgs) (s : State) : Host.Outcome State Fault Refusal := oneStitch (laneOnly 0x2C l) s

/-! ## Address generator, tile and miscellaneous fields (R171 to R173) -/

def execAguLd (u : AguArgs) (s : State) : Host.Outcome State Fault Refusal := oneStitch (aguOnly 1 u) s
def execAguSt (u : AguArgs) (s : State) : Host.Outcome State Fault Refusal := oneStitch (aguOnly 2 u) s
def execAguLdc (u : AguArgs) (s : State) : Host.Outcome State Fault Refusal := oneStitch (aguOnly 3 u) s
def execAguStc (u : AguArgs) (s : State) : Host.Outcome State Fault Refusal := oneStitch (aguOnly 4 u) s
def execTileFeed (t : TileArgs) (s : State) : Host.Outcome State Fault Refusal := oneStitch (tileOnly 1 t) s
def execTileDrow (t : TileArgs) (s : State) : Host.Outcome State Fault Refusal := oneStitch (tileOnly 2 t) s
def execTileFrow (t : TileArgs) (s : State) : Host.Outcome State Fault Refusal := oneStitch (tileOnly 3 t) s

/-- CLD of a literal, or of K (R173). -/
def execMiscCld (n : BitVec 2) (lit : Option (BitVec 16)) (s : State) : Host.Outcome State Fault Refusal :=
  oneStitch { romIdle with cld := some n, lit := lit.map (fun v => v.zeroExtend 32) } s
def execMiscRpop (s : State) : Host.Outcome State Fault Refusal := oneStitch { romIdle with rpop := true } s
def execMiscNegin (l : LaneArgs) (s : State) : Host.Outcome State Fault Refusal :=
  oneStitch { romIdle with negin := true, neg := l, lit := l.lit } s
def execMiscNegchk (l : LaneArgs) (s : State) : Host.Outcome State Fault Refusal :=
  oneStitch { romIdle with negchk := true, neg := l, lit := l.lit } s

end Sys2Proof.Machine
end

