-- ==== Sys2Proof/Machine/Dispatch.lean ====
section
/-! DEFINITION. One arm per instruction or step of spec/opcode_table.json: the meaning it calls. -/
namespace Sys2Proof.Machine

/-- The effect of one instruction or step on the state. -/
def exec (i : Instr) (s : State) : Host.Outcome State Fault Refusal :=
  match i with
  | .nop => Sys2Proof.Machine.execNop s
  | .br g off => Sys2Proof.Machine.execBr g off s
  | .brx g xa => Sys2Proof.Machine.execBrx g xa s
  | .call g off => Sys2Proof.Machine.execCall g off s
  | .callx g xa => Sys2Proof.Machine.execCallx g xa s
  | .ret g => Sys2Proof.Machine.execRet g s
  | .halt g => Sys2Proof.Machine.execHalt g s
  | .yield g => Sys2Proof.Machine.execYield g s
  | .park g => Sys2Proof.Machine.execPark g s
  | .tret g => Sys2Proof.Machine.execTret g s
  | .axleave g => Sys2Proof.Machine.execAxleave g s
  | .loop g xa off => Sys2Proof.Machine.execLoop g xa off s
  | .loopi g count off => Sys2Proof.Machine.execLoopi g count off s
  | .trap g imm => Sys2Proof.Machine.execTrap g imm s
  | .svc g imm => Sys2Proof.Machine.execSvc g imm s
  | .fence g pred succ scope => Sys2Proof.Machine.execFence g pred succ scope s
  | .drain g scope => Sys2Proof.Machine.execDrain g scope s
  | .barc g xa => Sys2Proof.Machine.execBarc g xa s
  | .axenter g id off => Sys2Proof.Machine.execAxenter g id off s
  | .getc g xd creg => Sys2Proof.Machine.execGetc g xd creg s
  | .setc g creg xa => Sys2Proof.Machine.execSetc g creg xa s
  | .setci g creg imm => Sys2Proof.Machine.execSetci g creg imm s
  | .add g xd xa xb => Sys2Proof.Machine.execAdd g xd xa xb s
  | .sub g xd xa xb => Sys2Proof.Machine.execSub g xd xa xb s
  | .addi g xd xa imm => Sys2Proof.Machine.execAddi g xd xa imm s
  | .mul g xd xa xb => Sys2Proof.Machine.execMul g xd xa xb s
  | .mulh g xd xa xb => Sys2Proof.Machine.execMulh g xd xa xb s
  | .mulhu g xd xa xb => Sys2Proof.Machine.execMulhu g xd xa xb s
  | .div g xd xa xb => Sys2Proof.Machine.execDiv g xd xa xb s
  | .divu g xd xa xb => Sys2Proof.Machine.execDivu g xd xa xb s
  | .rem g xd xa xb => Sys2Proof.Machine.execRem g xd xa xb s
  | .remu g xd xa xb => Sys2Proof.Machine.execRemu g xd xa xb s
  | .and g xd xa xb => Sys2Proof.Machine.execAnd g xd xa xb s
  | .or g xd xa xb => Sys2Proof.Machine.execOr g xd xa xb s
  | .xor g xd xa xb => Sys2Proof.Machine.execXor g xd xa xb s
  | .andi g xd xa imm => Sys2Proof.Machine.execAndi g xd xa imm s
  | .ori g xd xa imm => Sys2Proof.Machine.execOri g xd xa imm s
  | .xori g xd xa imm => Sys2Proof.Machine.execXori g xd xa imm s
  | .shl g xd xa xb => Sys2Proof.Machine.execShl g xd xa xb s
  | .shr g xd xa xb => Sys2Proof.Machine.execShr g xd xa xb s
  | .sra g xd xa xb => Sys2Proof.Machine.execSra g xd xa xb s
  | .shli g xd xa imm => Sys2Proof.Machine.execShli g xd xa imm s
  | .shri g xd xa imm => Sys2Proof.Machine.execShri g xd xa imm s
  | .srai g xd xa imm => Sys2Proof.Machine.execSrai g xd xa imm s
  | .min g xd xa xb => Sys2Proof.Machine.execMin g xd xa xb s
  | .max g xd xa xb => Sys2Proof.Machine.execMax g xd xa xb s
  | .minu g xd xa xb => Sys2Proof.Machine.execMinu g xd xa xb s
  | .maxu g xd xa xb => Sys2Proof.Machine.execMaxu g xd xa xb s
  | .clz g xd xa => Sys2Proof.Machine.execClz g xd xa s
  | .popc g xd xa => Sys2Proof.Machine.execPopc g xd xa s
  | .li g xd imm => Sys2Proof.Machine.execLi g xd imm s
  | .lih g xd imm => Sys2Proof.Machine.execLih g xd imm s
  | .sel g xd pa xa xb => Sys2Proof.Machine.execSel g xd pa xa xb s
  | .cmpeq g pd xa xb => Sys2Proof.Machine.execCmpeq g pd xa xb s
  | .cmpne g pd xa xb => Sys2Proof.Machine.execCmpne g pd xa xb s
  | .cmplt g pd xa xb => Sys2Proof.Machine.execCmplt g pd xa xb s
  | .cmpltu g pd xa xb => Sys2Proof.Machine.execCmpltu g pd xa xb s
  | .cmple g pd xa xb => Sys2Proof.Machine.execCmple g pd xa xb s
  | .cmpleu g pd xa xb => Sys2Proof.Machine.execCmpleu g pd xa xb s
  | .cmpeqi g pd xa imm => Sys2Proof.Machine.execCmpeqi g pd xa imm s
  | .cmplti g pd xa imm => Sys2Proof.Machine.execCmplti g pd xa imm s
  | .pand g pd pa pb => Sys2Proof.Machine.execPand g pd pa pb s
  | .por g pd pa pb => Sys2Proof.Machine.execPor g pd pa pb s
  | .pxor g pd pa pb => Sys2Proof.Machine.execPxor g pd pa pb s
  | .pnot g pd pa => Sys2Proof.Machine.execPnot g pd pa s
  | .movxa g ad xa => Sys2Proof.Machine.execMovxa g ad xa s
  | .movax g xd aa => Sys2Proof.Machine.execMovax g xd aa s
  | .aadd g ad ab xa => Sys2Proof.Machine.execAadd g ad ab xa s
  | .aaddi g ad ab imm => Sys2Proof.Machine.execAaddi g ad ab imm s
  | .ali g ad imm => Sys2Proof.Machine.execAli g ad imm s
  | .vld g vd aa off => Sys2Proof.Machine.execVld g vd aa off s
  | .vst g va aa off => Sys2Proof.Machine.execVst g va aa off s
  | .vlds g vd aa off => Sys2Proof.Machine.execVlds g vd aa off s
  | .vsts g va aa off => Sys2Proof.Machine.execVsts g va aa off s
  | .vldr g vd aa off => Sys2Proof.Machine.execVldr g vd aa off s
  | .vstr g va aa off => Sys2Proof.Machine.execVstr g va aa off s
  | .vgath g sz vd aa vi => Sys2Proof.Machine.execVgath g sz vd aa vi s
  | .vscat g sz va aa vi => Sys2Proof.Machine.execVscat g sz va aa vi s
  | .ldx g sz xd aa off => Sys2Proof.Machine.execLdx g sz xd aa off s
  | .stx g sz xa aa off => Sys2Proof.Machine.execStx g sz xa aa off s
  | .mld g md aa off => Sys2Proof.Machine.execMld g md aa off s
  | .mst g ma aa off => Sys2Proof.Machine.execMst g ma aa off s
  | .tld g ad ab xa => Sys2Proof.Machine.execTld g ad ab xa s
  | .tst g ad ab xa => Sys2Proof.Machine.execTst g ad ab xa s
  | .scopy g ad ab xa => Sys2Proof.Machine.execScopy g ad ab xa s
  | .winset g aa va => Sys2Proof.Machine.execWinset g aa va s
  | .amoadd g dbl xd aa xn => Sys2Proof.Machine.execAmoadd g dbl xd aa xn s
  | .amoand g dbl xd aa xn => Sys2Proof.Machine.execAmoand g dbl xd aa xn s
  | .amoor g dbl xd aa xn => Sys2Proof.Machine.execAmoor g dbl xd aa xn s
  | .amomin g dbl xd aa xn => Sys2Proof.Machine.execAmomin g dbl xd aa xn s
  | .amomax g dbl xd aa xn => Sys2Proof.Machine.execAmomax g dbl xd aa xn s
  | .amoswap g dbl xd aa xn => Sys2Proof.Machine.execAmoswap g dbl xd aa xn s
  | .amocas g dbl xd aa xn => Sys2Proof.Machine.execAmocas g dbl xd aa xn s
  | .vadd g f rm sat vd va vb => Sys2Proof.Machine.execVadd g f rm sat vd va vb s
  | .vsub g f rm sat vd va vb => Sys2Proof.Machine.execVsub g f rm sat vd va vb s
  | .vmul g f rm sat vd va vb => Sys2Proof.Machine.execVmul g f rm sat vd va vb s
  | .vfma g f rm sat vd va vb vc => Sys2Proof.Machine.execVfma g f rm sat vd va vb vc s
  | .vfms g f rm sat vd va vb vc => Sys2Proof.Machine.execVfms g f rm sat vd va vb vc s
  | .vmin g f vd va vb => Sys2Proof.Machine.execVmin g f vd va vb s
  | .vmax g f vd va vb => Sys2Proof.Machine.execVmax g f vd va vb s
  | .vcmpeq g f vd va vb => Sys2Proof.Machine.execVcmpeq g f vd va vb s
  | .vcmplt g f vd va vb => Sys2Proof.Machine.execVcmplt g f vd va vb s
  | .vcmple g f vd va vb => Sys2Proof.Machine.execVcmple g f vd va vb s
  | .vperm g f vd va vb => Sys2Proof.Machine.execVperm g f vd va vb s
  | .vrot g f vd va imm => Sys2Proof.Machine.execVrot g f vd va imm s
  | .vshl g f vd va vb => Sys2Proof.Machine.execVshl g f vd va vb s
  | .vshr g f vd va vb => Sys2Proof.Machine.execVshr g f vd va vb s
  | .vsra g f vd va vb => Sys2Proof.Machine.execVsra g f vd va vb s
  | .vand g vd va vb => Sys2Proof.Machine.execVand g vd va vb s
  | .vor g vd va vb => Sys2Proof.Machine.execVor g vd va vb s
  | .vxor g vd va vb => Sys2Proof.Machine.execVxor g vd va vb s
  | .vnot g vd va => Sys2Proof.Machine.execVnot g vd va s
  | .vmov g vd va => Sys2Proof.Machine.execVmov g vd va s
  | .vsel g vd va vb vc => Sys2Proof.Machine.execVsel g vd va vb vc s
  | .vabs g f sat vd va => Sys2Proof.Machine.execVabs g f sat vd va s
  | .vneg g f sat vd va => Sys2Proof.Machine.execVneg g f sat vd va s
  | .vcvt g fs ft rm sat vd va => Sys2Proof.Machine.execVcvt g fs ft rm sat vd va s
  | .vbcst g f vd xa => Sys2Proof.Machine.execVbcst g f vd xa s
  | .vinsx g f vd va xa lane => Sys2Proof.Machine.execVinsx g f vd va xa lane s
  | .vextx g f xd va lane => Sys2Proof.Machine.execVextx g f xd va lane s
  | .viota g f vd imm => Sys2Proof.Machine.execViota g f vd imm s
  | .vradd g f rm vd va => Sys2Proof.Machine.execVradd g f rm vd va s
  | .vrmax g f rm vd va => Sys2Proof.Machine.execVrmax g f rm vd va s
  | .vrmin g f rm vd va => Sys2Proof.Machine.execVrmin g f rm vd va s
  | .vscan g f rm vd va => Sys2Proof.Machine.execVscan g f rm vd va s
  | .vexp g vd va => Sys2Proof.Machine.execVexp g vd va s
  | .vlog g vd va => Sys2Proof.Machine.execVlog g vd va s
  | .vrcp g vd va => Sys2Proof.Machine.execVrcp g vd va s
  | .vrsq g vd va => Sys2Proof.Machine.execVrsq g vd va s
  | .vtanh g vd va => Sys2Proof.Machine.execVtanh g vd va s
  | .vsigm g vd va => Sys2Proof.Machine.execVsigm g vd va s
  | .madd g md ma mb => Sys2Proof.Machine.execMadd g md ma mb s
  | .msub g md ma mb => Sys2Proof.Machine.execMsub g md ma mb s
  | .mmul g md ma mb => Sys2Proof.Machine.execMmul g md ma mb s
  | .maff g md ma vb vc => Sys2Proof.Machine.execMaff g md ma vb vc s
  | .msqr g md ma => Sys2Proof.Machine.execMsqr g md ma s
  | .mmov g md ma => Sys2Proof.Machine.execMmov g md ma s
  | .mrelu g md ma => Sys2Proof.Machine.execMrelu g md ma s
  | .mexp g md ma => Sys2Proof.Machine.execMexp g md ma s
  | .mform g md va vb => Sys2Proof.Machine.execMform g md va vb s
  | .mcoll g mode vd ma => Sys2Proof.Machine.execMcoll g mode vd ma s
  | .tmma g pl aA aB xs kcl acc win => Sys2Proof.Machine.execTmma g pl aA aB xs kcl acc win s
  | .tmmb g pl aA aB xs kcl acc => Sys2Proof.Machine.execTmmb g pl aA aB xs kcl acc s
  | .tmmm g aA aB xs kcl acc => Sys2Proof.Machine.execTmmm g aA aB xs kcl acc s
  | .tzero g pl xs => Sys2Proof.Machine.execTzero g pl xs s
  | .tdrain g pl aA ep vb => Sys2Proof.Machine.execTdrain g pl aA ep vb s
  | .tfill g plane aA => Sys2Proof.Machine.execTfill g plane aA s
  | .chstart g ch aa => Sys2Proof.Machine.execChstart g ch aa s
  | .chstop g ch => Sys2Proof.Machine.execChstop g ch s
  | .ringcfg g ring xa => Sys2Proof.Machine.execRingcfg g ring xa s
  | .awaitf g ring thr => Sys2Proof.Machine.execAwaitf g ring thr s
  | .rels g ring cnt => Sys2Proof.Machine.execRels g ring cnt s
  | .ringrd g xd ring => Sys2Proof.Machine.execRingrd g xd ring s
  | .ysort g aa ring inc => Sys2Proof.Machine.execYsort g aa ring inc s
  | .ygath g aa ring inc => Sys2Proof.Machine.execYgath g aa ring inc s
  | .ycomb g aa ring inc => Sys2Proof.Machine.execYcomb g aa ring inc s
  | .xa2av g aa ring inc => Sys2Proof.Machine.execXa2av g aa ring inc s
  | .xar g aa ring inc => Sys2Proof.Machine.execXar g aa ring inc s
  | .xag g aa ring inc => Sys2Proof.Machine.execXag g aa ring inc s
  | .xrun g aa xa ring inc => Sys2Proof.Machine.execXrun g aa xa ring inc s
  | .sendh g va aa xa handler => Sys2Proof.Machine.execSendh g va aa xa handler s
  | .sealL g aa xa ring inc => Sys2Proof.Machine.execSealL g aa xa ring inc s
  | .openL g aa xa ring inc => Sys2Proof.Machine.execOpenL g aa xa ring inc s
  | .rqseed g va xa => Sys2Proof.Machine.execRqseed g va xa s
  | .axinv g id => Sys2Proof.Machine.execAxinv g id s
  | .axinvAccept core plat => Sys2Proof.Machine.execAxinvAccept core plat s
  | .axqry g xd id => Sys2Proof.Machine.execAxqry g xd id s
  | .axqryReply core plat id => Sys2Proof.Machine.execAxqryReply core plat id s
  | .boundInstruction g cls code raw => Sys2Proof.Machine.execBoundInstruction g cls code raw s
  | .bundleIssue core => Sys2Proof.Machine.execBundleIssue core s
  | .quantumExpiry core plat => Sys2Proof.Machine.execQuantumExpiry core plat s
  | .timeshareHoldExpiry core plat rank => Sys2Proof.Machine.execTimeshareHoldExpiry core plat rank s
  | .unblock core plat => Sys2Proof.Machine.execUnblock core plat s
  | .fixedResultLanding core plat => Sys2Proof.Machine.execFixedResultLanding core plat s
  | .loadResultArrival core plat id => Sys2Proof.Machine.execLoadResultArrival core plat id s
  | .routineSuspensionEnd core => Sys2Proof.Machine.execRoutineSuspensionEnd core s
  | .microStallEnd core => Sys2Proof.Machine.execMicroStallEnd core s
  | .asyncFault core plat => Sys2Proof.Machine.execAsyncFault core plat s
  | .faultDelivery core plat => Sys2Proof.Machine.execFaultDelivery core plat s
  | .faultQueuePost part => Sys2Proof.Machine.execFaultQueuePost part s
  | .stokerTurn core => Sys2Proof.Machine.execStokerTurn core s
  | .arrivalDelivery id => Sys2Proof.Machine.execArrivalDelivery id s
  | .barrierOpen cluster b => Sys2Proof.Machine.execBarrierOpen cluster b s
  | .launchAdmit id => Sys2Proof.Machine.execLaunchAdmit id s
  | .contextLoad core plat => Sys2Proof.Machine.execContextLoad core plat s
  | .gangRelease gang => Sys2Proof.Machine.execGangRelease gang s
  | .launchComplete gang => Sys2Proof.Machine.execLaunchComplete gang s
  | .haltZeroing core plat => Sys2Proof.Machine.execHaltZeroing core plat s
  | .killZeroing core plat => Sys2Proof.Machine.execKillZeroing core plat s
  | .contextSave core plat => Sys2Proof.Machine.execContextSave core plat s
  | .restoreComplete core plat => Sys2Proof.Machine.execRestoreComplete core plat s
  | .accumulatorSpill core half => Sys2Proof.Machine.execAccumulatorSpill core half s
  | .tileBusyEnd core half => Sys2Proof.Machine.execTileBusyEnd core half s
  | .tileResultReady core half => Sys2Proof.Machine.execTileResultReady core half s
  | .tdrainWrite core half => Sys2Proof.Machine.execTdrainWrite core half s
  | .tfillLoad core half => Sys2Proof.Machine.execTfillLoad core half s
  | .amoHomePerform core plat id => Sys2Proof.Machine.execAmoHomePerform core plat id s
  | .remoteAccessPerform core plat id word => Sys2Proof.Machine.execRemoteAccessPerform core plat id word s
  | .moveTransfer core plat id word => Sys2Proof.Machine.execMoveTransfer core plat id word s
  | .eccWriteback word => Sys2Proof.Machine.execEccWriteback word s
  | .chstartAccept core plat => Sys2Proof.Machine.execChstartAccept core plat s
  | .waybillProcess core plat word => Sys2Proof.Machine.execWaybillProcess core plat word s
  | .chstopAccept core plat => Sys2Proof.Machine.execChstopAccept core plat s
  | .ringSpaceAvailable e => Sys2Proof.Machine.execRingSpaceAvailable e s
  | .ringAdvance e => Sys2Proof.Machine.execRingAdvance e s
  | .ringcfgAccept core plat => Sys2Proof.Machine.execRingcfgAccept core plat s
  | .rqseedAccept core plat => Sys2Proof.Machine.execRqseedAccept core plat s
  | .ysortExec cluster word => Sys2Proof.Machine.execYsortExec cluster word s
  | .ygathExec cluster word => Sys2Proof.Machine.execYgathExec cluster word s
  | .ycombExec cluster word => Sys2Proof.Machine.execYcombExec cluster word s
  | .xa2avExec op word => Sys2Proof.Machine.execXa2avExec op word s
  | .xarExec op word => Sys2Proof.Machine.execXarExec op word s
  | .xagExec op word => Sys2Proof.Machine.execXagExec op word s
  | .xrunExec op word => Sys2Proof.Machine.execXrunExec op word s
  | .collectiveTimeout op => Sys2Proof.Machine.execCollectiveTimeout op s
  | .sealExec core => Sys2Proof.Machine.execSealExec core s
  | .openExec core => Sys2Proof.Machine.execOpenExec core s
  | .tabletEmit q => Sys2Proof.Machine.execTabletEmit q s
  | .tabletHop n => Sys2Proof.Machine.execTabletHop n s
  | .regionAllocate die n => Sys2Proof.Machine.execRegionAllocate die n s
  | .pairAccept die => Sys2Proof.Machine.execPairAccept die s
  | .trainingStep die region => Sys2Proof.Machine.execTrainingStep die region s
  | .evalWeightsComplete core plat region => Sys2Proof.Machine.execEvalWeightsComplete core plat region s
  | .statePush core plat region => Sys2Proof.Machine.execStatePush core plat region s
  | .notifyTailWrite fn offset size value => Sys2Proof.Machine.execNotifyTailWrite fn offset size value s
  | .launch fn q k => Sys2Proof.Machine.execLaunch fn q k s
  | .preempt fn q k => Sys2Proof.Machine.execPreempt fn q k s
  | .resume fn q k => Sys2Proof.Machine.execResume fn q k s
  | .resumeskip fn q k => Sys2Proof.Machine.execResumeskip fn q k s
  | .refill fn q k => Sys2Proof.Machine.execRefill fn q k s
  | .save fn q k => Sys2Proof.Machine.execSave fn q k s
  | .restore fn q k => Sys2Proof.Machine.execRestore fn q k s
  | .kill fn q k => Sys2Proof.Machine.execKill fn q k s
  | .revoke fn q k => Sys2Proof.Machine.execRevoke fn q k s
  | .revokeComplete n => Sys2Proof.Machine.execRevokeComplete n s
  | .claim fn q k => Sys2Proof.Machine.execClaim fn q k s
  | .resync fn q k => Sys2Proof.Machine.execResync fn q k s
  | .attest fn q k => Sys2Proof.Machine.execAttest fn q k s
  | .completionRecord fn q => Sys2Proof.Machine.execCompletionRecord fn q s
  | .interruptRequest fn vec => Sys2Proof.Machine.execInterruptRequest fn vec s
  | .powerOn ok0 ok1 digest0 digest1 fail => Sys2Proof.Machine.execPowerOn ok0 ok1 digest0 digest1 fail s
  | .zeroComplete => Sys2Proof.Machine.execZeroComplete s
  | .configRequest r => Sys2Proof.Machine.execConfigRequest r s
  | .functionLevelReset fn => Sys2Proof.Machine.execFunctionLevelReset fn s
  | .interchangeMessage m => Sys2Proof.Machine.execInterchangeMessage m s
  | .refusedAccess requester write => Sys2Proof.Machine.execRefusedAccess requester write s
  | .linkRetryExhausted => Sys2Proof.Machine.execLinkRetryExhausted s
  | .sensorAlarm => Sys2Proof.Machine.execSensorAlarm s
  | .deviceReset => Sys2Proof.Machine.execDeviceReset s
  | .powerLoopTick input => Sys2Proof.Machine.execPowerLoopTick input s
  | .overpowerTrip => Sys2Proof.Machine.execOverpowerTrip s
  | .phcWrite part v => Sys2Proof.Machine.execPhcWrite part v s
  | .ps3rWrite part n v => Sys2Proof.Machine.execPs3rWrite part n v s
  | .pqosWrite part v => Sys2Proof.Machine.execPqosWrite part v s
  | .tagbaseWrite stack v => Sys2Proof.Machine.execTagbaseWrite stack v s
  | .zero v => Sys2Proof.Machine.execZero v s
  | .pwrlimWrite v => Sys2Proof.Machine.execPwrlimWrite v s
  | .registerWrite r v => Sys2Proof.Machine.execRegisterWrite r v s
  | .bfmtWrite n v => Sys2Proof.Machine.execBfmtWrite n v s
  | .mcfgWrite v => Sys2Proof.Machine.execMcfgWrite v s
  | .rmodeWrite v => Sys2Proof.Machine.execRmodeWrite v s
  | .axcfgWrite v => Sys2Proof.Machine.execAxcfgWrite v s
  | .axwinWrite v => Sys2Proof.Machine.execAxwinWrite v s
  | .spareaWrite v => Sys2Proof.Machine.execSpareaWrite v s
  | .splimWrite v => Sys2Proof.Machine.execSplimWrite v s
  | .seqJump target => Sys2Proof.Machine.execSeqJump target s
  | .seqBrif c target => Sys2Proof.Machine.execSeqBrif c target s
  | .seqLoop n target => Sys2Proof.Machine.execSeqLoop n target s
  | .seqCallrom target => Sys2Proof.Machine.execSeqCallrom target s
  | .seqRetrom => Sys2Proof.Machine.execSeqRetrom s
  | .seqEnd => Sys2Proof.Machine.execSeqEnd s
  | .seqRaise c code => Sys2Proof.Machine.execSeqRaise c code s
  | .laneMov l => Sys2Proof.Machine.execLaneMov l s
  | .laneAdd l => Sys2Proof.Machine.execLaneAdd l s
  | .laneSub l => Sys2Proof.Machine.execLaneSub l s
  | .laneMul l => Sys2Proof.Machine.execLaneMul l s
  | .laneFma l => Sys2Proof.Machine.execLaneFma l s
  | .laneFnma l => Sys2Proof.Machine.execLaneFnma l s
  | .laneHorn l => Sys2Proof.Machine.execLaneHorn l s
  | .laneMin l => Sys2Proof.Machine.execLaneMin l s
  | .laneMax l => Sys2Proof.Machine.execLaneMax l s
  | .laneAbs l => Sys2Proof.Machine.execLaneAbs l s
  | .laneNeg l => Sys2Proof.Machine.execLaneNeg l s
  | .laneClmps l => Sys2Proof.Machine.execLaneClmps l s
  | .laneAnd l => Sys2Proof.Machine.execLaneAnd l s
  | .laneOr l => Sys2Proof.Machine.execLaneOr l s
  | .laneXor l => Sys2Proof.Machine.execLaneXor l s
  | .laneShl l => Sys2Proof.Machine.execLaneShl l s
  | .laneShr l => Sys2Proof.Machine.execLaneShr l s
  | .laneSra l => Sys2Proof.Machine.execLaneSra l s
  | .laneCmplt l => Sys2Proof.Machine.execLaneCmplt l s
  | .laneCmple l => Sys2Proof.Machine.execLaneCmple l s
  | .laneCmpeq l => Sys2Proof.Machine.execLaneCmpeq l s
  | .laneSel l => Sys2Proof.Machine.execLaneSel l s
  | .laneSelz l => Sys2Proof.Machine.execLaneSelz l s
  | .laneRndi l => Sys2Proof.Machine.execLaneRndi l s
  | .laneCvt l => Sys2Proof.Machine.execLaneCvt l s
  | .laneScalb l => Sys2Proof.Machine.execLaneScalb l s
  | .laneMantc l => Sys2Proof.Machine.execLaneMantc l s
  | .laneExpc l => Sys2Proof.Machine.execLaneExpc l s
  | .laneRcpe l => Sys2Proof.Machine.execLaneRcpe l s
  | .laneRsqe l => Sys2Proof.Machine.execLaneRsqe l s
  | .laneRecs l => Sys2Proof.Machine.execLaneRecs l s
  | .laneRsqs l => Sys2Proof.Machine.execLaneRsqs l s
  | .laneResd l => Sys2Proof.Machine.execLaneResd l s
  | .laneFixrcp l => Sys2Proof.Machine.execLaneFixrcp l s
  | .laneFixrsq l => Sys2Proof.Machine.execLaneFixrsq l s
  | .laneFixlog l => Sys2Proof.Machine.execLaneFixlog l s
  | .laneNcdf l => Sys2Proof.Machine.execLaneNcdf l s
  | .laneNpdf l => Sys2Proof.Machine.execLaneNpdf l s
  | .laneNscl l => Sys2Proof.Machine.execLaneNscl l s
  | .laneRadd l => Sys2Proof.Machine.execLaneRadd l s
  | .laneRmax l => Sys2Proof.Machine.execLaneRmax l s
  | .laneBce l => Sys2Proof.Machine.execLaneBce l s
  | .laneNetu l => Sys2Proof.Machine.execLaneNetu l s
  | .laneFmab l => Sys2Proof.Machine.execLaneFmab l s
  | .aguLd u => Sys2Proof.Machine.execAguLd u s
  | .aguSt u => Sys2Proof.Machine.execAguSt u s
  | .aguLdc u => Sys2Proof.Machine.execAguLdc u s
  | .aguStc u => Sys2Proof.Machine.execAguStc u s
  | .tileFeed t => Sys2Proof.Machine.execTileFeed t s
  | .tileDrow t => Sys2Proof.Machine.execTileDrow t s
  | .tileFrow t => Sys2Proof.Machine.execTileFrow t s
  | .miscCld n lit => Sys2Proof.Machine.execMiscCld n lit s
  | .miscRpop => Sys2Proof.Machine.execMiscRpop s
  | .miscNegin l => Sys2Proof.Machine.execMiscNegin l s
  | .miscNegchk l => Sys2Proof.Machine.execMiscNegchk l s
  | .interruptUnmask fn vec => Sys2Proof.Machine.execInterruptUnmask fn vec s
  | .adapterSlotRelease part slot => Sys2Proof.Machine.execAdapterSlotRelease part slot s

end Sys2Proof.Machine
end

