-- ==== Sys2Proof/Machine/Schedule.lean ====
section
/-! DEFINITION. Which step comes next: within a cycle first what is due, then steps whose time the spec leaves open, then the
cores, then the stokers, then the next cycle (R24, R30, R219, R226, R357; log entries 1, 4, 5, 7). -/
namespace Sys2Proof.Machine

/-- What the machine does next. -/
inductive Act where
  /-- a step that is due in this cycle -/
  | due (i : Instr)
  /-- a step that the spec times freely, chosen by the oracle -/
  | free (i : Instr)
  /-- the first of the inputs comes about -/
  | input (i : Instr)
  /-- no more free steps in this cycle -/
  | quiet
  /-- a core's routine runs its cycle -/
  | stitch (core : Nat)
  | tick
  deriving DecidableEq, Repr

/-- The step can come about in the state. -/
def enabled (s : State) (i : Instr) : Bool :=
  match exec i s with
  | .next _ => true
  | .fault _ => true
  | .refused _ => false

/-- A step that the outside world takes: the host, the hypervisor core, the service core, the power stages. -/
def fromOutside (i : Instr) : Bool :=
  match i with
  | .notifyTailWrite .. | .interruptUnmask .. | .adapterSlotRelease .. | .configRequest .. | .functionLevelReset ..
  | .interchangeMessage .. | .refusedAccess .. | .linkRetryExhausted | .sensorAlarm | .deviceReset | .powerLoopTick ..
  | .overpowerTrip | .phcWrite .. | .ps3rWrite .. | .pqosWrite .. | .tagbaseWrite .. | .zero .. | .pwrlimWrite ..
  | .registerWrite (.hub _) _ | .eccWriteback _ => true
  | _ => false

/-! ## Due steps -/

/-- Steps of a platform that may be due. -/
def Ctx.dueSteps (c : Ctx) (core plat : Nat) : List Instr :=
  (if c.flights.isEmpty then [] else [.fixedResultLanding core plat]) ++
    (if c.faultPending.isSome then [.faultDelivery core plat] else []) ++
    (if c.state == .ready then [.quantumExpiry core plat] else []) ++
    (if c.state == .blocked then [.unblock core plat] else []) ++
    (match c.why with
    | some (.leaving _) => if c.state == .saving then [] else [.contextSave core plat]
    | _ => if c.state == .faulted then [.contextSave core plat] else [])

/-- Steps of a half of a tile array that may be due. -/
def Half.dueSteps (h : Half) (core n : Nat) : List Instr :=
  (if h.spill.isSome then [.accumulatorSpill core n] else []) ++
    (if h.busy = 0 then [] else [.tileBusyEnd core n]) ++ (if h.ready = 0 then [] else [.tileResultReady core n]) ++
    (if h.drain.isSome then [.tdrainWrite core n] else []) ++ (if h.fill.isSome then [.tfillLoad core n] else [])

/-- Steps of a core that may be due. -/
def Core.dueSteps (k : Core) (core : Nat) : List Instr :=
  (k.plats.flatMap (fun p => p.2.dueSteps core p.1)) ++ k.held.map (fun h => .timeshareHoldExpiry core h.plat h.ctx.place.rank) ++
    k.half0.dueSteps core 0 ++ k.half1.dueSteps core 1 ++
    (if k.routine.isSome then [.routineSuspensionEnd core] else [])

/-- Steps that may be due. -/
def State.dueSteps (s : State) : List Instr :=
  (s.cores.flatMap (fun k => k.2.dueSteps k.1)) ++
    (s.clusters.flatMap (fun c => c.2.barriers.map (fun b => .barrierOpen c.1 b.1))) ++
    (s.dies.flatMap (fun d => (d.2.awaitedRequests s.now).map (fun n => .regionAllocate d.1 n) ++ [.pairAccept d.1])) ++
    s.fullSince.map (fun f => .tabletEmit f.1) ++ s.collectives.map (fun o => .collectiveTimeout o.id)

/-! ## Free steps -/

/-- The acceptance of the command at the head of a platform's queue (R285, R292, R434). -/
def Command.steps (cmd : Command) (core plat id : Nat) : List Instr :=
  let op := 2 * (core * 4 + plat)
  match cmd with
  | .chstart .. => [.chstartAccept core plat]
  | .chstop => [.chstopAccept core plat]
  | .ringcfg .. => [.ringcfgAccept core plat]
  | .rqseed .. => [.rqseedAccept core plat]
  | .axinv _ => [.axinvAccept core plat]
  | .axqry .. => [.axqryReply core plat id]
  | .sendh .. => [.arrivalDelivery (2 * (id * 1536 + core * 4 + plat))]
  | .xa2av .. => [.xa2avExec op 0]
  | .xar .. => [.xarExec op 0]
  | .xag .. => [.xagExec op 0]
  | .xrun .. => [.xrunExec op 0]
  | .ysort .. | .ygath .. | .ycomb .. | .sealL .. | .openL .. => []

/-- An access in the outbound path: its pieces, its atomic operation or its arrival. -/
def Outbound.steps (o : Outbound) (core plat : Nat) : List Instr :=
  if o.pieces.isEmpty then [.loadResultArrival core plat o.id]
  else if o.amo.isSome then [.amoHomePerform core plat o.id]
  else (List.range o.pieces.length).map (fun w => .remoteAccessPerform core plat o.id w)

/-- The words of the steps of a move or an engine: 0, and those of its writes and of its reads. -/
def words (f : Fetch) (ws : List Store) : List Nat := List.range (2 * max f.pieces.length ws.length + 1)

/-- Steps of a platform that come about at their own time. -/
def Ctx.freeSteps (c : Ctx) (core plat : Nat) : List Instr :=
  (c.out.flatMap (fun o => o.steps core plat)) ++ c.awaited.map (fun a => .loadResultArrival core plat a.id) ++
    c.flushes.map (fun id => .remoteAccessPerform core plat id 0) ++
    c.moves.flatMap (fun m => (words m.fetch m.stores).map (fun w => .moveTransfer core plat m.id w)) ++
    ((c.cmds.head?).map (fun q => q.cmd.steps core plat q.id)).getD [] ++
    (if c.chan.state == .run then
      (words c.chan.fetch c.chan.stores).map (fun w => .waybillProcess core plat w) ++
      [.ringSpaceAvailable (.copy core plat), .ringAdvance (.copy core plat)] else []) ++
    (c.descs.flatMap (fun d => [.evalWeightsComplete core plat d.id, .statePush core plat d.id])) ++
    (if c.haltPending then [.haltZeroing core plat] else []) ++ (if c.state == .saving then [.contextSave core plat] else []) ++
    (if c.state == .loading then [.contextLoad core plat, .restoreComplete core plat] else [])

/-- Steps of a core's engines. -/
def Core.freeSteps (k : Core) (core : Nat) : List Instr :=
  (k.plats.flatMap (fun p => if p.2.state == .empty then [] else p.2.freeSteps core p.1)) ++
    (match k.routine with
    | some r => (r.waitHbm.map (fun o => o.steps core r.plat)).getD []
    | none => []) ++
    (if k.cipher.isSome || k.plats.any (fun p => !p.2.cmds.isEmpty) then
      [.sealExec core, .openExec core, .ringSpaceAvailable (.cipher core), .ringAdvance (.cipher core)] else [])

/-- Steps of the marshalling engines. -/
def State.marshalSteps (s : State) : List Instr :=
  let busy := (s.clusters.filter (fun c => c.2.marshal.isSome)).map (·.1)
  let asked := (s.cores.filter (fun k => k.2.plats.any (fun p => !p.2.cmds.isEmpty))).map (fun k => clusterOf k.1)
  ((busy ++ asked).foldl insertNat []).flatMap (fun c =>
    (((s.cluster c).marshal.map (fun j => words j.fetch j.stores)).getD [0]).flatMap (fun w =>
      [.ysortExec c w, .ygathExec c w, .ycombExec c w]) ++ [.ringSpaceAvailable (.marshal c), .ringAdvance (.marshal c)])

/-- Steps of the collective operations. -/
def State.collectiveSteps (s : State) : List Instr :=
  let all (op : Nat) (ws : List Nat) : List Instr :=
    ws.flatMap (fun w => [.xa2avExec op w, .xarExec op w, .xagExec op w, .xrunExec op w])
  s.joins.flatMap (fun j => all (2 * (j.core * 4 + j.plat)) (words j.fetch [])) ++
  s.collectives.flatMap (fun o =>
    all (2 * o.id + 1) (List.range (3 * max (max o.stores.length o.joined.length) o.fetch.pieces.length + 1)) ++
    o.joined.flatMap (fun j => [.ringSpaceAvailable (.collective o.id j.rank), .ringAdvance (.collective o.id j.rank)]))

/-- Steps of the fitting engines. -/
def State.fittingSteps (s : State) : List Instr :=
  s.dies.flatMap (fun d =>
    (List.range d.2.requests.length).map (fun n => .regionAllocate d.1 n) ++
      d.2.regions.map (fun r => .trainingStep d.1 r.1))

/-- The step of a packet, by its OP; one of no command is taken by LAUNCH's step (R336). -/
def packetStep (fn q : Nat) (k : Packet) : Instr :=
  match k.op.toNat with
  | 0x02 => .preempt fn q k
  | 0x03 => .resume fn q k
  | 0x04 => .resumeskip fn q k
  | 0x05 => .refill fn q k
  | 0x06 => .save fn q k
  | 0x07 => .restore fn q k
  | 0x08 => .kill fn q k
  | 0x09 => .revoke fn q k
  | 0x0A => .claim fn q k
  | 0x0B => .resync fn q k
  | 0x0C => .attest fn q k
  | _ => .launch fn q k

/-- Steps of the dispatcher. -/
def State.hostSteps (s : State) : List Instr :=
  (s.queues.flatMap (fun p =>
    let fn := p.1 / 65536
    let q := p.1 % 65536
    (if p.2.head = p.2.tail then [] else [packetStep fn q (s.headPacket p.2)]) ++
      (if p.2.done.isEmpty then [] else [.completionRecord fn q]))) ++
    s.irqs.map (fun i => .interruptRequest i.1 i.2) ++
    s.launches.flatMap (fun l => [.launchAdmit l.id, .gangRelease l.id, .launchComplete l.id]) ++
    s.commands.flatMap (fun r =>
      if r.packet.op = 9#8 then [.revokeComplete r.id]
      else if r.packet.op = 5#8 then [.refill (r.queue / 65536) (r.queue % 65536) r.packet]
      else if r.packet.op = 7#8 then [.restoreComplete r.packet.core r.packet.plat]
      else [.killZeroing r.packet.core r.packet.plat]) ++
    s.partitions.flatMap (fun p => if p.2.faultWait.isEmpty then [] else [.faultQueuePost p.1]) ++
    (if s.hub.hzbusy.isSome then [.zeroComplete] else [])

/-- Contexts stopped for a kill that no command waits for, those of a function-level reset, and the end of such a reset. -/
def State.killSteps (s : State) : List Instr :=
  s.cores.flatMap (fun k => k.2.plats.flatMap (fun p => if p.2.killPending then [.killZeroing k.1 p.1] else [])) ++
    s.resetting.map .functionLevelReset

def State.freeSteps (s : State) : List Instr :=
  (s.cores.flatMap (fun k => k.2.freeSteps k.1)) ++ s.marshalSteps ++ s.collectiveSteps ++ s.fittingSteps ++ s.hostSteps ++
    s.killSteps ++ s.arrivals.map (fun a => .arrivalDelivery (2 * a.id + 1)) ++
    (List.range s.tablets.length).map (fun n => .tabletHop n)

/-! ## Engine requests under throttling (R357) -/

/-- The step of a word begins the access of a line: the read or the write of one of its words, none of which has performed. -/
def beginsLine (f : Fetch) (ws : List Store) (word : Nat) : Bool :=
  match word with
  | 0 => false
  | k + 1 => if k % 2 = 0 then (ws[k / 2]?).any (fun w => !w.begun) else (f.pieces[k / 2]?).any (fun p => !p.begun)

/-- The same for a collective operation, whose steps of members stand between. -/
def Collective.beginsLine (o : Collective) (word : Nat) : Bool :=
  match word with
  | 0 => false
  | k + 1 =>
    if k % 3 = 0 then (o.stores[k / 3]?).any (fun w => !w.2.begun)
    else k % 3 = 2 && (o.fetch.pieces[k / 3]?).any (fun p => !p.begun)

/-- The number of an engine: the copy engine or the marshalling engine of a cluster, the collective engine, the cipher engine of a
core; the fitting engine of a die is 68 and its number. -/
def engineNumber : EngineId → Nat
  | .copy core _ => clusterOf core
  | .marshal cl => 32 + cl
  | .collective .. => 64
  | .cipher core => 128 + core

/-- The engine whose requests a step makes, and how many: one for each line, ring or record that it begins to read or write. -/
def State.requestsOf (s : State) (i : Instr) : Option (Nat × Nat) :=
  let one (e : Nat) (b : Bool) : Option (Nat × Nat) := if b then some (e, 1) else none
  let coll (op w : Nat) : Option (Nat × Nat) :=
    if op % 2 = 0 then
      match s.joins.find? (·.ctxid = (s.ctx (op / 8) (op / 2 % 4)).ctxid) with
      | some j => one 64 (beginsLine j.fetch [] w)
      | none => none
    else match s.findColl (op / 2) with
      | some o => one 64 (o.beginsLine w)
      | none => none
  let marshal (cl w : Nat) : Option (Nat × Nat) :=
    match (s.cluster cl).marshal with
    | some j => one (32 + cl) (beginsLine j.fetch j.stores w)
    | none => none
  match i with
  | .waybillProcess core plat w =>
    let h := (s.ctx core plat).chan
    let reports := match h.cur with
      | some (b, row) => row = b.rows
      | none => false
    one (clusterOf core) (beginsLine h.fetch h.stores w || (w = 0 && reports))
  | .ysortExec cl w | .ygathExec cl w | .ycombExec cl w => marshal cl w
  | .xa2avExec op w | .xarExec op w | .xagExec op w | .xrunExec op w => coll op w
  | .sealExec core | .openExec core =>
    one (128 + core) ((((s.core core).cipher).map (fun j => j.fetch.pieces.isEmpty)).getD false)
  | .ringAdvance e => some (engineNumber e, 1)
  | .statePush core .. => some (68 + dieOf core, 1)
  | .evalWeightsComplete core plat id =>
    some (68 + dieOf core, (((s.ctx core plat).desc id).map (fun d => ceilDiv d.bufBytes 64)).getD 1)
  | .trainingStep die _ => some (68 + die, 1)
  | _ => none

/-- Cycles between two requests of an engine. -/
def requestGap (level : Nat) : Nat := if 5 ≤ level then 16 else if level = 4 then 2 else 0

/-- The level of throttling lets the step's engine make a request in this cycle. -/
def State.mayRequest (s : State) (i : Instr) : Bool :=
  match s.requestsOf i with
  | none => true
  | some (e, _) => match SMap.find s.requested e with
    | some t => requestGap s.hub.pwrLevel = 0 || t + requestGap s.hub.pwrLevel ≤ s.now
    | none => true

/-- The requests of a step are noted, the last of several as made a gap after the one before it. -/
def State.noteRequest (s : State) (i : Instr) : State :=
  match s.requestsOf i with
  | some (e, n) => { s with requested := SMap.put s.requested e (s.now + (n - 1) * requestGap s.hub.pwrLevel) }
  | none => s

/-- The first input, where it can come about. -/
def State.nextInput (s : State) : List Act :=
  match s.inputs with
  | [] => []
  | i :: _ => if fromOutside i && enabled s i then [.input i] else []

/-- The acts that the oracle chooses from. -/
def State.choices (s : State) : List Act :=
  if s.chosen then []
  else (if s.up then (s.freeSteps.filter (fun i => enabled s i && s.mayRequest i)).map .free else []) ++ s.nextInput

/-! ## Cores and their throttling (R55, R160, R357) -/

/-- Issue is suspended in the cycle, by the level of throttling. -/
def suspendedAt (level now phase : Nat) : Bool :=
  if level = 0 then false
  else if 5 ≤ level then now % 16 != phase % 16
  else now % (2 ^ (5 - level)) = phase % (2 ^ (5 - level))

def State.suspended (s : State) : Bool :=
  if s.hub.pwrLevel = 0 then false else suspendedAt s.hub.pwrLevel s.now (Config.throttlePhase (s.now / 16))

/-- What a core does by itself in this cycle: a cycle of its routine, an asynchronous fault or an attempt to issue. -/
def State.coreAct (s : State) (core : Nat) (k : Core) : Option Act :=
  match k.routine with
  | some r =>
    if r.ended || s.now < r.next then none
    else if r.stalled && enabled s (.microStallEnd core) then some (.due (.microStallEnd core))
    else some (.stitch core)
  | none =>
    if s.suspended then none
    else match k.next s.now with
      | some p =>
        if !(k.ctx p).asyncFaults.isEmpty && (k.ctx p).resume == .none then some (.due (.asyncFault core p))
        else if core < 384 then some (.due (.bundleIssue core)) else none
      | none => none

/-- What the cores do: the lowest first, then the stokers. -/
def State.coreActs (s : State) : Act :=
  match s.cores.findSome? (fun k => s.coreAct k.1 k.2) with
  | some a => a
  | none =>
    match s.cores.find? (fun k => enabled s (.stokerTurn k.1)) with
    | some k => .due (.stokerTurn k.1)
    | none => .tick

/-! ## The next act -/

/-- The SHA-256 digest of the firmware of a boot-flash slot (R352). -/
def firmwareDigest (boot slot : Nat) : BitVec 256 := BitVec.ofNat 256 (ofBytesBE (sha256 (Config.firmware boot slot)))

/-- The ECDSA signature of the firmware of a boot-flash slot verifies under the key whose hash is fused (R32, R352). -/
def firmwareOk (boot slot : Nat) : Bool :=
  let key := Config.firmwareKey boot slot
  sha256 (toBytesBE 32 key.1 ++ toBytesBE 32 key.2) = Config.keyFuse &&
    ecdsaVerify key (firmwareDigest boot slot).toNat (Config.firmwareSig boot slot)

/-- What comes next. -/
def State.nextAct (s : State) : Act :=
  match (if s.up then s.dueSteps.find? (enabled s) else none) with
  | some i => .due i
  | none =>
    match s.choices with
    | a :: rest => ((a :: rest)[Config.choice s.oracle % (rest.length + 2)]?).getD .quiet
    | [] =>
      if s.up then s.coreActs
      else if s.hub.mbstate < 2 then
        .due (.powerOn (firmwareOk s.hub.boots 0) (firmwareOk s.hub.boots 1)
          (firmwareDigest s.hub.boots 0) (firmwareDigest s.hub.boots 1) (Config.selfTestFail s.hub.boots))
      else .tick

/-- A suspended cycle counts toward no wait (R357). -/
def Core.shiftWaits (k : Core) : Core :=
  { k with
    plats := k.plats.map (fun p => (p.1, if p.2.state == .ready then { p.2 with readySince := p.2.readySince + 1 } else p.2))
    held := k.held.map (fun h => { h with since := h.since + 1 }) }

/-- The queues that are full, with the cycle since when (R326). -/
def State.fullNow (s : State) : List (QueueId × Nat) :=
  let qs := s.cores.flatMap (fun k => k.2.plats.flatMap (fun p => [QueueId.cmd k.1 p.1, QueueId.arrival k.1 p.1]))
  (qs.filter s.queueFull).map (fun q => match s.fullSince.find? (·.1 = q) with
    | some p => p
    | none => (q, s.now))

/-- The next cycle. -/
def State.tick (s : State) : State :=
  { s with
    now := s.now + 1, chosen := false, fullSince := s.fullNow
    cores := if s.suspended then s.cores.map (fun k => (k.1, k.2.shiftWaits)) else s.cores }

/-- An act happens. -/
def State.perform (s : State) (a : Act) : Host.Outcome State Fault Refusal :=
  match a with
  | .due i => exec i s
  | .free i => exec i { s.noteRequest i with oracle := s.oracle + 1 }
  | .input i => exec i { s with oracle := s.oracle + 1, inputs := s.inputs.tail }
  | .quiet => .next { s with oracle := s.oracle + 1, chosen := true }
  | .stitch core => match (s.core core).routine with
    | some r => .next (s.routineCycle core r)
    | none => .refused .notEnabled
  | .tick => .next s.tick

/-! ## Where the next instruction is fetched -/

/-- A context of core 0, platform 0 runs, its next bundle is the given one, and nothing else comes before it. -/
def State.fetchBundle (s : State) (b : BundleBits) : State :=
  let c := { Ctx.empty with state := .running, place := { Placement.empty with ilen := 1 } }
  let k := { Core.empty with plats := [(0, c)], imem := [(0, b)], running := some 0 }
  { s with cores := [(0, k)], clusters := [], fullSince := [], chosen := true, inputs := [], hub := { s.hub with mbstate := 2 } }

end Sys2Proof.Machine
end

