-- ==== Sys2Proof/Machine/Step.lean ====
section
/-! DEFINITION. One step of the machine, and the placing of an instruction where the next step fetches it. -/
namespace Sys2Proof.Machine

/-- What comes of an act: one that cannot come about leaves the machine to its next cycle. -/
def State.orTick (s : State) : Host.Outcome State Fault Refusal → Host.Outcome State Fault Refusal
  | .refused _ => .next s.tick
  | o => o

/-- One step: the act that comes next happens. The machine is never refused a step. -/
def step (s : State) : Host.Outcome State Fault Refusal := s.orTick (s.perform s.nextAct)

/-- The state in which a context of core 0, platform 0 runs and its next bundle has the given bits (log entry 31). -/
def State.withFetchWord (s : State) (_nbits w : Nat) : State := s.fetchBundle (BitVec.ofNat 512 w)

end Sys2Proof.Machine
end

