-- ==== Sys2Proof/Safety.lean ====
section
/-! DEFINITION. The terms that claims use: safe steps, a context that issues undisturbed, and what the issue of one slot
instruction leaves besides its own effect. -/
namespace Sys2Proof.Machine

/-! ## Runs -/

/-- One step leads from a state to another. -/
def Steps (s t : State) : Prop := step s = .next t

/-- The machine goes on: its next step answers a state, no fault and no refusal. -/
def Safe (s : State) : Prop := ∃ t, Steps s t

/-- Memory is in canonical form. -/
def State.MemWf (s : State) : Prop := Mem.wf s.mem = true

/-! ## A context that issues undisturbed -/

/-- The context at the focus is RUNNING, its next bundle lies in its instruction range, and nothing of it is under way that
a bundle could wait for or fault on: no result in flight, no pending or poisoned register, no resume; its core runs no
routine. -/
structure Quiet (s : State) (core plat : Nat) : Prop where
  focus : s.focus = (core, plat)
  running : (s.core core).running = some plat
  routine : (s.core core).routine = none
  state : (s.ctx core plat).state = .running
  resume : (s.ctx core plat).resume = .none
  inRange : (s.ctx core plat).inRange (s.ctx core plat).flow.pc = true
  flights : (s.ctx core plat).flights = []
  pending : (s.ctx core plat).pending = []
  poison : (s.ctx core plat).poison = []
  override : (s.ctx core plat).override = []
  after : (s.ctx core plat).flow.after = none

/-- A quiet context with no loop and no transfer under way: it goes on at the next bundle. -/
structure Calm (s : State) (core plat : Nat) : Prop extends Quiet s core plat where
  loops : (s.ctx core plat).flow.loops = []
  xfer : (s.ctx core plat).flow.xfer = none

end Sys2Proof.Machine

namespace Sys2Proof

/-- The bundle that holds the instruction alone pops a random word (R97, R115). -/
def Instr.pops (i : Instr) : Bool := i.needsRq || i.needsRqDyn || i.boundRq

end Sys2Proof

namespace Sys2Proof.Machine

/-- The context at the issue of a lone slot instruction, its random word popped. -/
def Ctx.popped (c : Ctx) (i : Instr) : Ctx :=
  { c with word := if i.pops then c.queue.head? else none, queue := if i.pops then c.queue.tail else c.queue }

/-- The context after a lone bundle that has no effect of its own: it goes on at the next bundle (R40). -/
def Ctx.passed (c : Ctx) (i : Instr) : Ctx :=
  { c.popped i with bundles := c.bundles + 1, safe := none, flow := { c.flow with pc := c.flow.pc + 1 } }

/-- The state after the issue of a lone slot instruction whose own effect on its context is `f`. -/
def State.issued (s : State) (core plat : Nat) (i : Instr) (f : Ctx → Ctx) : State :=
  s.setCore core ({ s.core core with acted := s.now + 1, last := plat }.setCtx plat (f ((s.ctx core plat).passed i)))

/-- A write that is not discarded: not to x0 and not to p0 (R86). -/
def RegWrite.kept : RegWrite → Bool
  | .x n _ => n != 0
  | .p n _ => n != 0
  | .a .. | .v .. | .m .. | .creg .. | .fpflags _ | .mflags _ | .replay .. | .portV | .portM | .shadow _ => true

/-- The state after the issue of a lone slot instruction whose own effect is to send results on their way, each with its
latency (R89). -/
def State.sends (s : State) (core plat : Nat) (i : Instr) (ws : List (Nat × RegWrite)) : State :=
  s.issued core plat i (fun c => { c with
    flights := (ws.filter (fun w => RegWrite.kept w.2)).map (fun w => ⟨s.now, (i.slot.elim 0 SlotId.num), s.now + w.1, w.2⟩) })

/-- The context issues undisturbed and the guard of the instruction is true (R77). -/
structure On (s : State) (core plat : Nat) (g : Guard) : Prop where
  calm : Calm s core plat
  on : (s.ctx core plat).guard g = true

/-- The context issues undisturbed and the guard of the instruction is false (R77). -/
structure Off (s : State) (core plat : Nat) (g : Guard) : Prop where
  calm : Calm s core plat
  off : (s.ctx core plat).guard g = false

/-! ## Registers of a context by the fields of an instruction (R85) -/

def State.xAt (s : State) (core plat : Nat) (n : BitVec 6) : Word := (s.ctx core plat).regs.getX n.toNat
def State.pAt (s : State) (core plat : Nat) (n : BitVec 4) : Bool := (s.ctx core plat).regs.getP n.toNat
def State.aAt (s : State) (core plat : Nat) (n : BitVec 5) : Word := (s.ctx core plat).regs.getA n.toNat
def State.vAt (s : State) (core plat : Nat) (n : BitVec 11) : Vec := (s.ctx core plat).regs.getV n.toNat
def State.mAt (s : State) (core plat : Nat) (n : BitVec 8) : Mom := (s.ctx core plat).regs.getM n.toNat

/-! ## Faults -/

/-- What a fault of a bundle leaves in its record in own S1 (R308): MPC, no stitch, CODE, SLOT, DONE and VALUE; no byte of
memory outside the record changes. -/
def State.recorded (s t : State) (core frec mpc code slot done value : Nat) : Prop :=
  t.word (s1Place core frec) 4 = mpc % 8192 ∧ t.word (s1Place core frec + 4) 2 = 0 ∧ t.word (s1Place core frec + 6) 1 = code ∧
  t.word (s1Place core frec + 7) 1 = slot ∧ t.word (s1Place core frec + 8) 1 = done ∧
  t.word (s1Place core frec + 16) 8 = value ∧
  ∀ p, (p < s1Place core frec ∨ s1Place core frec + 2048 ≤ p) → t.bytes p 1 = s.bytes p 1

/-! ## Memory after stores -/

/-- What runs of own-S1 bytes of a core, stored in order from a list of bytes, leave at a place: the last one that covers it
stands. -/
def written (core : Nat) (spans : List (Nat × Nat)) (data : List Byte) (p : Nat) : Option Byte :=
  match spans with
  | [] => none
  | (a, n) :: rest =>
    match written core rest (data.drop n) p with
    | some b => some b
    | none => if s1Place core a ≤ p ∧ p < s1Place core a + n then some (data.getD (p - s1Place core a) 0#8) else none

/-- Memory after runs of own-S1 bytes were stored: those bytes, every other byte as before, and the lines that one run covers
whole in plaintext form and without poison (R193). -/
def State.storedOwn (s t : State) (core : Nat) (spans : List (Nat × Nat)) (data : List Byte) : Prop :=
  (∀ p, Mem.byte t.mem p = (written core spans data p).getD (Mem.byte s.mem p)) ∧
  (∀ l, l ∈ t.form ↔ l ∈ s.form ∧ ∀ r ∈ spans, l ∉ wholeLines (s1Place core r.1) r.2) ∧
  (∀ l, l ∈ t.poisoned ↔ l ∈ s.poisoned ∧ ∀ r ∈ spans, l ∉ wholeLines (s1Place core r.1) r.2)

/-- Every other context is as before. -/
def State.othersKept (s t : State) (core plat : Nat) : Prop :=
  ∀ c p, (c ≠ core ∨ p ≠ plat) → t.ctx c p = s.ctx c p

/-! ## Elements -/

/-- Element k of a vector register, as bits (R448). -/
def elemBits (f : Elem) (v : Vec) (k : Nat) : Nat := lane v.toNat k f.width

/-- Mean and variance bits of lane k of a moment register (R254). -/
def meanBits (m : Mom) (k : Nat) : Nat := lane m.toNat (2 * k) 32
def varBits (m : Mom) (k : Nat) : Nat := lane m.toNat (2 * k + 1) 32

/-- The rounding of element k under rm in slot V0; a stochastic one takes byte k of the word that the bundle pops (R145,
R449). -/
def Ctx.rounds (c : Ctx) (rm : Rm) (k : Nat) : RMode :=
  let sr : RMode := .sr (BitVec.ofNat 8 (lane (c.queue.headD 0).toNat k 8))
  match rm with
  | .rne => .rne
  | .rtz => .rtz
  | .sr => sr
  | .dyn => if (c.creg 0x030).extractLsb' 0 2 = 1 then .rtz else if (c.creg 0x030).extractLsb' 0 2 = 2 then sr else .rne

/-! ## The tile engine -/

/-- A cell of a plane (R238). -/
def State.accAt (s : State) (core plane row col : Nat) : F32 := ((s.core core).accRow plane row).getD col 0#32

/-- The half that a platform's T instructions act on (R69). -/
def State.halfAt (s : State) (core plat : Nat) : Half := (s.core core).half ((s.core core).halfOf plat)

/-- The first array row of that half (R69). -/
def State.rowAt (s : State) (core plat : Nat) : Nat := 48 * (s.core core).halfOf plat

/-- A T instruction may issue: its half is not busy, its platform owns it or can without a spill, and none of its moves is
under way (R244, R251, R430). -/
structure TileFree (s : State) (core plat : Nat) : Prop where
  busy : (s.halfAt core plat).busy ≤ s.now
  owns : ownsHalf (s.halfAt core plat) (s.ctx core plat) plat = true
  moves : (s.ctx core plat).moves = []

/-- The cells after a matrix instruction on operands without poison: each updated cell holds the products of its row of A and
its column of B, added to its old value with acc, to zero without; every other cell is as before (R243). -/
def State.matrixDone (s t : State) (core plat : Nat) (mx : Matrix) (sh : Shape) (a b : TileOperand) : Prop :=
  ∀ p r j, p < 2 → r < 96 → j < 192 →
    let row := s.rowAt core plat
    let ca := fmtCode a.bfmt
    let cb := fmtCode b.bfmt
    let z := fun q => if mx.acc then s.accAt core q r j else 0#32
    let x := rowElems a s core sh.k (r - row)
    let y := colElems b s core sh.k j
    t.accAt core p r j =
      if row ≤ r ∧ j ∈ sh.cells mx.tmmb (r - row) ∧ (mx.moment = true ∨ p ∈ planesOf mx.pl) then
        (if mx.moment then (if p = 0 then (momCell ca cb (z 0, z 1) x y).1 else (momCell ca cb (z 0, z 1) x y).2)
          else cellValue ca cb (z p) x y)
      else s.accAt core p r j

/-- What stores of runs, in order, leave at a place: the last one that covers it stands. -/
def placed (writes : List (Nat × List Byte)) (p : Nat) : Option Byte :=
  match writes with
  | [] => none
  | (a, bs) :: rest =>
    match placed rest p with
    | some b => some b
    | none => if a ≤ p ∧ p < a + bs.length then some (bs.getD (p - a) 0#8) else none

/-! ## Stitches -/

/-- The core of the focus runs a routine whose next step is due, within its bound and with no load of it under way. -/
structure Stitching (s : State) (core : Nat) (r : Routine) : Prop where
  focus : s.focus = (core, r.plat)
  routine : (s.core core).routine = some r
  due : r.next ≤ s.now
  running : r.ended = false
  bound : (s.ctx core r.plat).micro.steps < r.args.bind.bound
  loads : r.loads = []
  waits : r.waitHbm = none

/-- The state after a stitch has completed its step with a context and a routine: the step is counted, the routine goes on in
the next cycle (R160). -/
def State.stitched (s : State) (core : Nat) (r : Routine) (c : Ctx) : State :=
  s.setCore core { (s.core core).setCtx r.plat { c with micro := { c.micro with steps := (s.ctx core r.plat).micro.steps + 1 } } with
    routine := some { r with stalled := false, waitHbm := none, next := s.now + 1 } }

/-- The context at the next micro address. -/
def Ctx.nextStitch (c : Ctx) : Ctx := { c with micro := { c.micro with pc := c.micro.pc + 1 } }

/-! ## Runs of bytes that engines and moves read and write -/

/-- Memory after some stores: what they leave at the places they cover, every other byte as before. -/
def State.stored (s t : State) (writes : List (Nat × List Byte)) : Prop :=
  ∀ p, Mem.byte t.mem p = (placed writes p).getD (Mem.byte s.mem p)

/-- A word of a read may perform, and can be used: no claim holds its place, and it is unprotected and correct (R186, R208). -/
def State.readable (s : State) (p : Piece) : Prop :=
  s.claimedPlace p.place = false ∧ noFrame p.place = false ∧ p.prot = false ∧ s.badRead p.place p.len = false

/-- A read whose n-th word has been read, with the bytes that it then has: another word is left, or the run is complete (R215). -/
def Fetch.after (f : Fetch) (n : Nat) (data : List Byte) : Fetch :=
  if f.pieces.length = 1 then ⟨f.got ++ [(data, none)], [], []⟩ else { f with pieces := piecesLeft f.pieces n, data := data }

/-- The n-th of some writes may perform, of an unprotected place whose bytes it can change (R186, R209, R219, R519). -/
def State.performable (s : State) (ws : List Store) (n : Nat) (x : Store) : Prop :=
  ws[n]? = some x ∧ wordBefore ws n x = false ∧ s.writable x.place x.begun = true ∧ noFrame x.place = false ∧
    x.prot = false ∧ x.poison = false ∧ (x.whole = true ∨ s.badWrite x.place x.data.length = false)

/-- The ring of the context of a number after a report: WP advanced, STATUS and SRC (R291); its owner is on a platform. -/
def State.reported (s t : State) (id : Word) (ring n status src : Nat) : Prop :=
  ∀ core plat, s.whereIs id = some (core, plat) → (s.ctx core plat).state ≠ .loading → (s.ctx core plat).state ≠ .saving →
    (t.ctx core plat).ring ring = { (s.ctx core plat).ring ring with
      wp := ((s.ctx core plat).ring ring).wp + BitVec.ofNat 32 n, status := status, src := src }

/-! ## Packets of the host's queues -/

/-- The keys of a map strictly rise. -/
def SMap.sorted {α : Type} (m : SMap α) : Prop := (m.map (·.1)).Pairwise (· < ·)

/-- The dispatcher takes a packet of a command: the compute dies run, the link is up, the function is not under reset, the
queue may start the packet that stands at its head, no bounce channel has it ignored, and the PASID is allowed (R334, R335,
R351). -/
structure Takes (s : State) (fn q : Nat) (k : Packet) (op : Nat) (qi : HostQueue) : Prop where
  queue : SMap.find s.queues (queueKey fn q) = some qi
  up : s.up = true
  link : s.hub.linkUp = true
  live : fn ∉ s.resetting
  start : qi.mayStart k = true
  head : s.headPacket qi = k
  hears : s.deaf (queueKey fn q) k = false
  pasid : s.pasidAllowed qi.pasids k.pasid.toNat = true
  op : k.op.toNat = op

/-- The queue after a packet that has been taken and is under way. -/
def State.startedPacket (t : State) (fn q : Nat) (qi : HostQueue) : Prop :=
  SMap.find t.queues (queueKey fn q) = some { qi with head := qi.head + 1, open_ := qi.open_ + 1 }

/-- The queue after a packet that has been taken and is complete: its record waits for the completion ring (R337). -/
def State.answered (t : State) (fn q : Nat) (qi : HostQueue) (k : Packet) (status count detail : Nat) : Prop :=
  SMap.find t.queues (queueKey fn q) = some { qi with
    head := qi.head + 1, open_ := qi.open_, done := qi.done ++ [(completionRecord k status count detail, k.flags.getLsbD 0,
      k.pasid.extractLsb' 0 20)] }

/-- The completion of a packet that was under way. -/
def State.completed (s t : State) (key : Nat) (k : Packet) (status count detail : Nat) : Prop :=
  ∀ q, SMap.find s.queues key = some q → SMap.find t.queues key = some { q with
    open_ := q.open_ - 1, done := q.done ++ [(completionRecord k status count detail, k.flags.getLsbD 0,
      k.pasid.extractLsb' 0 20)] }

/-- Every context is as before. -/
def State.ctxsKept (s t : State) : Prop := ∀ core plat, t.ctx core plat = s.ctx core plat

/-- A context has been stopped for a kill: it issues nothing more, its commands are discarded, and no image saved before can be
restored (R62). -/
def State.stopped (s t : State) (core plat : Nat) : Prop :=
  let c := s.ctx core plat
  let d := t.ctx core plat
  d.killPending = true ∧ d.cmds = [] ∧ d.regs = c.regs ∧ d.state = c.state ∧
    d.preempt = none ∧ SMap.get 0 t.keys.saves c.ctxid.toNat = SMap.get 0 s.keys.saves c.ctxid.toNat + 1

end Sys2Proof.Machine
end

