-- ==== Sys2Proof/Certificates/Slice0/Obligations.lean ====
section
/-! DEFINITION. The statements for the provers, in the order of the opcode table and then of the machine's parts. -/
open Sys2Proof Sys2Proof.Machine

/-! ## The X slot -/

/-- ADD, ADDI and SUB leave the sum or the difference modulo 2^64 in x[xd] after one cycle, and change nothing else of the
machine but what the issue of a bundle changes (R360, R439). The multiplies land at +3 with the low half, or the high half of
the exact signed or unsigned product (R410). The divisions land at +20: quotients toward zero or floored, all ones for a divisor
of 0, remainders with the dividend's sign, the dividend for a divisor of 0 (R383, R421). The shifts land at +1 and are exact
multiplications and divisions by 2^s, s the low six bits of x[xb] or the immediate (R437). -/
def Obligations.ScalarArithmeticLands : Prop :=
  (∀ (s : State) (core plat : Nat) (g : Guard) (xd xa xb : BitVec 6) (imm : BitVec 16), On s core plat g →
    let x := s.xAt core plat
    exec (.add g xd xa xb) s = .next (s.sends core plat (.add g xd xa xb)
      [(1, .x xd.toNat (BitVec.ofInt 64 ((x xa).toInt + (x xb).toInt)))]) ∧
    exec (.addi g xd xa imm) s = .next (s.sends core plat (.addi g xd xa imm)
      [(1, .x xd.toNat (BitVec.ofInt 64 ((x xa).toInt + imm.toInt)))]) ∧
    exec (.sub g xd xa xb) s = .next (s.sends core plat (.sub g xd xa xb)
      [(1, .x xd.toNat (BitVec.ofInt 64 ((x xa).toInt - (x xb).toInt)))])) ∧
  (∀ (s : State) (core plat : Nat) (g : Guard) (xd xa xb : BitVec 6), On s core plat g →
    let x := s.xAt core plat
    exec (.mul g xd xa xb) s = .next (s.sends core plat (.mul g xd xa xb)
      [(3, .x xd.toNat (BitVec.ofInt 64 ((x xa).toInt * (x xb).toInt)))]) ∧
    exec (.mulh g xd xa xb) s = .next (s.sends core plat (.mulh g xd xa xb)
      [(3, .x xd.toNat ((BitVec.ofInt 128 ((x xa).toInt * (x xb).toInt)).extractLsb' 64 64))]) ∧
    exec (.mulhu g xd xa xb) s = .next (s.sends core plat (.mulhu g xd xa xb)
      [(3, .x xd.toNat ((BitVec.ofNat 128 ((x xa).toNat * (x xb).toNat)).extractLsb' 64 64))])) ∧
  (∀ (s : State) (core plat : Nat) (g : Guard) (xd xa xb : BitVec 6), On s core plat g →
    let x := s.xAt core plat
    exec (.div g xd xa xb) s = .next (s.sends core plat (.div g xd xa xb) [(20, .x xd.toNat
      (BitVec.ofInt 64 (if x xb = 0 then 2 ^ 64 - 1 else (x xa).toInt.tdiv (x xb).toInt)))]) ∧
    exec (.divu g xd xa xb) s = .next (s.sends core plat (.divu g xd xa xb) [(20, .x xd.toNat
      (BitVec.ofNat 64 (if x xb = 0 then 2 ^ 64 - 1 else (x xa).toNat / (x xb).toNat)))]) ∧
    exec (.rem g xd xa xb) s = .next (s.sends core plat (.rem g xd xa xb) [(20, .x xd.toNat
      (BitVec.ofInt 64 (if x xb = 0 then (x xa).toInt
        else (x xa).toInt - (x xa).toInt.tdiv (x xb).toInt * (x xb).toInt)))]) ∧
    exec (.remu g xd xa xb) s = .next (s.sends core plat (.remu g xd xa xb) [(20, .x xd.toNat
      (BitVec.ofNat 64 (if x xb = 0 then (x xa).toNat else (x xa).toNat % (x xb).toNat)))])) ∧
  (∀ (s : State) (core plat : Nat) (g : Guard) (xd xa xb imm : BitVec 6), On s core plat g →
    let a := s.xAt core plat xa
    let n := (s.xAt core plat xb).toNat % 64
    let k := imm.toNat
    exec (.shl g xd xa xb) s = .next (s.sends core plat (.shl g xd xa xb) [(1, .x xd.toNat (BitVec.ofNat 64 (a.toNat * 2 ^ n)))]) ∧
    exec (.shr g xd xa xb) s = .next (s.sends core plat (.shr g xd xa xb) [(1, .x xd.toNat (BitVec.ofNat 64 (a.toNat / 2 ^ n)))]) ∧
    exec (.sra g xd xa xb) s = .next (s.sends core plat (.sra g xd xa xb) [(1, .x xd.toNat (BitVec.ofInt 64 (a.toInt / 2 ^ n)))]) ∧
    exec (.shli g xd xa imm) s = .next (s.sends core plat (.shli g xd xa imm) [(1, .x xd.toNat (BitVec.ofNat 64 (a.toNat * 2 ^ k)))]) ∧
    exec (.shri g xd xa imm) s = .next (s.sends core plat (.shri g xd xa imm) [(1, .x xd.toNat (BitVec.ofNat 64 (a.toNat / 2 ^ k)))]) ∧
    exec (.srai g xd xa imm) s = .next (s.sends core plat (.srai g xd xa imm) [(1, .x xd.toNat (BitVec.ofInt 64 (a.toInt / 2 ^ k)))]))

/-- The logic instructions land at +1, bit by bit; an immediate is sign-extended (R367, R415, R473). -/
def Obligations.LogicLandsNextCycle : Prop :=
  ∀ (s : State) (core plat : Nat) (g : Guard) (xd xa xb : BitVec 6) (imm : BitVec 16), On s core plat g →
    let x := s.xAt core plat
    let s16 := BitVec.ofInt 64 imm.toInt
    exec (.and g xd xa xb) s = .next (s.sends core plat (.and g xd xa xb) [(1, .x xd.toNat (x xa &&& x xb))]) ∧
    exec (.or g xd xa xb) s = .next (s.sends core plat (.or g xd xa xb) [(1, .x xd.toNat (x xa ||| x xb))]) ∧
    exec (.xor g xd xa xb) s = .next (s.sends core plat (.xor g xd xa xb) [(1, .x xd.toNat (x xa ^^^ x xb))]) ∧
    exec (.andi g xd xa imm) s = .next (s.sends core plat (.andi g xd xa imm)
      [(1, .x xd.toNat (x xa &&& s16))]) ∧
    exec (.ori g xd xa imm) s = .next (s.sends core plat (.ori g xd xa imm)
      [(1, .x xd.toNat (x xa ||| s16))]) ∧
    exec (.xori g xd xa imm) s = .next (s.sends core plat (.xori g xd xa imm)
      [(1, .x xd.toNat (x xa ^^^ s16))])

/-- MIN, MAX and their unsigned forms, CLZ, POPC and SEL land at +1 (R380, R400, R419, R432). -/
def Obligations.ExtremesCountsAndSelectLand : Prop :=
  ∀ (s : State) (core plat : Nat) (g : Guard) (xd xa xb : BitVec 6) (pa : BitVec 4), On s core plat g →
    let a := s.xAt core plat xa
    let b := s.xAt core plat xb
    let lands := fun (i : Instr) (v : Word) => exec i s = .next (s.sends core plat i [(1, .x xd.toNat v)])
    lands (.min g xd xa xb) (BitVec.ofInt 64 (Min.min a.toInt b.toInt)) ∧
    lands (.max g xd xa xb) (BitVec.ofInt 64 (Max.max a.toInt b.toInt)) ∧
    lands (.minu g xd xa xb) (BitVec.ofNat 64 (Min.min a.toNat b.toNat)) ∧
    lands (.maxu g xd xa xb) (BitVec.ofNat 64 (Max.max a.toNat b.toNat)) ∧
    lands (.clz g xd xa) (BitVec.ofNat 64 (if a = 0 then 64 else 63 - a.toNat.log2)) ∧
    lands (.popc g xd xa) (BitVec.ofNat 64 ((List.range 64).filter (fun i => a.getLsbD i)).length) ∧
    lands (.sel g xd pa xa xb) (if s.pAt core plat pa then a else b)

/-- The compares land a truth value in p[pd] at +1, the predicate operations the truth value of theirs; p0 reads true, and a pd
of 0 lands nothing (R381, R416, R86). Constants and moves between the classes land at +1; addresses are formed modulo 2^48 and
keep the pitch of their source (R358, R359, R361, R393, R408). -/
def Obligations.ComparesConstantsAndMovesLand : Prop :=
  (∀ (s : State) (core plat : Nat) (g : Guard) (pd pa pb : BitVec 4) (xa xb : BitVec 6) (imm : BitVec 16), On s core plat g →
    let a := s.xAt core plat xa
    let b := s.xAt core plat xb
    let p := s.pAt core plat
    let lands := fun (i : Instr) (v : Bool) => exec i s = .next (s.sends core plat i [(1, .p pd.toNat v)])
    lands (.cmpeq g pd xa xb) (decide (a.toInt = b.toInt)) ∧ lands (.cmpne g pd xa xb) (decide (a.toInt ≠ b.toInt)) ∧
    lands (.cmplt g pd xa xb) (decide (a.toInt < b.toInt)) ∧ lands (.cmpltu g pd xa xb) (decide (a.toNat < b.toNat)) ∧
    lands (.cmple g pd xa xb) (decide (a.toInt ≤ b.toInt)) ∧ lands (.cmpleu g pd xa xb) (decide (a.toNat ≤ b.toNat)) ∧
    lands (.cmpeqi g pd xa imm) (decide (a.toInt = imm.toInt)) ∧ lands (.cmplti g pd xa imm) (decide (a.toInt < imm.toInt)) ∧
    lands (.pand g pd pa pb) (p pa && p pb) ∧ lands (.por g pd pa pb) (p pa || p pb) ∧
    lands (.pxor g pd pa pb) (p pa ^^ p pb) ∧ lands (.pnot g pd pa) (!p pa) ∧
    p 0 = true ∧ RegWrite.kept (.p 0 true) = false) ∧
  (∀ (s : State) (core plat : Nat) (g : Guard) (xd xa : BitVec 6) (ad ab : BitVec 5) (i28 : BitVec 28) (i29 : BitVec 29)
    (i45 : BitVec 45), On s core plat g →
    let x := s.xAt core plat
    let a := s.aAt core plat
    let gives := fun (i : Instr) (w : RegWrite) => exec i s = .next (s.sends core plat i [(1, w)])
    let at48 := fun (n : Int) => (BitVec.ofInt 48 n)
    gives (.li g xd i28) (.x xd.toNat (BitVec.ofInt 64 i28.toInt)) ∧
    gives (.lih g xd i28) (.x xd.toNat (BitVec.ofInt 32 i28.toInt ++ (x xd).extractLsb' 0 32)) ∧
    gives (.movax g xd ab) (.x xd.toNat (a ab)) ∧
    gives (.movxa g ad xa) (.a ad.toNat (x xa)) ∧
    gives (.aadd g ad ab xa) (.a ad.toNat ((a ab).extractLsb' 48 16 ++ at48 (((a ab).extractLsb' 0 48).toNat + (x xa).toInt))) ∧
    gives (.aaddi g ad ab i29) (.a ad.toNat ((a ab).extractLsb' 48 16 ++ at48 (((a ab).extractLsb' 0 48).toNat + i29.toInt))) ∧
    gives (.ali g ad i45) (.a ad.toNat (0#16 ++ at48 (i45.toNat * 8))))

/-! ## Issue, transfers, loops -/

/-- A slot instruction whose guard is false reads, writes and raises nothing of its own: its bundle passes; what is counted for
it are the ports of its writes (R75, R77), and the delay bundles of a transfer run (R94); the mark of a BARC that had passed
before its bundle was suppressed (R374) is outside this statement. -/
def Obligations.GuardedOffInstructionsOnlyPass : Prop :=
  ∀ (s : State) (core plat : Nat) (i : Instr) (g : Guard) (sl : SlotId), Off s core plat g → i.guard = some g →
    i.slot = some sl → i.wf = true → (i.pops = true → (s.ctx core plat).queue ≠ []) →
    (∀ cls code raw, i = .boundInstruction g cls code raw → ((s.ctx core plat).binding cls code).isSome) →
    (∀ xa, i = .barc g xa → s.marked core plat = false) →
    exec i s = .next (s.issued core plat i (fun c => { c with
      flights := ((s.ctx core plat).portWrites false i).map (fun l => ⟨s.now, sl.num, s.now + l, .portV⟩) ++
        ((s.ctx core plat).portWrites true i).map (fun l => ⟨s.now, sl.num, s.now + l, .portM⟩)
      flow := { c.flow with xfer := if i.isTransfer then some ⟨0, false, 2, false⟩ else none } }))

/-- A NOP bundle does nothing but complete, and completing a bundle moves the context on: to the next bundle; through the delay
bundles of a transfer to its target, if it is taken; at the end bundle of loops, the innermost first, out of those with no
iteration left and back to the first bundle of one that has some (R94, R377, R394, R411). A transfer pending at a loop's end
bundle raises DELAYBR instead (R96). -/
def Obligations.CompletedBundlesMoveOn : Prop :=
  ∀ (s : State) (core plat : Nat), Quiet s core plat →
    let f := (s.ctx core plat).flow
    (f.xfer = none ∨ ∀ l ∈ f.loops, l.last ≠ f.pc) →
    ∃ t, exec .nop s = .next t ∧ t.mem = s.mem ∧ (t.ctx core plat).regs = (s.ctx core plat).regs ∧
      (t.ctx core plat).cregs = (s.ctx core plat).cregs ∧ (t.ctx core plat).flow.rets = f.rets ∧
      (∀ x, f.xfer = some x → 1 < x.left →
        (t.ctx core plat).flow.pc = f.pc + 1 ∧ (t.ctx core plat).flow.xfer = some { x with left := x.left - 1 } ∧
        (t.ctx core plat).flow.loops = f.loops) ∧
      (∀ x, f.xfer = some x → x.left = 1 → (t.ctx core plat).flow.xfer = none ∧
        (t.ctx core plat).flow.pc = (if x.taken then x.target else f.pc + 1) ∧
        (t.ctx core plat).flow.loops = (if x.taken && x.closes then
          f.loops.filter (fun l => decide (l.first ≤ x.target ∧ x.target ≤ l.last)) else f.loops)) ∧
      (∀ inner l rest, f.xfer = none → f.loops = inner ++ l :: rest → (∀ d ∈ inner, d.last = f.pc ∧ d.left = 0) →
        (f.pc ≠ l.last → (t.ctx core plat).flow.pc = f.pc + 1 ∧ (t.ctx core plat).flow.loops = l :: rest) ∧
        (f.pc = l.last → 0 < l.left →
          (t.ctx core plat).flow.pc = l.first ∧ (t.ctx core plat).flow.loops = { l with left := l.left - 1 } :: rest)) ∧
      (f.xfer = none → (∀ d ∈ f.loops, d.last = f.pc ∧ d.left = 0) →
        (t.ctx core plat).flow.pc = f.pc + 1 ∧ (t.ctx core plat).flow.loops = [])

/-- BR and BRX aim at the PC plus the offset, or at x[xa]; CALL and CALLX push the index after their delay bundles; RET pops its
target. Two delay bundles are then left (R375, R377, R422, with 16 entries of the return stack on the core, R324). LOOP and
LOOPI open a loop of their count whose body runs from the next bundle to the end bundle; a count of 0 goes on after the end
bundle (R95, R394). -/
def Obligations.TransfersAndLoopsAim : Prop :=
  (∀ (s : State) (core plat : Nat) (g : Guard) (off : BitVec 24) (xa : BitVec 6), On s core plat g →
    let c := s.ctx core plat
    let rel := (BitVec.ofInt 64 (c.flow.pc + off.toInt)).toNat
    let aims := fun (i : Instr) (target : Nat) (closes : Bool) (rets : List Nat) =>
      exec i s = .next (s.issued core plat i (fun d => { d with
        flow := { d.flow with xfer := some ⟨target, true, 2, closes⟩, rets := rets } }))
    aims (.br g off) rel true c.flow.rets ∧
    aims (.brx g xa) (s.xAt core plat xa).toNat true c.flow.rets ∧
    (c.flow.rets.length < 16 → aims (.call g off) rel false ((c.flow.pc + 3) :: c.flow.rets)) ∧
    (c.flow.rets.length < 16 → aims (.callx g xa) (s.xAt core plat xa).toNat false ((c.flow.pc + 3) :: c.flow.rets)) ∧
    (∀ r rest, c.flow.rets = r :: rest → aims (.ret g) r false rest)) ∧
  (∀ (s : State) (core plat : Nat) (g : Guard) (xa : BitVec 6) (n off : BitVec 16), On s core plat g → 1 ≤ off.toInt →
    let c := s.ctx core plat
    let last := c.flow.pc + off.toNat
    let opens := fun (i : Instr) (count : Nat) =>
      (count ≠ 0 → exec i s = .next (s.issued core plat i (fun d => { d with
        flow := { d.flow with loops := [⟨c.flow.pc + 1, last, count - 1⟩], pc := c.flow.pc + 1 } }))) ∧
      (count = 0 → exec i s = .next (s.issued core plat i (fun d => { d with flow := { d.flow with pc := last + 1 } })))
    opens (.loop g xa off) (s.xAt core plat xa).toNat ∧ opens (.loopi g n off) n.toNat)

/-! ## Exceptions -/

/-- TRAP with the handler enabled and not in it enters the handler: the record is written, TEPC, TCAUSE and TVAL are set with
INH = 1 and SKIP = 0, the PC becomes TVEC's handler, and the platform stays RUNNING and issues at +3; no other register changes
(R313, R440). SVC always, and TRAP where the handler is off or running, goes to the steward: the record is written, the context
is FAULTED, its entry is on its way to the partition's fault queue, and the core issues again at +3, not before; registers stay
(R304, R315, R440, R441). -/
def Obligations.TrapAndServiceCallsTakeTheirException : Prop :=
  (∀ (s : State) (core plat : Nat) (g : Guard) (imm : BitVec 16), On s core plat g →
    let c := s.ctx core plat
    (c.creg 0x060).getLsbD 13 = true → (c.creg 0x062).getLsbD 15 = false →
    ∃ t, exec (.trap g imm) s = .next t ∧ s.recorded t core c.place.frec c.flow.pc 0x40 1 0x7E imm.toNat ∧
      (t.ctx core plat).flow.pc = (c.creg 0x060).toNat % 8192 ∧ (t.ctx core plat).flow.xfer = none ∧
      (t.ctx core plat).creg 0x061 = BitVec.ofNat 64 (c.flow.pc % 8192) ∧ (t.ctx core plat).creg 0x062 = 0x8140#64 ∧
      (t.ctx core plat).creg 0x063 = imm.setWidth 64 ∧
      (∀ n, n ≠ 0x061 → n ≠ 0x062 → n ≠ 0x063 → (t.ctx core plat).creg n = c.creg n) ∧
      (t.ctx core plat).regs = c.regs ∧ (t.ctx core plat).state = .running ∧ (t.core core).running = some plat ∧
      s.now + 3 ≤ (t.core core).nextIssue) ∧
  (∀ (s : State) (core plat : Nat) (g : Guard) (imm : BitVec 16), On s core plat g →
    let c := s.ctx core plat
    let calls := fun (i : Instr) (value : Nat) => ∃ t, exec i s = .next t ∧
      s.recorded t core c.place.frec c.flow.pc 0x40 1 0x7E value ∧
      (t.ctx core plat).state = .faulted ∧ (t.ctx core plat).regs = c.regs ∧ (t.ctx core plat).cregs = c.cregs ∧
      (t.ctx core plat).flow = c.flow ∧ (t.core core).running = none ∧ s.now + 3 ≤ (t.core core).nextIssue ∧
      (t.partition c.part).faultWait = (s.partition c.part).faultWait ++
        [faultEntry c.ctxid core plat ⟨0x40, 1, value, c.flow.pc, none⟩]
    calls (.svc g imm) (0x10000 + imm.toNat) ∧
    ((c.creg 0x060).getLsbD 13 = false ∨ (c.creg 0x062).getLsbD 15 = true → calls (.trap g imm) imm.toNat))

/-- TRET clears INH and SKIP and resumes from the record in FREC, nothing issuing before +3: a suppressed bundle is issued
again, a slot that faulted by itself is replayed alone, and after a TRAP, which is complete, or with SKIP the bundle after it
comes next (R310, R311, R314, R446; a record with no transfer, of a bundle that is no safe point). -/
def Obligations.TretResumesFromTheRecord : Prop :=
  ∀ (s : State) (core plat : Nat) (g : Guard), On s core plat g →
    let c := s.ctx core plat
    let r := readRecord s core c.place.frec
    let skip := (c.creg 0x062).getLsbD 16
    (c.creg 0x062).getLsbD 15 = true → c.shadow = none → c.recAfter = none → r.upc < 32768 → r.slot < 8 →
    r.xferB / 4 % 2 = 0 → (s.bundleIn core c r.mpc).bundle.hdr.sp = false →
    ∃ t, exec (.tret g) s = .next t ∧ t.mem = s.mem ∧ (t.ctx core plat).regs = c.regs ∧
      (t.ctx core plat).creg 0x062 = c.creg 0x062 &&& 0xFFFFFFFFFFFE7FFF#64 ∧ s.now + 3 ≤ (t.core core).nextIssue ∧
      (t.ctx core plat).state = .running ∧ (t.ctx core plat).flow.xfer = none ∧
      (r.slot = 0 ∨ r.done = 0 → (t.ctx core plat).resume = .none ∧
        (t.ctx core plat).flow.pc = if skip then r.mpc + 1 else r.mpc) ∧
      (r.slot ≠ 0 → r.done ≠ 0 → skip = true ∨ r.code = 0x40 → (t.ctx core plat).resume = .none ∧
        (t.ctx core plat).flow.pc = r.mpc + 1) ∧
      (r.slot ≠ 0 → r.done ≠ 0 → skip = false → r.code ≠ 0x40 → (t.ctx core plat).resume = .replay r.slot ∧
        (t.ctx core plat).flow.pc = r.mpc)

/-- A RET with both parts of the return stack empty raises SPILL with value 2, and a write of SPAREA or SPLIM while return
indices are spilled raises SPILL with value 3: the context goes to the steward, its stack and registers as before (R323, R422,
R435). -/
def Obligations.SpillFaultsLeaveTheStack : Prop :=
  ∀ (s : State) (core plat : Nat) (g : Guard) (xa : BitVec 6) (creg : BitVec 12), On s core plat g →
    let c := s.ctx core plat
    let spills := fun (i : Instr) (value : Nat) => ∃ t, exec i s = .next t ∧
      s.recorded t core c.place.frec c.flow.pc 0x28 1 0x7E value ∧
      (t.ctx core plat).state = .faulted ∧ (t.ctx core plat).regs = c.regs ∧ (t.ctx core plat).cregs = c.cregs ∧
      (t.ctx core plat).flow = c.flow
    (c.flow.rets = [] → c.spn = 0 → spills (.ret g) 2) ∧
    (0 < c.spn → (creg = 0x090 ∨ creg = 0x091) → spills (.setc g creg xa) 3)

/-! ## Leaving the core -/

/-- HALT blocks its context for good with its halt pending, its latch discarded; the core issues nothing of it more and switches
at +3 (R391, R54; no pre-emption asked for, the bundle no safe point). PARK with an arrival queued goes on at the handler of the
oldest, which leaves the queue; with none the context is PARKED and the core switches at +3 (R417, R64). YIELD enters READY and
nothing issues before +3 where another platform of the core is READY, not on its way off it; else it has no effect (R476). -/
def Obligations.ContextsLeaveTheCore : Prop :=
  (∀ (s : State) (core plat : Nat) (g : Guard), On s core plat g → (s.ctx core plat).preempt = none →
    ∃ t, exec (.halt g) s = .next t ∧ t.mem = s.mem ∧ (t.ctx core plat).regs = (s.ctx core plat).regs ∧
      (t.ctx core plat).state = .blocked ∧ (t.ctx core plat).why = some .halt ∧ (t.ctx core plat).haltPending = true ∧
      (t.ctx core plat).latch = none ∧ (t.core core).running = none ∧ s.now + 1 ≤ (t.core core).nextIssue ∧
      s.now + 3 ≤ (t.core core).switchAt ∧ (s.otherReady core plat = true → s.now + 3 ≤ (t.core core).nextIssue) ∧
      ∀ b a, a ∈ SMap.get [] (t.cluster (clusterOf core)).barriers b →
        a ∈ SMap.get [] (s.cluster (clusterOf core)).barriers b ∧ a.1 ≠ (s.ctx core plat).ctxid) ∧
  (∀ (s : State) (core plat : Nat) (g : Guard), On s core plat g →
    ∃ t, exec (.park g) s = .next t ∧ t.mem = s.mem ∧ (t.ctx core plat).regs = (s.ctx core plat).regs ∧
      (∀ h rest, (s.ctx core plat).arrivals = h :: rest → (t.ctx core plat).arrivals = rest ∧
        (t.ctx core plat).flow.pc = h ∧ (t.ctx core plat).state = .running ∧ (t.core core).running = some plat) ∧
      ((s.ctx core plat).arrivals = [] → (t.ctx core plat).state = .parked ∧ (t.core core).running = none ∧
        s.now + 3 ≤ (t.core core).switchAt)) ∧
  (∀ (s : State) (core plat : Nat) (g : Guard), On s core plat g →
    let other := s.otherReady core plat
    (other = false → exec (.yield g) s = .next (s.issued core plat (.yield g) id)) ∧
    (other = true → ∃ t, exec (.yield g) s = .next t ∧ t.mem = s.mem ∧
      (t.ctx core plat).regs = (s.ctx core plat).regs ∧ (t.ctx core plat).flow.pc = (s.ctx core plat).flow.pc + 1 ∧
      (t.ctx core plat).state = .ready ∧ (t.ctx core plat).readySince = s.now ∧ (t.ctx core plat).yielded = true ∧
      (t.core core).running = none ∧ s.now + 3 ≤ (t.core core).nextIssue))

/-! ## Order, barriers and control registers -/

/-- A FENCE orders what its context has outstanding and never blocks; a DRAIN issues once every earlier store and atomic has
performed at its scope, and blocks before; a BARC whose barrier has opened issues and takes its mark back, one that has not
arrived counts its arrival once and blocks, and one that names no barrier of BARMASK raises WINDOW with its value (R65, R66,
R221, R223, R374, R385, R386). -/
def Obligations.OrderInstructionsWaitAsTold : Prop :=
  ∀ (s : State) (core plat : Nat) (g : Guard) (pred succ : ClassSet) (scope : Scope) (xa : BitVec 6), On s core plat g →
    let c := s.ctx core plat
    let v := (s.xAt core plat xa).toNat
    let cl := s.cluster (clusterOf core)
    let ids := s.outstanding core plat pred scope
    let mine := (c.ctxid, c.flow.pc)
    exec (.fence g pred succ scope) s = .next (s.issued core plat (.fence g pred succ scope) (fun d =>
      { d with fences := if ids = [] then d.fences else d.fences ++ [⟨succ, ids⟩] })) ∧
    (s.undrained core plat scope = [] → exec (.drain g scope) s = .next (s.issued core plat (.drain g scope) id)) ∧
    (s.undrained core plat scope ≠ [] → ∃ t, exec (.drain g scope) s = .next t ∧ (t.ctx core plat).state = .blocked ∧
      (t.ctx core plat).flow = c.flow ∧ (t.core core).running = none) ∧
    (v < 32 → c.place.barmask.getLsbD v = true → mine ∈ SMap.get [] cl.passed v →
      ∃ t, exec (.barc g xa) s = .next t ∧ t.mem = s.mem ∧ (t.ctx core plat).flow.pc = c.flow.pc + 1 ∧
        (t.ctx core plat).state = .running ∧
        SMap.get [] (t.cluster (clusterOf core)).passed v = (SMap.get [] cl.passed v).filter (· != mine)) ∧
    (v < 32 → c.place.barmask.getLsbD v = true → mine ∉ SMap.get [] cl.passed v →
      (∀ a ∈ SMap.get [] cl.barriers v, a.1 ≠ c.ctxid) → s.settled core plat = true →
      ∃ t, exec (.barc g xa) s = .next t ∧ (t.ctx core plat).state = .blocked ∧ (t.ctx core plat).flow = c.flow ∧
        SMap.get [] (t.cluster (clusterOf core)).barriers v = SMap.get [] cl.barriers v ++ [mine]) ∧
    (32 ≤ v ∨ c.place.barmask.getLsbD v = false → ∃ t, exec (.barc g xa) s = .next t ∧ (t.ctx core plat).state = .faulted ∧
      (t.ctx core plat).regs = c.regs ∧ s.recorded t core c.place.frec c.flow.pc 0x12 1 0x7E v)

/-- GETC of an assigned core-side register lands its value at +1: the context's identity, the counters, the occupancy of its
half, the queue's level, else the register as it stands; of the hub-side one it asks the hub and marks xd pending (R387, R388,
R389). SETC and SETCI of a register that takes its value land it at +1: a BFMT of a bank of BWIN with an assigned code and
rounding, an MCFG whose rho is at most one in absolute value, an AXCFG of a finite LR and a BATCH in range, an AXWIN inside
BWIN, a SPAREA or SPLIM while nothing is spilled, and any other writable register (R138, R256, R279, R323, R435, R436). A
register-write step is a SETC of its register with the value: where the register takes it, it lands at +1 (R138, R147, R256,
R279, R323, R435). -/
def Obligations.ControlRegistersReadAndWrite : Prop :=
  (∀ (s : State) (core plat : Nat) (g : Guard) (xd xa : BitVec 6) (creg : BitVec 12) (imm : BitVec 16), On s core plat g →
    let c := s.ctx core plat
    let k := s.core core
    let value := readCreg s core plat
    let takes := fun (n : Nat) (v : Word) =>
      let f := fun lo w => v.toNat / 2 ^ lo % 2 ^ w
      (0x100 ≤ n → n ≤ 0x13F → (c.creg 0x020).getLsbD (n - 0x100) = true ∧ f 0 4 ≠ 15 ∧ f 4 2 ≠ 3) ∧
      (n = 0x040 → f 0 2 = 3 → f 16 15 ≤ 0x3F80) ∧
      (n = 0x080 → (f 32 32 < 0x7F800000 ∨ f 32 32 = 0x80000000) ∧ (f 18 7 = 0 ∨ (8 ≤ f 18 7 ∧ f 18 7 ≤ 64))) ∧
      (n = 0x081 → ∀ a, 64 * f 0 17 ≤ a → a < 64 * f 0 17 + 64 * f 32 17 → a < 0x800000 ∧
        (c.creg 0x020).getLsbD (a / 0x20000) = true) ∧
      (n = 0x090 ∨ n = 0x091 → c.spn = 0)
    (cregAssigned creg.toNat = true → creg.toNat < 0x800 → exec (.getc g xd creg) s = .next (s.sends core plat (.getc g xd creg)
      [(1, .x xd.toNat (value creg.toNat))])) ∧
    value 0x000 = c.ctxid ∧ (value 0x001).toNat = plat % 2 ^ 64 ∧ (value 0x002).toNat = core % 2 ^ 64 ∧
    (value 0x003).toNat = core / 16 % 2 ^ 64 ∧ (value 0x004).toNat = core / 96 % 2 ^ 64 ∧ (value 0x010).toNat = s.now % 2 ^ 64 ∧
    (value 0x011).toNat = c.bundles % 2 ^ 64 ∧ (value 0x050).toNat = (if k.split then 1 else 0) ∧
    (value 0x053).toNat = (s.halfAt core plat).products % 2 ^ 64 ∧
    (value 0x070).toNat = (if c.seeding then 0 else c.queue.length) % 2 ^ 64 ∧
    (∀ n ∈ [0x020, 0x021, 0x022, 0x030, 0x031, 0x040, 0x041, 0x060, 0x061, 0x062, 0x063, 0x080, 0x081, 0x090, 0x091],
      value n = c.creg n) ∧
    (∀ n, isBfmt n = true → value n = c.creg n) ∧
    (creg = 0x800#12 → exec (.getc g xd creg) s = .next (s.issued core plat (.getc g xd creg) (fun d => { d with
      nextId := d.nextId + 1, awaited := d.awaited ++ [⟨d.nextId, .hub xd.toNat, none, []⟩]
      pending := if xd = 0 then d.pending else .x xd.toNat :: d.pending }))) ∧
    (cregWritable creg.toNat = true → takes creg.toNat (s.xAt core plat xa) → exec (.setc g creg xa) s = .next (s.sends core plat (.setc g creg xa)
      [(1, .creg creg.toNat (s.xAt core plat xa))])) ∧
    (cregWritable creg.toNat = true → takes creg.toNat (imm.setWidth 64) → exec (.setci g creg imm) s = .next (s.sends core plat
      (.setci g creg imm) [(1, .creg creg.toNat (imm.setWidth 64))]))) ∧
  (∀ (s : State) (core plat : Nat) (n : BitVec 6) (v : Word), Calm s core plat →
    let c := s.ctx core plat
    let writes := fun (i : Instr) (creg : BitVec 12) => cregRefused c creg.toNat v = none →
      exec i s = .next (s.sends core plat (.setci ⟨0, false⟩ creg 0) [(1, .creg creg.toNat v)])
    writes (.bfmtWrite n v) (0x100#12 + n.zeroExtend 12) ∧ writes (.rmodeWrite v) 0x030 ∧ writes (.mcfgWrite v) 0x040 ∧
    writes (.axcfgWrite v) 0x080 ∧ writes (.axwinWrite v) 0x081 ∧ writes (.spareaWrite v) 0x090 ∧
    writes (.splimWrite v) 0x091)

/-! ## The A slot -/

/-- A load whose bytes all lie in own S1 lands at +4 with the bytes of memory at its order point: VLD and MLD those at their
address, VLDS six lines a pitch apart, VGATH its elements with zeros above, LDX a sign-extended value (R89, R216, R392, R406,
R458, R461). The access has passed the checks of R192 and conflicts with no outstanding move. A store whose bytes all lie in own
S1 writes exactly them at its order point: every byte of memory outside its runs is as before, and so is every register (R193,
R216, R406, R438, R458, R461). -/
def Obligations.OwnAccessesMoveTheirBytesOnly : Prop :=
  (∀ (s : State) (core plat : Nat) (g : Guard) (sz : Sz) (vd vi : BitVec 11) (md : BitVec 8) (xd : BitVec 6) (aa : BitVec 5)
    (off : BitVec 10), On s core plat g →
    let c := s.ctx core plat
    let a := s.aAt core plat aa
    let low := (a.extractLsb' 0 48).toNat
    let addr := (BitVec.ofInt 48 (low + 64 * off.toInt)).toNat
    let pitch := max 1 (a.extractLsb' 48 16).toNat
    let n := sz.bytes
    let loads := fun (i : Instr) (spans : List (Nat × Nat)) (size : Nat) (w : List Byte → RegWrite) =>
      ∃ acc, c.access i = some acc ∧ acc.spans = spans ∧
        (checkAccess s s core c acc = none → acc.own = true → c.moveConflict core false spans = false →
          exec i s = .next (s.sends core plat i [(4, w
            ((spans.flatMap (fun r => s.bytes (s1Place core r.1) r.2) ++ List.replicate size 0#8).take size))]))
    let vec := fun bs => RegWrite.v vd.toNat (BitVec.ofNat 3072 (ofBytes bs))
    loads (.vld g vd aa off) [(addr, 384)] 384 vec ∧
    loads (.vlds g vd aa off) ((List.range 6).map (fun j => ((addr + 64 * pitch * j) % 2 ^ 48, 64))) 384 vec ∧
    loads (.vgath g sz vd aa vi) ((List.range (min (384 / n) 96)).map (fun i =>
      ((low + n * ((s.vAt core plat vi).extractLsb' (32 * i) 32).toNat) % 2 ^ 48, n))) 384 vec ∧
    loads (.ldx g sz xd aa off) [(addr, n)] n (fun bs => .x xd.toNat (BitVec.ofInt 64 (sext (ofBytes bs) (8 * n)))) ∧
    loads (.mld g md aa off) [(addr, 768)] 768 (fun bs => .m md.toNat (BitVec.ofNat 6144 (ofBytes bs)))) ∧
  (∀ (s : State) (core plat : Nat) (g : Guard) (sz : Sz) (va vi : BitVec 11) (ma : BitVec 8) (xa : BitVec 6) (aa : BitVec 5)
    (off : BitVec 10), On s core plat g →
    let c := s.ctx core plat
    let a := s.aAt core plat aa
    let low := (a.extractLsb' 0 48).toNat
    let addr := (BitVec.ofInt 48 (low + 64 * off.toInt)).toNat
    let pitch := max 1 (a.extractLsb' 48 16).toNat
    let n := sz.bytes
    let v := toBytes 384 (s.vAt core plat va).toNat
    let stores := fun (i : Instr) (spans : List (Nat × Nat)) (data : List Byte) =>
      ∃ acc, c.access i = some acc ∧ acc.spans = spans ∧
        (checkAccess s s core c acc = none → acc.own = true → c.moveConflict core true spans = false →
          ∃ t, exec i s = .next t ∧ t.ctx core plat = c.passed i ∧ s.othersKept t core plat ∧ s.storedOwn t core spans data)
    stores (.vst g va aa off) [(addr, 384)] v ∧
    stores (.vsts g va aa off) ((List.range 6).map (fun j => ((addr + 64 * pitch * j) % 2 ^ 48, 64))) v ∧
    stores (.vscat g sz va aa vi) ((List.range (min (384 / n) 96)).map (fun i =>
      ((low + n * ((s.vAt core plat vi).extractLsb' (32 * i) 32).toNat) % 2 ^ 48, n))) v ∧
    stores (.stx g sz xa aa off) [(addr, n)] (toBytes n (s.xAt core plat xa).toNat) ∧
    stores (.mst g ma aa off) [(addr, 768)] (toBytes 768 (s.mAt core plat ma).toNat))

/-- A load, store or atomic with no byte in own S1 enters the outbound path with its pieces, marks its destination pending and
changes nothing else, a store to a host frame with a flush read behind it; its pieces then perform at their homes (R86, R92,
R213, R219, R363, R386). -/
def Obligations.RemoteAccessesEnterTheOutboundPath : Prop :=
  ∀ (s : State) (core plat : Nat) (g : Guard) (sz : Sz) (dbl : Bool) (vd va vi : BitVec 11) (md ma : BitVec 8)
    (xd xa : BitVec 6) (aa : BitVec 5) (off : BitVec 10), On s core plat g →
    let c := s.ctx core plat
    let enters := fun (i : Instr) (cls : AccClass) (data : List Byte) (dest : Dest) (marks : List RegId)
        (amo : Option (AmoOp × Word × Word)) =>
      ∃ acc, c.access i = some acc ∧
        (checkAccess s s core c acc = none → (acc.pieces core c).all (fun p => !isOwnPiece core p) = true → acc.own = false →
          c.moveConflict core acc.wr acc.spans = false → c.outLive.length < 32 →
          ∃ o : Outbound, o.id = c.nextId ∧ o.cls = cls ∧ o.addr = acc.addr ∧ o.pieces = acc.pieces core c ∧ o.data = data ∧
            o.dest = dest ∧ o.amo = amo ∧ o.poison = none ∧
            o.waits = c.fenceWaits cls ∧
            let host := cls = .w ∧ ∃ p ∈ o.pieces, isHostPlace p.place = true
            (¬ host → exec i s = .next (s.issued core plat i (fun d => { d with
              nextId := d.nextId + 1, out := d.out ++ [o], pending := marks ++ d.pending }))) ∧
            (host → exec i s = .next (s.issued core plat i (fun d => { d with
              nextId := d.nextId + 2, flushes := d.flushes ++ [d.nextId + 1], out := d.out ++ [o],
              pending := marks ++ d.pending }))))
    let z := fun n => List.replicate n 0#8
    let marksX := if xd = 0 then [] else [RegId.x xd.toNat]
    let toV := toBytes 384 (s.vAt core plat va).toNat
    let atomic := fun (i : Instr) (op : AmoOp) =>
      enters i .a (z 8) (.x xd.toNat) marksX (some (op, s.xAt core plat xa, s.xAt core plat xd))
    enters (.vld g vd aa off) .r (z 384) (.v vd.toNat) [.v vd.toNat] none ∧
    enters (.vlds g vd aa off) .r (z 384) (.v vd.toNat) [.v vd.toNat] none ∧
    enters (.vgath g sz vd aa vi) .r (z 384) (.v vd.toNat) [.v vd.toNat] none ∧
    enters (.ldx g sz xd aa off) .r (z sz.bytes) (.x xd.toNat) marksX none ∧
    enters (.mld g md aa off) .r (z 768) (.m md.toNat) [.m md.toNat] none ∧
    enters (.vst g va aa off) .w toV .none [] none ∧
    enters (.vsts g va aa off) .w toV .none [] none ∧
    enters (.vscat g sz va aa vi) .w toV .none [] none ∧
    enters (.stx g sz xa aa off) .w (toBytes sz.bytes (s.xAt core plat xa).toNat) .none [] none ∧
    enters (.mst g ma aa off) .w (toBytes 768 (s.mAt core plat ma).toNat) .none [] none ∧
    atomic (.amoadd g dbl xd aa xa) .add ∧ atomic (.amoand g dbl xd aa xa) .and ∧ atomic (.amoor g dbl xd aa xa) .or ∧
    atomic (.amomin g dbl xd aa xa) .min ∧ atomic (.amomax g dbl xd aa xa) .max ∧
    atomic (.amoswap g dbl xd aa xa) .swap ∧ atomic (.amocas g dbl xd aa xa) .cas

/-- An atomic in own S1 on a plaintext word, neither poisoned nor uncorrectable, reads and writes it at its issue, as one: the
old value, sign- extended, is on its way to x[xd], and the new value of its operation is in memory, where AMOCAS writes only if
the old value equals the low bits of x[xd] (R216, R362, R363). -/
def Obligations.OwnAtomicsPerformAtIssue : Prop :=
  ∀ (s : State) (core plat : Nat) (g : Guard) (dbl : Bool) (xd xn : BitVec 6) (aa : BitVec 5), On s core plat g →
    let c := s.ctx core plat
    let addr := ((s.aAt core plat aa).extractLsb' 0 48).toNat
    let n := if dbl then 8 else 4
    let w := 8 * n
    let p := s1Place core addr
    let old := s.word p n
    let v := (s.xAt core plat xn).toNat % 2 ^ w
    let same := (s.xAt core plat xd).toNat % 2 ^ w
    let performs := fun (i : Instr) (new : Nat) =>
      ∃ acc, c.access i = some acc ∧
        (checkAccess s s core c acc = none → acc.own = true → c.moveConflict core true acc.spans = false →
          s.badRead p n = false → s.isCipher (p / 64) = false →
          ∃ t o, exec i s = .next t ∧ s.storedOwn t core [(addr, n)] (toBytes n new) ∧ s.othersKept t core plat ∧
            (t.ctx core plat).regs = c.regs ∧ (t.ctx core plat).out = c.out ++ [o] ∧ o.pieces = [] ∧ o.dest = .x xd.toNat ∧
            o.data = toBytes 8 (BitVec.ofInt 64 (sext old w)).toNat ∧ o.poison = none ∧
            (t.ctx core plat).pending = (if xd = 0 then [] else [.x xd.toNat]))
    performs (.amoadd g dbl xd aa xn) ((old + v) % 2 ^ w) ∧ performs (.amoand g dbl xd aa xn) (old &&& v) ∧
    performs (.amoor g dbl xd aa xn) (old ||| v) ∧ performs (.amomin g dbl xd aa xn) (if sext old w ≤ sext v w then old else v) ∧
    performs (.amomax g dbl xd aa xn) (if sext old w < sext v w then v else old) ∧ performs (.amoswap g dbl xd aa xn) v ∧
    performs (.amocas g dbl xd aa xn) (if old = same then v else old)

/-- TLD, TST and SCOPY whose registers pass the checks of R428 become outstanding with rows, lengths and pitches as R426 gives
them; VLDR and VSTR become moves of six lines, VLDR with the words it reads and vd pending, VSTR with its words to write; one
that writes a host frame has a flush read behind it (R213, R426, R430, R463). WINSET of a descriptor whose reserved fields are
zero, whose counts are not, and whose strides are whole lines lands it in the replay window it names at +1 (R196). -/
def Obligations.MovesAndDescriptorsTakeTheirPlace : Prop :=
  (∀ (s : State) (core plat : Nat) (g : Guard) (ad ab : BitVec 5) (xa : BitVec 6) (vd va : BitVec 11) (off : BitVec 10),
    On s core plat g → (s.ctx core plat).moves.length < 8 →
    let c := s.ctx core plat
    let src := s.aAt core plat ab
    let dst := s.aAt core plat ad
    let l := s.xAt core plat xa
    let addr := (BitVec.ofInt 48 (((s.aAt core plat ab).extractLsb' 0 48).toNat + 64 * off.toInt)).toNat
    let becomes := fun (i : Instr) (m : Move) (marks : List RegId) =>
      let host := m.kind.writes && (m.runs core false 0).any (fun r => (linePoints r.1 r.2).any (hostAt core c))
      exec i s = .next (s.issued core plat i (fun d => { d with
        nextId := d.nextId + 3, flushes := if host then d.flushes ++ [d.nextId + 1] else d.flushes
        moves := d.moves ++ [m], pending := marks ++ d.pending }))
    let moves := fun (i : Instr) (k : MoveKind) => moveFault s core c (mkMove c core k dst src l) l = none →
      ∃ m : Move, becomes i m [] ∧
        m.id = c.nextId ∧ m.kind = k ∧ m.src = (src.extractLsb' 0 48).toNat ∧ m.dst = (dst.extractLsb' 0 48).toNat ∧
        m.len = l.toNat % 2 ^ 24 ∧ m.rows = l.toNat / 2 ^ 24 % 2 ^ 24 ∧ m.row = 0 ∧ m.at_ = 0 ∧ m.stores = [] ∧ m.fetch = .empty ∧
        m.waitsR = c.fenceWaits .r ∧ m.waitsW = c.fenceWaits .w ∧
        m.seed = c.seeds ∧ m.window = c.window ∧
        (m.spitch = if src.extractLsb' 48 16 = 0 then m.len else 64 * (src.extractLsb' 48 16).toNat) ∧
        (dst.extractLsb' 48 16 ≠ 0 → m.dpitch = 64 * (dst.extractLsb' 48 16).toNat)
    let requests := fun (i : Instr) (k : MoveKind) (reg : Nat) (marks : List RegId) (P : Access → Move → Prop) =>
      ∃ acc, c.access i = some acc ∧ acc.spans = [(addr, 384)] ∧ (checkAccess s s core c acc = none → ∃ m : Move, becomes i m marks ∧
        m.id = c.nextId ∧ m.kind = k ∧ m.src = addr ∧ m.dst = addr ∧ m.len = 64 ∧ m.rows = 6 ∧ m.reg = reg ∧ P acc m)
    moves (.tld g ad ab xa) .tld ∧ moves (.tst g ad ab xa) .tst ∧ moves (.scopy g ad ab xa) .scopy ∧
    requests (.vldr g vd ab off) .vldr vd.toNat [.v vd.toNat] (fun acc m => m.row = 0 ∧ m.stores = [] ∧ m.fetch.got = [] ∧
      m.fetch.pieces = acc.pieces core c ∧ m.waitsR = c.fenceWaits .r) ∧
    requests (.vstr g va ab off) .vstr va.toNat [] (fun _ m => m.row = 6 ∧ m.fetch = .empty ∧ m.waitsW = c.fenceWaits .w ∧
      m.stores = cutStores 50 core c (addr, 384) addr (toBytes 384 (s.vAt core plat va).toNat) false)) ∧
  (∀ (s : State) (core plat : Nat) (g : Guard) (aa : BitVec 5) (va : BitVec 11), On s core plat g →
    let v := s.vAt core plat va
    let w := fun (i : Nat) => v.extractLsb' (32 * i) 32
    let lo := fun (i : Nat) => ((w i).extractLsb' 0 16).toNat
    let hi := fun (i : Nat) => ((w i).extractLsb' 16 16).toNat
    (w 0).toNat < 4 → hi 3 = 0 → (∀ i, 8 ≤ i → i < 16 → w i = 0) → lo 1 ≠ 0 → hi 1 ≠ 0 → hi 2 ≠ 0 → lo 3 ≠ 0 → lo 2 ≠ 0 →
    (∀ i, 4 ≤ i → i < 8 → (w i).toNat % 64 = 0) →
    exec (.winset g aa va) s = .next (s.sends core plat (.winset g aa va) [(1, .replay (w 0).toNat
      { base := (s.aAt core plat aa).extractLsb' 0 48, cn0 := lo 1, cn1 := hi 1, cn2 := hi 2, cn3 := lo 3, ch := lo 2,
        st0 := w 4, st1 := w 5, st2 := w 6, st3 := w 7 })]))

/-- A load or a store of a scalar at an address of no range raises WINDOW, and at an address in the windows that is no multiple
of its size raises ALIGN, with the address as value; registers and all memory but the record stay (R192, R392, R438). -/
def Obligations.BadAddressesFault : Prop :=
  ∀ (s : State) (core plat : Nat) (g : Guard) (sz : Sz) (xd : BitVec 6) (aa : BitVec 5) (off : BitVec 10), On s core plat g →
    let c := s.ctx core plat
    let addr := (BitVec.ofInt 48 (((s.aAt core plat aa).extractLsb' 0 48).toNat + 64 * off.toInt)).toNat
    let faults := fun (i : Instr) (code : Nat) => ∃ t, exec i s = .next t ∧
      s.recorded t core c.place.frec c.flow.pc code 3 0x7B addr ∧ (t.ctx core plat).state = .faulted ∧
      (t.ctx core plat).regs = c.regs ∧ (t.ctx core plat).flow = c.flow
    (locate core addr = .nowhere → faults (.ldx g sz xd aa off) 0x12 ∧ faults (.stx g sz xd aa off) 0x12) ∧
    ((linePoints addr sz.bytes).all (inWindows s core c) = true → addr % sz.bytes ≠ 0 →
      faults (.ldx g sz xd aa off) 0x14 ∧ faults (.stx g sz xd aa off) 0x14)

/-! ## The E slot -/

/-- A command whose checks pass enters its context's command queue, last, behind the reads and writes outstanding at its issue
and what the fences in force tell it to wait for; registers and memory stay (R221, R229, R285, R286, R378, R379, R412, R423,
R470, R472, R474). SENDH to a context of the gang enters the queue with the payload and the target read at issue; RQSEED seeds
the streams at its issue, its queue emptied until the stoker accepts it; AXINV sets the region's local state to EMPTY and no
other; AXQRY marks xd pending (R371, R373, R425, R433). A full command queue blocks a command that passes its checks, and its
bundle does not issue (R285). -/
def Obligations.CommandsEnterTheQueue : Prop :=
  (∀ (s : State) (core plat : Nat) (g : Guard) (aa : BitVec 5) (xa ring ch : BitVec 6) (inc : BitVec 16), On s core plat g →
    (s.ctx core plat).cmds.length < 8 →
    let c := s.ctx core plat
    let a := ((s.aAt core plat aa).extractLsb' 0 48).toNat
    let x := (s.xAt core plat xa).toNat
    let readable := fun n => engineRead s core c a n = none
    let hasRing := c.place.ringmask.getLsbD ring.toNat = true
    let enters := fun (i : Instr) (cmd : Command) => exec i s = .next ((s.issued core plat i (fun d => { d with
      nextId := d.nextId + 1
      cmds := d.cmds ++ [⟨d.nextId, s.outstanding core plat ⟨true, true, false, false⟩ .package ++ c.fenceWaits .e, cmd⟩] })).admitted
        (.cmd core plat))
    (ch.toNat = plat → readable 64 → enters (.chstart g ch aa) (.chstart a c.seeds)) ∧
    (ch.toNat = plat → enters (.chstop g ch) .chstop) ∧
    (hasRing → enters (.ringcfg g ring xa) (.ringcfg ring.toNat x)) ∧
    (hasRing → readable 128 →
      enters (.ysort g aa ring inc) (.ysort a ring.toNat inc.toNat) ∧ enters (.ygath g aa ring inc) (.ygath a ring.toNat inc.toNat) ∧
      enters (.ycomb g aa ring inc) (.ycomb a ring.toNat inc.toNat) ∧ enters (.xa2av g aa ring inc) (.xa2av a ring.toNat inc.toNat) ∧
      enters (.xar g aa ring inc) (.xar a ring.toNat inc.toNat) ∧ enters (.xag g aa ring inc) (.xag a ring.toNat inc.toNat) ∧
      enters (.xrun g aa xa ring inc) (.xrun a x ring.toNat inc.toNat) ∧
      enters (.sealL g aa xa ring inc) (.sealL a x ring.toNat inc.toNat) ∧
      enters (.openL g aa xa ring inc) (.openL a x ring.toNat inc.toNat))) ∧
  (∀ (s : State) (core plat : Nat) (g : Guard) (va : BitVec 11) (aa : BitVec 5) (xa xd id : BitVec 6) (handler : BitVec 16),
    On s core plat g → (s.ctx core plat).cmds.length < 8 →
    let c := s.ctx core plat
    let a := ((s.aAt core plat aa).extractLsb' 0 48).toNat
    let x := (s.xAt core plat xa).toNat
    let v := s.vAt core plat va
    let waits := s.outstanding core plat ⟨true, true, false, false⟩ .package ++ c.fenceWaits .e
    let target := clusterOf core * 16 + x / 4
    (∀ ctxid bwin, x < 64 → (s.core target).target (x % 4) c.gang = some (ctxid, bwin) → a % 64 = 0 → a + 384 ≤ 0x800000 →
      (linePoints a 384).all (inBwin bwin) = true →
      exec (.sendh g va aa xa handler) s = .next ((s.issued core plat (.sendh g va aa xa handler) (fun d => { d with
        nextId := d.nextId + 1
        cmds := d.cmds ++ [⟨d.nextId, waits, .sendh (toBytes 384 v.toNat) a target (x % 4) ctxid handler.toNat⟩] })).admitted
          (.cmd core plat))) ∧
    (∃ t, exec (.rqseed g va xa) s = .next t ∧ t.mem = s.mem ∧ (t.ctx core plat).regs = c.regs ∧
      (t.ctx core plat).cmds = c.cmds ++ [⟨c.nextId, waits, .rqseed (v.extractLsb' 0 256) (s.xAt core plat xa)⟩] ∧
      (t.ctx core plat).key = v.extractLsb' 0 256 ∧ (t.ctx core plat).qcount = s.xAt core plat xa ∧
      (t.ctx core plat).queue = [] ∧ (t.ctx core plat).seeds = c.seeds + 1 ∧ (t.ctx core plat).seeding = true) ∧
    (∃ t, exec (.axinv g id) s = .next t ∧ t.mem = s.mem ∧ (t.ctx core plat).regs = c.regs ∧
      (t.ctx core plat).cmds = c.cmds ++ [⟨c.nextId, waits, .axinv id.toNat⟩] ∧
      ∀ n, (t.ctx core plat).region n = if n = id.toNat then { c.region n with state := 0 } else c.region n) ∧
    (∃ t, exec (.axqry g xd id) s = .next t ∧ t.mem = s.mem ∧ (t.ctx core plat).regs = c.regs ∧
      (t.ctx core plat).cmds = c.cmds ++ [⟨c.nextId, waits, .axqry id.toNat xd.toNat⟩] ∧
      (t.ctx core plat).pending = (if xd = 0 then [] else [.x xd.toNat]))) ∧
  (∀ (s : State) (core plat : Nat) (g : Guard) (ring ch xa xd id : BitVec 6) (aa : BitVec 5) (va : BitVec 11)
    (inc handler : BitVec 16), On s core plat g →
    let c := s.ctx core plat
    let a := ((s.aAt core plat aa).extractLsb' 0 48).toNat
    let x := (s.xAt core plat xa).toNat
    let hasRing := c.place.ringmask.getLsbD ring.toNat = true
    let described := hasRing ∧ engineRead s core c a 128 = none
    let blocks := fun (i : Instr) => ∃ t, exec i s = .next t ∧ (t.ctx core plat).state = .blocked ∧
      (t.ctx core plat).why = some .cmdQueue ∧ (t.ctx core plat).cmds = c.cmds ∧ (t.ctx core plat).flow = c.flow ∧
      (t.ctx core plat).regs = c.regs ∧ t.mem = s.mem ∧ (t.core core).running = none ∧ s.now + 2 ≤ (t.core core).nextIssue
    8 ≤ c.cmds.length → (c.cmds.length = 8 → c.cmdSiding ≠ 1) →
    (ch.toNat = plat → engineRead s core c a 64 = none → blocks (.chstart g ch aa)) ∧ (ch.toNat = plat → blocks (.chstop g ch)) ∧
    (hasRing → blocks (.ringcfg g ring xa)) ∧
    (described → blocks (.ysort g aa ring inc) ∧ blocks (.ygath g aa ring inc) ∧ blocks (.ycomb g aa ring inc) ∧
      blocks (.xa2av g aa ring inc) ∧ blocks (.xar g aa ring inc) ∧ blocks (.xag g aa ring inc) ∧ blocks (.xrun g aa xa ring inc) ∧
      blocks (.sealL g aa xa ring inc) ∧ blocks (.openL g aa xa ring inc)) ∧
    (∀ ctxid bwin, x < 64 → (s.core (clusterOf core * 16 + x / 4)).target (x % 4) c.gang = some (ctxid, bwin) → a % 64 = 0 →
      a + 384 ≤ 0x800000 → (linePoints a 384).all (inBwin bwin) = true → blocks (.sendh g va aa xa handler)) ∧
    blocks (.rqseed g va xa) ∧ blocks (.axinv g id) ∧ blocks (.axqry g xd id))

/-- AWAITF issues once its ring holds the threshold, no RINGCFG of it is pending and what fences put before it has performed,
and blocks before; RELS moves RP on by the count, or by what the ring holds where that is less, marking the ring; RINGRD asks
for the ring and marks xd pending; each of them, and RINGCFG, of a ring outside RINGMASK raises WINDOW on the E slot (R221,
R286, R288, R368, R420, R424). -/
def Obligations.RingInstructionsAct : Prop :=
  ∀ (s : State) (core plat : Nat) (g : Guard) (xd xa ring : BitVec 6) (n : BitVec 16), On s core plat g →
    let c := s.ctx core plat
    let r := c.ring ring.toNat
    let hasRing := c.place.ringmask.getLsbD ring.toNat = true
    let fenced := s.allDone core plat (c.fenceWaits .e)
    let refused := fun (i : Instr) => ∃ t, exec i s = .next t ∧ (t.ctx core plat).state = .faulted ∧
      (t.ctx core plat).regs = c.regs ∧ s.recorded t core c.place.frec c.flow.pc 0x12 7 0x3F ring.toNat
    (hasRing → c.ringCfgPending ring.toNat = false → n.toNat ≤ (r.wp - r.rp).toNat → fenced = true →
      exec (.awaitf g ring n) s = .next (s.issued core plat (.awaitf g ring n) id)) ∧
    (hasRing → c.ringCfgPending ring.toNat = true ∨ (r.wp - r.rp).toNat < n.toNat ∨ fenced = false →
      ∃ t, exec (.awaitf g ring n) s = .next t ∧ (t.ctx core plat).state = .blocked ∧ (t.ctx core plat).flow = c.flow ∧
        (t.ctx core plat).why = some (.await ring.toNat n.toNat)) ∧
    (hasRing → c.ringCfgPending ring.toNat = false →
      ∃ t, exec (.rels g ring n) s = .next t ∧ t.mem = s.mem ∧ (t.ctx core plat).regs = c.regs ∧
        (t.ctx core plat).flow.pc = c.flow.pc + 1 ∧
        let q := (t.ctx core plat).ring ring.toNat
        q.wp = r.wp ∧ q.cap = r.cap ∧ q.rp = r.rp + BitVec.ofNat 32 (min n.toNat (r.wp - r.rp).toNat) ∧
        q.status = (if (r.wp - r.rp).toNat < n.toNat then 0x0C else r.status) ∧
        ∀ m, m ≠ ring.toNat → (t.ctx core plat).ring m = c.ring m) ∧
    (hasRing → exec (.ringrd g xd ring) s = .next (s.issued core plat (.ringrd g xd ring) (fun d => { d with
      nextId := d.nextId + 1, awaited := d.awaited ++ [⟨d.nextId, .ring xd.toNat ring.toNat, none, c.fenceWaits .e⟩]
      pending := if xd = 0 then d.pending else .x xd.toNat :: d.pending }))) ∧
    (¬ hasRing → refused (.awaitf g ring n) ∧ refused (.rels g ring n) ∧ refused (.ringrd g xd ring) ∧
      refused (.ringcfg g ring xa))

/-! ## The V slots -/

/-- VADD, VSUB, VMUL, VFMA and VFMS round each exact result once into the format: at +2, the fused ones at +4, with the flags of
all elements, if there are any (R449, R452). The mode is one that the format admits, and a bundle that needs a random word has
one. -/
def Obligations.ElementArithmeticRoundsOnce : Prop :=
  ∀ (s : State) (core plat : Nat) (g : Guard) (f : Fmt) (rm : Rm) (sat : Bool) (vd va vb vc : BitVec 11), On s core plat g →
    let el := fmtOf f
    let x := fun (n : BitVec 11) k => el.val (elemBits el (s.vAt core plat n) k)
    let a := x va
    let b := x vb
    let c := x vc
    let gives := fun (i : Instr) (l : Nat) (nan : Nat → Bool) (t : Nat → FVal) =>
      i.wf = true → (i.pops = true → (s.ctx core plat).queue ≠ []) →
        let r := fun k => resultElem el ((s.ctx core plat).rounds rm k) sat (nan k) (t k)
        ∃ (v : Vec) (bits : Nat), exec i s = .next (s.sends core plat i
            ((l, .v vd.toNat v) :: if bits = 0 then [] else [(l, .fpflags bits)])) ∧
          (∀ k, k < elemCount el → elemBits el v k = (r k).1 % 2 ^ el.width) ∧
          bits = (allFlags ((List.range (elemCount el)).map (fun k => (r k).2))).bits
    let nan2 := fun k => (a k).isNan || (b k).isNan
    let nan3 := fun k => nan2 k || (c k).isNan
    gives (.vadd g f rm sat vd va vb) 2 nan2 (fun k => (a k).add (b k)) ∧
    gives (.vsub g f rm sat vd va vb) 2 nan2 (fun k => (a k).sub (b k)) ∧
    gives (.vmul g f rm sat vd va vb) 2 nan2 (fun k => (a k).mul (b k)) ∧
    gives (.vfma g f rm sat vd va vb vc) 4 nan3 (fun k => ((a k).mul (b k)).add (c k)) ∧
    gives (.vfms g f rm sat vd va vb vc) 4 nan3 (fun k => ((a k).mul (b k)).sub (c k))

/-- VMIN and VMAX give the smaller and the larger of two elements, the compares masks of ones and zeros, VABS and VNEG their
results, all at +2 and with no flag (R451, R455, R464); SAT stands with an integer format only. The bitwise operations work on
all 384 bytes and VSEL selects bit by bit at +2; VPERM gathers elements at +4 and VROT rotates them at +2; the shifts are of
single elements of an integer format at +2; none sets a flag (R453, R465, R467, R468). -/
def Obligations.ElementwiseVectorsLand : Prop :=
  (∀ (s : State) (core plat : Nat) (g : Guard) (f : Fmt) (sat : Bool) (vd va vb : BitVec 11), On s core plat g →
    let el := fmtOf f
    let w := el.width
    let bits := fun n k => elemBits el (s.vAt core plat n) k
    let a := fun k => el.val (bits va k)
    let b := fun k => el.val (bits vb k)
    let ab := fun k => sext (bits va k) w
    let gives := fun (i : Instr) (r : Nat → Nat) => i.wf = true → ∃ v : Vec,
      exec i s = .next (s.sends core plat i [(2, .v vd.toNat v)]) ∧ ∀ k, k < elemCount el → elemBits el v k = r k % 2 ^ w
    let mask := fun c => if c = true then 2 ^ w - 1 else 0
    gives (.vmin g f vd va vb) (fun k => exactBits el ((a k).min (b k))) ∧
    gives (.vmax g f vd va vb) (fun k => exactBits el ((a k).max (b k))) ∧
    gives (.vcmpeq g f vd va vb) (fun k => mask ((a k).eq (b k))) ∧
    gives (.vcmplt g f vd va vb) (fun k => mask ((a k).lt (b k))) ∧
    gives (.vcmple g f vd va vb) (fun k => mask ((a k).le (b k))) ∧
    gives (.vabs g f sat vd va) (fun k => if el.isInt then encodeIntInt el sat ((ab k).natAbs : Int)
      else if (a k).isNan then el.nanCode else bits va k % 2 ^ (w - 1)) ∧
    gives (.vneg g f sat vd va) (fun k => if el.isInt then encodeIntInt el sat (-ab k)
      else if (a k).isNan then el.nanCode else (bits va k + 2 ^ (w - 1)) % 2 ^ w)) ∧
  (∀ (s : State) (core plat : Nat) (g : Guard) (f : Fmt) (vd va vb vc : BitVec 11) (imm : BitVec 16), On s core plat g →
    let el := fmtOf f
    let w := el.width
    let r := s.vAt core plat
    let bits := fun n k => elemBits el (r n) k
    let whole := fun (i : Instr) (v : Vec) => exec i s = .next (s.sends core plat i [(2, .v vd.toNat v)])
    let gives := fun (i : Instr) (l : Nat) (e : Nat → Nat) => i.wf = true → ∃ v : Vec,
      exec i s = .next (s.sends core plat i [(l, .v vd.toNat v)]) ∧ ∀ k, k < elemCount el → elemBits el v k = e k % 2 ^ w
    whole (.vand g vd va vb) (r va &&& r vb) ∧ whole (.vor g vd va vb) (r va ||| r vb) ∧
    whole (.vxor g vd va vb) (r va ^^^ r vb) ∧ whole (.vnot g vd va) (~~~ r va) ∧ whole (.vmov g vd va) (r va) ∧
    whole (.vsel g vd va vb vc) ((r va &&& r vc) ||| (r vb &&& ~~~ r vc)) ∧
    gives (.vperm g f vd va vb) 4 (fun k => bits va (bits vb k % elemCount el)) ∧
    gives (.vrot g f vd va imm) 2 (fun k => bits va ((k + imm.toNat) % elemCount el)) ∧
    gives (.vshl g f vd va vb) 2 (fun k => bits va k * 2 ^ (bits vb k % w)) ∧
    gives (.vshr g f vd va vb) 2 (fun k => bits va k / 2 ^ (bits vb k % w)) ∧
    gives (.vsra g f vd va vb) 2 (fun k => wrap (sext (bits va k) w / 2 ^ (bits vb k % w)) w))

/-- VCVT converts the elements that both formats have and zeroes the rest at +3; VBCST and VINSX move the low bits of x[xa] and
VEXTX an element, sign-extended for an integer format, at +3; VIOTA counts up from its immediate at +2 (R454, R456, R460). VSCAN
gives the prefix sums in ascending order with one rounding per step and VRADD the last of them in every element; VRMAX and VRMIN
give the largest and the smallest; all at +6 (R466). -/
def Obligations.ConversionsAndReductionsLand : Prop :=
  (∀ (s : State) (core plat : Nat) (g : Guard) (fs ft : Fmt) (rm : Rm) (sat : Bool) (vd va : BitVec 11) (xa xd : BitVec 6)
    (ln : BitVec 7) (imm : BitVec 16), On s core plat g →
    let es := fmtOf fs
    let et := fmtOf ft
    let w := es.width
    let e := ln.toNat * 32 / w
    let x := (s.xAt core plat xa).toNat
    let bits := fun k => elemBits es (s.vAt core plat va) k
    let moves := fun (i : Instr) (r : Nat → Nat) => ∃ v : Vec,
      exec i s = .next (s.sends core plat i [(3, .v vd.toNat v)]) ∧ ∀ k, k < elemCount es → elemBits es v k = r k
    let gives := fun (i : Instr) (l : Nat) (f : Elem) (r : Nat → Nat × FFlags) => ∃ (v : Vec) (flags : Nat),
      exec i s = .next (s.sends core plat i ((l, .v vd.toNat v) :: if flags = 0 then [] else [(l, .fpflags flags)])) ∧
      (∀ k, k < elemCount f → elemBits f v k = (r k).1 % 2 ^ f.width) ∧
      flags = (allFlags ((List.range (elemCount f)).map (fun k => (r k).2))).bits
    let cvt := Instr.vcvt g fs ft rm sat vd va
    (cvt.wf = true → (cvt.pops = true → (s.ctx core plat).queue ≠ []) → gives cvt 3 et (fun k =>
      if k < elemCount es then convertElem es et ((s.ctx core plat).rounds rm k) sat (bits k) else (0, {}))) ∧
    moves (.vbcst g fs vd xa) (fun _ => x % 2 ^ w) ∧
    (ln.toNat < 96 → moves (.vinsx g fs vd va xa ln) (fun k => if k = e then x % 2 ^ w else bits k)) ∧
    (ln.toNat < 96 → exec (.vextx g fs xd va ln) s = .next (s.sends core plat (.vextx g fs xd va ln) [(3, .x xd.toNat
      (if es.isInt then BitVec.ofInt 64 (sext (bits e) w) else BitVec.ofNat 64 (bits e)))])) ∧
    gives (.viota g fs vd imm) 2 es (fun k =>
      resultElem es .rne false false (.ofInt (imm.toInt + (k : Int))))) ∧
  (∀ (s : State) (core plat : Nat) (g : Guard) (f : Fmt) (rm : Rm) (vd va : BitVec 11), On s core plat g →
    let el := fmtOf f
    let n := elemCount el
    let bits := fun k => elemBits el (s.vAt core plat va) k
    let first := if el.isInt = false ∧ (el.val (bits 0)).isNan = true then el.nanCode else bits 0
    let step := fun (acc k : Nat) => resultElem el ((s.ctx core plat).rounds rm k) false
      ((el.val acc).isNan || (el.val (bits k)).isNan) ((el.val acc).add (el.val (bits k)))
    let gives := fun (i : Instr) (r : Nat → Nat × FFlags) => i.wf = true → (i.pops = true → (s.ctx core plat).queue ≠ []) →
      ∃ (v : Vec) (flags : Nat),
        exec i s = .next (s.sends core plat i ((6, .v vd.toNat v) :: if flags = 0 then [] else [(6, .fpflags flags)])) ∧
        (∀ k, k < n → elemBits el v k = (r k).1 % 2 ^ el.width) ∧
        flags = (allFlags ((List.range n).map (fun k => (r k).2))).bits
    let folds := fun (op : FVal → FVal → FVal) => (List.range (n - 1)).foldl
      (fun acc k => exactBits el (op (el.val acc) (el.val (bits (k + 1))))) first
    ∃ sum : Nat → Nat × FFlags, sum 0 = (first, {}) ∧ (∀ k, sum (k + 1) = step (sum k).1 (k + 1)) ∧
      gives (.vscan g f rm vd va) sum ∧
      gives (.vradd g f rm vd va) (fun _ => ((sum (n - 1)).1, allFlags ((List.range n).map (fun k => (sum k).2)))) ∧
      gives (.vrmax g f .rne vd va) (fun _ => (folds FVal.max, {})) ∧
      gives (.vrmin g f .rne vd va) (fun _ => (folds FVal.min, {})))

/-! ## Moments, routines and regions -/

/-- The fixed-latency moment instructions compute each lane as R262 gives it and land at +4, MMUL and MSQR at +6, with the
MFLAGS bits of R257, judged on what a lane writes: the variances that they read are not below zero, and with NVF those of MADD,
MSUB and MMUL do not come out below zero; without NVF such a one is written +0 and sets NVC (R257, R258, R259, R262, R401 to
R405). MFORM joins the lanes of two vectors and MMOV copies a moment register, raw, at +2, MFORM with a variance of −0 as +0;
MCOLL.MV and .MSD land means and variances, or their rounded roots, in vd and vd + 1 at +3 (R258, R262, R263, R401, R405, R407;
vd below v2047). A variance below zero that a moment instruction reads raises NEGVAR on its slot with 0x100 plus the lowest such
lane; with NVF a computed one of MADD, MSUB and MMUL raises it with 0x200 plus its lane; the slot writes nothing (R258, R259,
R260). -/
def Obligations.MomentsComputeOrFault : Prop :=
  (∀ (s : State) (core plat : Nat) (g : Guard) (md ma mb : BitVec 8) (vb vc : BitVec 11), On s core plat g →
    let cfg := (s.ctx core plat).creg 0x040
    let ind := cfg.extractLsb' 0 2 = 0#2
    let r := rho cfg
    let rnd := rneF32
    let mu := fun n k => f32Val (meanBits (s.mAt core plat n) k)
    let va := fun n k => f32Val (varBits (s.mAt core plat n) k)
    let el := fun n k => f32Val (elemBits .f32 (s.vAt core plat n) k)
    let cross := fun k => rnd ((sd (va ma k)).mul (sd (va mb k)))
    let two := fun (x : FVal) => FVal.two.mul x
    let sum := fun k => if ind then rnd ((va ma k).add (va mb k))
      else rnd ((rnd ((va ma k).add (va mb k))).add (rnd ((two r).mul (cross k))))
    let t1 := fun k => rnd (((mu ma k).mul (mu ma k)).mul (va mb k))
    let t2 := fun k => rnd (((mu mb k).mul (mu mb k)).mul (va ma k))
    let t3 := fun k => rnd (((FVal.one.add (r.mul r)).mul (va ma k)).mul (va mb k))
    let t4 := fun k => if ind then FVal.zero else rnd ((((two r).mul (mu ma k)).mul (mu mb k)).mul (cross k))
    let lands := fun (i : Instr) (l : Nat) (rule : Bool) (reads : Nat → List FVal) (ins : Nat → List FVal)
        (mean var : Nat → FVal) =>
      (∀ k, k < 96 → ∀ v ∈ reads k, v.isNeg = false) →
      (rule = true → cfg.getLsbD 2 = true → ∀ k, k < 96 → (var k).isNeg = false) →
      ∃ (m : Mom) (bits : Nat), exec i s = .next (s.sends core plat i
          ((l, .m md.toNat m) :: if bits = 0 then [] else [(l, .mflags bits)])) ∧
        (∀ k, k < 96 → meanBits m k = rneF32Bits (mean k) ∧
          varBits m k = if (var k).isNeg ∨ (var k).isZero then 0 else rneF32Bits (var k)) ∧
        bits < 8 ∧ (bits.testBit 0 = true ↔ ∃ k, k < 96 ∧ (var k).isNeg = true) ∧
        (bits.testBit 1 = true ↔ ∃ k, k < 96 ∧ (∀ v ∈ ins k, v.isNan = false) ∧ ((mean k).isNan ∨ (var k).isNan)) ∧
        (bits.testBit 2 = true ↔ ∃ k, k < 96 ∧ (∀ v ∈ ins k, v.isNan = false ∧ v.isInf = false) ∧
          ((mean k).isInf = true ∨ ((var k).isNeg = false ∧ (var k).isInf = true)))
    let two_ := fun k => [va ma k, va mb k]
    let four := fun k => [mu ma k, va ma k, mu mb k, va mb k]
    lands (.madd g md ma mb) 4 true two_ four (fun k => rnd ((mu ma k).add (mu mb k))) sum ∧
    lands (.msub g md ma mb) 4 true two_ four (fun k => rnd ((mu ma k).add (mu mb k).neg)) sum ∧
    lands (.mmul g md ma mb) 6 true two_ four
      (fun k => if ind then rnd ((mu ma k).mul (mu mb k)) else rnd (((mu ma k).mul (mu mb k)).add (r.mul (cross k))))
      (fun k => rnd ((rnd ((rnd ((t1 k).add (t2 k))).add (t3 k))).add (t4 k))) ∧
    lands (.maff g md ma vb vc) 4 false (fun k => [va ma k]) (fun k => [mu ma k, va ma k, el vb k, el vc k])
      (fun k => rnd (((el vb k).mul (mu ma k)).add (el vc k))) (fun k => rnd (((el vb k).mul (el vb k)).mul (va ma k))) ∧
    lands (.msqr g md ma) 6 false (fun k => [va ma k]) (fun k => [mu ma k, va ma k])
      (fun k => rnd (((mu ma k).mul (mu ma k)).add (va ma k)))
      (fun k => rnd ((((FVal.ofInt 4).mul ((mu ma k).mul (mu ma k))).mul (va ma k)).add (two ((va ma k).mul (va ma k)))))) ∧
  (∀ (s : State) (core plat : Nat) (g : Guard) (md ma : BitVec 8) (va vb vd : BitVec 11), On s core plat g →
    let el := fun n k => elemBits .f32 (s.vAt core plat n) k
    let m := s.mAt core plat ma
    let nonneg := fun (b : Nat → Nat) => ∀ k, k < 96 → (f32Val (b k)).isNeg = false
    let collapses := fun (i : Instr) (second : Nat → Nat) => nonneg (varBits m) → vd.toNat < 2047 → ∃ v0 v1 : Vec,
      exec i s = .next (s.sends core plat i [(3, .v vd.toNat v0), (3, .v (vd.toNat + 1) v1)]) ∧
      ∀ k, k < 96 → elemBits .f32 v0 k = meanBits m k ∧ elemBits .f32 v1 k = second k
    exec (.mmov g md ma) s = .next (s.sends core plat (.mmov g md ma) [(2, .m md.toNat m)]) ∧
    (nonneg (el vb) → ∃ w : Mom, exec (.mform g md va vb) s = .next (s.sends core plat (.mform g md va vb) [(2, .m md.toNat w)]) ∧
      ∀ k, k < 96 → meanBits w k = el va k ∧ varBits w k = if el vb k = 0x80000000 then 0 else el vb k) ∧
    collapses (.mcoll g .mv vd ma) (varBits m) ∧
    collapses (.mcoll g .msd vd ma) (fun k => rneF32Bits (sd (f32Val (varBits m k))))) ∧
  (∀ (s : State) (core plat : Nat) (g : Guard) (mode : CollMode) (md ma mb : BitVec 8) (va vb vc vd : BitVec 11) (k : Nat),
    On s core plat g → k < 96 → mode ≠ .sample → ((s.ctx core plat).creg 0x060).getLsbD 13 = false →
    let c := s.ctx core plat
    let cfg := c.creg 0x040
    let faults := fun (i : Instr) (value : Nat) => ∃ t, exec i s = .next t ∧
      s.recorded t core c.place.frec c.flow.pc 0x20 4 0x77 value ∧ (t.ctx core plat).state = .faulted ∧
      (t.ctx core plat).regs = c.regs ∧ (t.ctx core plat).flow = c.flow ∧ (t.ctx core plat).cregs = c.cregs
    let neg := fun (n : BitVec 8) j => (f32Val (varBits (s.mAt core plat n) j)).isNeg
    let negV := fun j => (f32Val (elemBits .f32 (s.vAt core plat vb) j)).isNeg
    let pair := fun (n : BitVec 8) j =>
      Pair.mk (f32Val (meanBits (s.mAt core plat n) j)) (f32Val (varBits (s.mAt core plat n) j))
    let both := fun j => neg ma j || neg mb j
    let out := fun (f : Word → Pair → Pair → Pair) j => (f cfg (pair ma j) (pair mb j)).var.isNeg
    let computed := fun (i : Instr) (f : Word → Pair → Pair → Pair) =>
      (∀ j, j < 96 → both j = false) → cfg.getLsbD 2 = true → out f k = true → (∀ j, j < k → out f j = false) →
        faults i (0x200 + k)
    (both k = true → (∀ j, j < k → both j = false) →
      faults (.madd g md ma mb) (0x100 + k) ∧ faults (.msub g md ma mb) (0x100 + k) ∧ faults (.mmul g md ma mb) (0x100 + k)) ∧
    (neg ma k = true → (∀ j, j < k → neg ma j = false) → faults (.maff g md ma vb vc) (0x100 + k) ∧
      faults (.msqr g md ma) (0x100 + k) ∧ faults (.mcoll g mode vd ma) (0x100 + k)) ∧
    (negV k = true → (∀ j, j < k → negV j = false) → faults (.mform g md va vb) (0x100 + k)) ∧
    computed (.madd g md ma mb) addLane ∧ computed (.msub g md ma mb) subLane ∧ computed (.mmul g md ma mb) mulLane)

/-- A ROM instruction starts its ROM routine in the next cycle with its operands, and so does a bound instruction with those of
its slot and its binding's start and bound: the first stitch is fetched there, n1 to n3 are 0, and nothing else of the core
issues before bound + 1; registers but the loop counters, memory and the PC stay (R90, R127, R159, R179, R457). AXENTER opens
its region and falls through its two delay bundles where the region has no descriptor, AXEN is 0, the entry is not ENABLED, an
input lies outside the box, the buffers do not fit or the instance is sampled, which a context whose buffers do not fit samples
too; else it substitutes: the transfer is taken and the surrogate runs on the active buffer. That a region without a descriptor
opens with a latched input of 0 is the model's choice (log 27). AXLEAVE closes the region, and an observed instance's pairs are
on their way (R269, R270, R277, R278, R280, R281, R369, R370, R372). -/
def Obligations.RoutinesAndRegionsStart : Prop :=
  (∀ (s : State) (core plat : Nat) (g : Guard) (vd va : BitVec 11) (md ma : BitVec 8) (cls : BoundClass) (code : BitVec 6)
    (raw : BitVec 66) (b : Binding), On s core plat g →
    let c := s.ctx core plat
    let f := fun hi lo => field raw.toNat (hi - 14) (lo - 14)
    let starts := fun (i : Instr) (start bound p0 p1 : Nat) (more : RoutineArgs → Prop) => ∃ t r, exec i s = .next t ∧
      (t.core core).routine = some r ∧ r.plat = plat ∧ r.start = s.now ∧ r.next = s.now + 1 ∧ r.ended = false ∧
      r.span = bound + 1 ∧ s.now + bound + 1 ≤ (t.core core).nextIssue ∧ r.args.bind.bound = bound ∧
      r.args.p0 = p0 ∧ r.args.p1 = p1 ∧ more r.args ∧ (t.ctx core plat).micro.pc = start ∧
      (t.ctx core plat).micro.steps = 0 ∧ t.mem = s.mem ∧
      { (t.ctx core plat).regs with n := c.regs.n } = c.regs ∧ (∀ n, (t.ctx core plat).regs.getN n = 0) ∧
      (t.ctx core plat).flow = c.flow ∧ (t.ctx core plat).cregs = c.cregs
    let rom := fun (i : Instr) (start bound p0 p1 : Nat) =>
      (i.pops = true → c.queue ≠ []) → starts i start bound p0 p1 (fun a => a.rom = true)
    rom (.vrcp g vd va) 0x1000 9 vd.toNat va.toNat ∧ rom (.vrsq g vd va) 0x1010 11 vd.toNat va.toNat ∧
    rom (.vexp g vd va) 0x1020 13 vd.toNat va.toNat ∧ rom (.vlog g vd va) 0x1040 15 vd.toNat va.toNat ∧
    rom (.vtanh g vd va) 0x1050 17 vd.toNat va.toNat ∧ rom (.vsigm g vd va) 0x1068 17 vd.toNat va.toNat ∧
    rom (.mrelu g md ma) 0x1080 23 md.toNat ma.toNat ∧ rom (.mexp g md ma) 0x10A0 19 md.toNat ma.toNat ∧
    rom (.mcoll g .sample vd ma) 0x10C0 2 vd.toNat ma.toNat ∧
    (c.binding cls code = some b → c.moveInGroups core b.groups = false →
      starts (.boundInstruction g cls code raw) b.start b.bound
        (match cls with | .a => f 18 14 | .v => f 27 17 | .t => f 20 16)
        (match cls with | .a => f 23 19 | .v => f 38 28 | .t => f 25 21) (fun a => a.bind = b ∧ a.rom = false ∧
          a.p2 = (match cls with | .a => f 34 24 | .v => f 49 39 | .t => f 31 26) ∧
          a.p3 = (match cls with | .a => f 45 35 | .v => f 60 50 | .t => f 50 40) ∧
          a.k = (match cls with | .a => f 63 46 | .v => f 79 64 | .t => f 79 64)))) ∧
  (∀ (s : State) (core plat : Nat) (g : Guard) (id : BitVec 6) (off : BitVec 16), On s core plat g →
    let c := s.ctx core plat
    let enter := Instr.axenter g id off
    let n := id.toNat
    let l := c.region n
    let target := (BitVec.ofInt 64 (c.flow.pc + off.toInt)).toNat
    let ask := fun (t : State) => (t.die (dieOf core)).requests.length = (s.die (dieOf core)).requests.length + 1
    let opens := fun (t : State) (input : Vec) (observed sampled : Bool) => exec enter s = .next t ∧ t.mem = s.mem ∧
      (t.ctx core plat).regs = c.regs ∧ (t.ctx core plat).flow.pc = c.flow.pc + 1 ∧
      (t.ctx core plat).flow.xfer = some ⟨target, false, 2, false⟩ ∧
      (t.ctx core plat).latch = some ⟨n, input, observed, sampled⟩
    (c.desc n = none → ∃ t, opens t 0 false false ∧ t.dies = s.dies) ∧
    (∀ d, c.desc n = some d →
      let input := c.regs.getV d.input
      let last := l.counter % 2 ^ d.rate = 2 ^ d.rate - 1
      let boxed := inBox d l.box (d.inputs input) = true
      let counts := fun (t : State) => ((t.ctx core plat).region n).counter = l.counter + 1
      (c.axen = false → ∃ t, opens t input false false ∧ t.dies = s.dies) ∧
      (c.axen = true → l.state ≠ 3 → ∃ t, opens t input (l.state != 5) false ∧ ask t) ∧
      (c.axen = true → l.state = 3 → ¬ boxed → ∃ t, opens t input true false ∧ ask t ∧ counts t) ∧
      (c.axen = true → l.state = 3 → boxed → last → ∃ t, opens t input true true ∧ ask t ∧ counts t) ∧
      (c.axen = true → l.state = 3 → boxed → ¬ last → c.fits d = false → ∃ t, opens t input true false ∧ ask t ∧ counts t) ∧
      (c.axen = true → l.state = 3 → boxed → ¬ last → c.fits d = true → ∃ t r, exec enter s = .next t ∧ ask t ∧ counts t ∧ t.mem = s.mem ∧
        (t.ctx core plat).latch = none ∧ (t.ctx core plat).flow.xfer = some ⟨target, true, 3, false⟩ ∧
        (t.core core).routine = some r ∧ r.args.p0 = d.output ∧ r.args.p1 = d.input ∧ r.args.region = some n ∧
        r.args.bind.bound = d.bound ∧ r.args.k = (c.swBase + c.bufOff d ((t.ctx core plat).region n).active) / 64 ∧
        (t.ctx core plat).micro.pc = (if d.elem then 0x10C8 else 0x1100) ∧
        ((t.ctx core plat).region n).active = (if l.active = 0 then (if l.ver0 < l.ver1 then 1 else 0)
          else (if l.ver1 < l.ver0 then 0 else l.active)))) ∧
    (c.latch = none → exec (.axleave g) s = .next (s.issued core plat (.axleave g) (fun d => d))) ∧
    (∀ q, c.latch = some q → ∃ t, exec (.axleave g) s = .next t ∧ t.mem = s.mem ∧ (t.ctx core plat).regs = c.regs ∧
      (t.ctx core plat).latch = none ∧ (t.ctx core plat).flow.pc = c.flow.pc + 1 ∧
      (q.observed = false → t.dies = s.dies) ∧
      ∀ d, q.observed = true → c.desc q.id = some d → ∃ e, (t.die (dieOf core)).delivering =
        (s.die (dieOf core)).delivering ++ [e] ∧ e.world = c.world ∧ e.id = q.id ∧ e.input = q.input ∧
        e.output = c.regs.getV d.output ∧ e.sampled = q.sampled ∧ e.since = s.now + 1))

/-! ## The T slot -/

/-- TMMA, plain or replayed, TMMB and TMMM on operands without poison or uncorrectable words that pass the checks of R241
accumulate the products of their operands into the cells of their shape, and into no others; the half is the platform's, busy
for KCEIL over k cycles, and its result stands 12 cycles later; memory and registers stay (R197, R238, R239, R243, R244, R442,
R445). -/
def Obligations.MatrixProductsAccumulate : Prop :=
  ∀ (s : State) (core plat : Nat) (g : Guard) (pl : Plane) (aA aB : BitVec 5) (xs : BitVec 6) (kcl : BitVec 4) (acc : Bool)
    (win : Option (BitVec 2)) (sh : Shape) (a b : TileOperand), On s core plat g → TileFree s core plat → s.poisoned = [] →
    s.uncorrectable = [] →
    let c := s.ctx core plat
    let x := s.xAt core plat xs
    let rows := (s.core core).rowsOf
    let kmax := 64 * 2 ^ kcl.toNat
    let regA := s.aAt core plat aA
    let regB := s.aAt core plat aB
    let second := fun n => b = if isBlockFmt (fmtCode (tileFmt core c (addrOf regB))) then packedOperand core c regB n sh.k
      else packedOperand core c regB sh.k n
    let runs := fun (i : Instr) (mx : Matrix) => operandFault s core c mx.moment a b = none →
      ∃ t, exec i s = .next t ∧ s.matrixDone t core plat mx sh a b ∧ t.mem = s.mem ∧
        (t.ctx core plat).regs = c.regs ∧ (t.ctx core plat).flow.pc = c.flow.pc + 1 ∧
        (t.halfAt core plat).owner = some plat ∧ (t.halfAt core plat).ready = (t.halfAt core plat).busy + 12 ∧
        (t.halfAt core plat).busy = s.now + kmax / (if mx.moment then 1 else min (fmtK (fmtCode a.bfmt)) (fmtK (fmtCode b.bfmt)))
    (shapeA rows (some kmax) x = some sh → second sh.n →
      (match win with
        | none => a = packedOperand core c regA sh.m sh.k
        | some w => replayOperand core c (SMap.get Replay.empty c.replays w.toNat) regA x sh = .ok a) →
      runs (.tmma g pl aA aB xs kcl acc win) ⟨pl, acc, false, false, kmax⟩) ∧
    (shapeB rows kmax x = some sh → second 192 → a = packedOperand core c regA rows sh.k →
      runs (.tmmb g pl aA aB xs kcl acc) ⟨pl, acc, true, false, kmax⟩) ∧
    (shapeA rows (some kmax) x = some sh → second sh.n → a = packedOperand core c regA sh.m sh.k →
      runs (.tmmm g aA aB xs kcl acc) ⟨.z01, acc, false, true, kmax⟩)

/-- TZERO zeroes the cells of its shape and is busy for one cycle; TDRAIN is busy for 88, its rows, converted as at its issue,
waiting to perform, with the stochastic bytes that they draw; TFILL is busy for 80, the rows it read waiting to be in place;
memory and registers stay (R246, R247, R248, R443, R444, R447). That the rows are read at issue is the model's (log entry 24).
The array's own steps: the rows of a drain whose random bytes have been generated and that meet no poison perform, last ones
standing, and no other byte changes; one whose bytes have not waits a cycle more, its half busy; the rows of a fill are in
place, and no other cell changes; a result stands; a busy window ends with its claims and reports a poisoned operand to the
half's owner (R149, R210, R232, R244, R247, R248; the wait is log entry 85). A spill for a newcomer starts once the old owner's
results are in place, and takes 8 + ceil(3n/4) cycles for the n rows that it saves and again for those that it reloads; at its
end it has written the rows in use of the old owner to its ACCSAVE and recorded them, and leaves the newcomer the owner of rows
that are zero where none was recorded for it (R249, R251; no claim on the ACCSAVE area). The 8 cycles for an owner with no rows
in use are the model's (log entry 25). -/
def Obligations.TileTransfersStartEndAndSpill : Prop :=
  (∀ (s : State) (core plat : Nat) (g : Guard) (pl : Plane) (plane : Bool) (aA : BitVec 5) (xs : BitVec 6) (ep : Epilogue)
    (vb : BitVec 11) (sh : Shape), On s core plat g → TileFree s core plat →
    let c := s.ctx core plat
    let n := (s.core core).rowsOf
    let row := s.rowAt core plat
    let a := s.aAt core plat aA
    let dr := drainRuns core c a n
    let fr := fillRuns a n
    let w := drainWrites (s.core core) core c pl ep vb.toNat row dr.1 dr.2
    let starts := fun (i : Instr) (span : Nat) (t : State) => exec i s = .next t ∧ t.mem = s.mem ∧
      (t.ctx core plat).regs = c.regs ∧ (t.ctx core plat).flow.pc = c.flow.pc + 1 ∧
      (t.halfAt core plat).owner = some plat ∧ (t.halfAt core plat).busy = s.now + span
    (shapeA n none (s.xAt core plat xs) = some sh → ∃ t, starts (.tzero g pl xs) 1 t ∧
      ∀ p r j, p < 2 → r < 96 → j < 192 → t.accAt core p r j =
        if p ∈ planesOf pl ∧ row ≤ r ∧ r < row + sh.m ∧ j < sh.n then 0#32 else s.accAt core p r j) ∧
    (drainFault s core c pl ep dr.1 dr.2 = none → ∃ t d, starts (.tdrain g pl aA ep vb) 88 t ∧
      (t.halfAt core plat).drain = some d ∧ d.due = s.now + 88 ∧ d.plat = plat ∧ d.seed = c.seeds ∧
      d.writes = w.1 ∧ d.upto = (if w.2 = 0 then 0 else c.takenOf c.seeds 2 + w.2) ∧
      (ep = .none → pl ≠ .z01 → fmtCode dr.1 = 0 → d.writes = dr.2.zipIdx.map (fun q => (s1Place core q.1.1,
        ((s.core core).accRow (if pl == .z1 then 1 else 0) (row + q.2)).flatMap (fun v => toBytes 4 v.toNat))))) ∧
    (fillFault s core c fr = none → ∃ t, starts (.tfill g plane aA) 80 t ∧
      (t.halfAt core plat).fill = some ⟨s.now + 80, plane.toNat, row, fr.map (fun q => (List.range 192).map (fun j =>
        BitVec.ofNat 32 (s.word (s1Place core (q.1 + 4 * j)) 4)))⟩)) ∧
  (∀ (s : State) (core hn : Nat), hn < 2 →
    let h := (s.core core).half hn
    let half := fun (t : State) => (t.core core).half hn
    (∀ d, h.drain = some d → d.due ≤ s.now →
      (d.upto ≤ 384 * (s.ctx core d.plat).unitsOf d.seed 2 → (∀ w ∈ d.writes, s.badWrite w.1 w.2.length = false) →
        ∃ t, exec (.tdrainWrite core hn) s = .next t ∧ (half t).drain = none ∧
          (∀ p, Mem.byte t.mem p = (placed d.writes p).getD (Mem.byte s.mem p)) ∧ ∀ p, t.ctx core p = s.ctx core p) ∧
      (384 * (s.ctx core d.plat).unitsOf d.seed 2 < d.upto → ∃ t, exec (.tdrainWrite core hn) s = .next t ∧ t.mem = s.mem ∧
        (half t).drain = some { d with due := s.now + 1 } ∧ (half t).busy = s.now + 1 ∧ ∀ p, t.ctx core p = s.ctx core p)) ∧
    (∀ f, h.fill = some f → f.due ≤ s.now → f.plane < 2 → f.firstRow + f.rows.length ≤ 96 →
      ∃ t, exec (.tfillLoad core hn) s = .next t ∧ (half t).fill = none ∧ t.mem = s.mem ∧
        ∀ p r j, p < 2 → r < 96 → j < 192 → t.accAt core p r j =
          if p = f.plane ∧ f.firstRow ≤ r ∧ r < f.firstRow + f.rows.length then (f.rows.getD (r - f.firstRow) []).getD j 0#32
          else s.accAt core p r j) ∧
    (0 < h.ready → h.ready ≤ s.now → ∃ t, exec (.tileResultReady core hn) s = .next t ∧ half t = { h with ready := 0 } ∧
      t.mem = s.mem) ∧
    (h.busy ≤ s.now → (h.claims.any (fun q => q.till ≤ s.now) = true ∨ h.hwerr.isSome = true) →
      ∃ t, exec (.tileBusyEnd core hn) s = .next t ∧ t.mem = s.mem ∧ (half t).claims = h.claims.filter (fun q => s.now < q.till) ∧
        (half t).hwerr = none ∧ ∀ line o, h.hwerr = some line → h.owner = some o →
          (t.ctx core o).asyncFaults = (s.ctx core o).asyncFaults ++ [⟨0x30, 8, line, 0, none⟩])) ∧
  (∀ (s : State) (core hn old new due : Nat), hn < 2 →
    let h := (s.core core).half hn
    let k := s.core core
    let cycles := fun (n : Nat) => 8 + (3 * n + 3) / 4
    let back := (s.ctx core new).recorded
    (h.spill = some (new, none) → h.busy ≤ s.now → h.ready = 0 → h.drain = none → h.fill = none →
      exec (.accumulatorSpill core hn) s = .next (s.setCore core (k.setHalf hn { h with spill := some (new, some (s.now +
        ((if h.owner.isSome then cycles h.inUse else 0) + if 0 < back then cycles back else 0))) }))) ∧
    (h.spill = some (new, some due) → due ≤ s.now → h.owner = some old → old ≠ new → s.saveClaimed core old = false →
    (s.ctx core new).accMask.all (· = 0#96) = true →
    ∃ t, exec (.accumulatorSpill core hn) s = .next t ∧
      ((t.core core).half hn).owner = some new ∧ ((t.core core).half hn).spill = none ∧
      ((t.core core).half hn).mask0 = 0 ∧ ((t.core core).half hn).mask1 = 0 ∧
      (t.ctx core old).accMask = [h.mask0, h.mask1] ∧ (t.ctx core old).regs = (s.ctx core old).regs ∧
      (∀ p r j, p < 2 → r < 96 → j < 192 → t.accAt core p r j =
        if k.split = true ∧ r / 48 ≠ hn then s.accAt core p r j else 0#32) ∧
      (∀ p r j, p < 2 → r < 96 → j < 192 → (if p = 0 then h.mask0 else h.mask1).getLsbD r = true →
        t.word (accSavePlace core (s.ctx core old) p r + 4 * j) 4 = (s.accAt core p r j).toNat)))

/-! ## Stitches -/

/-- The element-wise lane operations write, at the end of their step, each element of the destination from those of the
destination and the sources, rounded once, with nothing else of the machine changed (R160, R165, R166). -/
def Obligations.LaneOperationsWriteElements : Prop :=
  ∀ (s : State) (core : Nat) (r : Routine) (l : LaneArgs), Stitching s core r →
    let f := laneElemFmt l.fmt
    let v := f.val
    let w := f.width
    let flags := (s.ctx core r.plat).micro.flags
    let rnd := fun (sat : Bool) (t : FVal) => (resultElem f .rne sat true t).1
    let c := s.ctx core r.plat
    let x := fun sel k => lane (selRead c r.args l.fmt l.lit sel) k w
    let gives := fun (i : Instr) (op : Nat) (e : Nat → Nat → Nat → Nat → Nat) =>
      stitchFault s core c r { romIdle with lane := some (op, l), neg := l, lit := l.lit } [] = none →
      exec i s = .next (s.stitched core r (selWrite c r.args l.fmt
        (packLanes w ((List.range (laneCount l.fmt)).map (fun k => e k (x l.d k) (x l.a k) (x l.b k)))) l.d).nextStitch)
    let exact2 := fun (i : Instr) (op : Nat) (sat : Bool) (t : FVal → FVal → FVal) =>
      gives i op (fun _ _ a b => rnd sat (t (v a) (v b)))
    let exact3 := fun (i : Instr) (op : Nat) (t : FVal → FVal → FVal → FVal) =>
      gives i op (fun _ d a b => rnd false (t (v d) (v a) (v b)))
    gives (.laneMov l) 0x01 (fun _ _ a _ => a) ∧
    exact2 (.laneAdd l) 0x02 l.sat FVal.add ∧ exact2 (.laneSub l) 0x03 l.sat FVal.sub ∧
    exact2 (.laneMul l) 0x04 l.sat FVal.mul ∧
    exact3 (.laneFma l) 0x05 (fun d a b => (a.mul b).add d) ∧ exact3 (.laneFnma l) 0x06 (fun d a b => d.sub (a.mul b)) ∧
    exact3 (.laneHorn l) 0x07 (fun d a b => (d.mul a).add b) ∧
    gives (.laneMin l) 0x08 (fun _ _ a b => exactBits f ((v a).min (v b))) ∧
    gives (.laneMax l) 0x09 (fun _ _ a b => exactBits f ((v a).max (v b))) ∧
    gives (.laneAbs l) 0x0A (fun _ _ a _ => absElem f l.sat a) ∧ gives (.laneNeg l) 0x0B (fun _ _ a _ => negElem f l.sat a) ∧
    exact2 (.laneClmps l) 0x0C false (fun a b => (a.max b.abs.neg).min b.abs) ∧
    gives (.laneAnd l) 0x0D (fun _ _ a b => a &&& b) ∧ gives (.laneOr l) 0x0E (fun _ _ a b => a ||| b) ∧
    gives (.laneXor l) 0x0F (fun _ _ a b => a ^^^ b) ∧
    gives (.laneShl l) 0x10 (fun _ _ a b => a * 2 ^ (b % w) % 2 ^ w) ∧ gives (.laneShr l) 0x11 (fun _ _ a b => a / 2 ^ (b % w)) ∧
    gives (.laneSra l) 0x12 (fun _ _ a b => wrap (sext a w / 2 ^ (b % w)) w) ∧
    gives (.laneSel l) 0x16 (fun k _ a b => if flags.getLsbD k then a else b) ∧
    gives (.laneSelz l) 0x17 (fun _ d a b => if (v b).isZero then a else d) ∧
    exact2 (.laneRndi l) 0x18 false (fun a _ => rndi a) ∧ exact2 (.laneScalb l) 0x1A false scalb ∧
    exact2 (.laneMantc l) 0x1B false (fun a _ => mantc a) ∧ exact2 (.laneExpc l) 0x1C false expc ∧
    exact2 (.laneRcpe l) 0x1D false (fun a _ => rcpe a) ∧ exact2 (.laneRsqe l) 0x1E false (fun a _ => rsqe a) ∧
    exact2 (.laneRecs l) 0x1F false (stepFrom 2) ∧ exact2 (.laneRsqs l) 0x20 false (fun a b => (stepFrom 3 a b).scale (-1)) ∧
    exact2 (.laneResd l) 0x21 false (fun a b => FVal.one.sub (a.mul b)) ∧
    exact2 (.laneNcdf l) 0x25 false (fun a _ => ncdf a) ∧ exact2 (.laneNpdf l) 0x26 false (fun a _ => npdf a)

/-- The other lane operations: the compares set a flag for each element and clear the rest; CVT, the FIX operations, NSCL, the
reductions, BCE, NETU and FMAB write their destination, CVT the whole of it or the half that it names; all but FIX operations of
V-class ROM routines change nothing else (R166, R167, R168, R169, R170). -/
def Obligations.OtherLaneOperationsComplete : Prop :=
  ∀ (s : State) (core : Nat) (r : Routine) (l : LaneArgs), Stitching s core r →
    let c := s.ctx core r.plat
    let f := laneElemFmt l.fmt
    let n := laneCount l.fmt
    let rd := fun sel => selRead c r.args l.fmt l.lit sel
    let el := fun sel k => lane (rd sel) k f.width
    let j := l.b.code.toNat
    let n0 := (c.regs.getN 0).toNat
    let h := fun k => if k < 96 then elemBits .f32 (c.regs.getH 14) k else elemBits .f32 (c.regs.getH 15) (k - 96)
    let passes := fun (op : Nat) => stitchFault s core c r { romIdle with lane := some (op, l), neg := l, lit := l.lit } [] = none
    let compares := fun (i : Instr) (op : Nat) (holds : FVal → FVal → Bool) => passes op →
      ∃ flags : BitVec 384, exec i s = .next (s.stitched core r
          { c with micro := { c.micro with flags := flags, count := n } }.nextStitch) ∧
        ∀ k, k < 384 → flags.getLsbD k = (decide (k < n) && holds (f.val (el l.a k)) (f.val (el l.b k)))
    let writes := fun (i : Instr) (op : Nat) (e : Nat → Nat) => passes op →
      exec i s = .next (s.stitched core r (selWrite c r.args l.fmt (packLanes f.width ((List.range n).map e)) l.d).nextStitch)
    let fixes := fun (i : Instr) (op : Nat) => passes op → ∃ t, exec i s = .next t ∧ t.mem = s.mem ∧
      (t.ctx core r.plat).regs = (selWrite c r.args l.fmt (packLanes f.width ((List.range n).map (fun k =>
        match fixSpecial op (f32Val (el l.b k)) with | some q => rneF32Bits q.1 | none => el l.a k))) l.d).regs ∧
      (t.ctx core r.plat).micro.pc = c.micro.pc + 1 ∧
      (r.args.rom = false ∨ r.args.cls ≠ 1 → (t.ctx core r.plat).cregs = c.cregs)
    let pair := l.fmt = .pair
    let to_ := laneElemFmt (LaneFmt.ofCode (j % 8))
    let cvt := fun k i => (convertElem f to_ ((laneAux c r.args).rounding i) l.sat (el l.a k)).1 % 2 ^ to_.width
    compares (.laneCmplt l) 0x13 FVal.lt ∧ compares (.laneCmple l) 0x14 FVal.le ∧ compares (.laneCmpeq l) 0x15 FVal.eq ∧
    (passes 0x19 → ∃ t, exec (.laneCvt l) s = .next t ∧ t.mem = s.mem ∧ (t.ctx core r.plat).micro.pc = c.micro.pc + 1 ∧
      ∃ w : Nat, (t.ctx core r.plat).regs = (selWrite c r.args l.fmt w l.d).regs ∧ ∀ i, i < elemCount to_ →
        lane w i to_.width =
          if elemCount to_ = elemCount f then cvt i i
          else if elemCount to_ < elemCount f then cvt (j / 8 % 2 * elemCount to_ + i) i
          else if i / elemCount f = j / 8 % 2 then cvt (i % elemCount f) (i % elemCount f)
          else lane (rd l.d) i to_.width) ∧
    fixes (.laneFixrcp l) 0x22 ∧ fixes (.laneFixrsq l) 0x23 ∧ fixes (.laneFixlog l) 0x24 ∧
    (∀ w, c.micro.word = some w → writes (.laneNscl l) 0x27 (fun k =>
      let at_ := fun i => lane w.toNat ((i + (if r.args.slot = 5 then 48 else 0)) % 384) 8
      rneF32Bits (nscl (f32Val (el l.a k)) (nsclZ (at_ (2 * k) + 256 * at_ (2 * k + 1)))))) ∧
    writes (.laneRadd l) 0x28 (fun _ => (List.range (n - 1)).foldl (fun acc k =>
      (resultElem f .rne false true ((f.val acc).add (f.val (el l.a (k + 1))))).1) (startElem f (el l.a 0))) ∧
    writes (.laneRmax l) 0x29 (fun _ => (List.range (n - 1)).foldl (fun acc k =>
      exactBits f ((f.val acc).max (f.val (el l.a (k + 1))))) (startElem f (el l.a 0))) ∧
    writes (.laneBce l) 0x2A (fun k => if pair then el l.a ((2 * (j + n0) + k / 96) % 192) else el l.a ((j + n0) % n)) ∧
    (l.fmt = .f32 → writes (.laneNetu l) 0x2B (fun k =>
      let u := rneF32 (((f32Val (el l.a k)).mul (f32Val (elemBits .f32 (c.regs.getH 15) (3 * j + 1)))).add
        (f32Val (elemBits .f32 (c.regs.getH 15) (3 * j + 2))))
      rneF32Bits ((f32Val (el l.d k)).add ((f32Val (elemBits .f32 (c.regs.getH 15) (3 * j + 3))).mul (u.max .zero))))) ∧
    (f = .f32 → writes (.laneFmab l) 0x2C (fun k => rneF32Bits (((f32Val (el l.a k)).mul
      (f32Val (if pair then h ((2 * (j + n0) + k / 96) % 192) else h ((j + n0) % 192)))).add (f32Val (el l.d k)))))

/-- The sequencer goes to its next micro address, with its counter or its link; END ends the routine; a RAISE whose condition
does not hold goes on, and one whose condition holds takes the routine from the sequencer with its code recorded (R160, R163,
R176). -/
def Obligations.SequencerStepsGoWhereTold : Prop :=
  ∀ (s : State) (core : Nat) (r : Routine) (target code : BitVec 13) (k : Cond) (n : BitVec 2), Stitching s core r →
    let c := s.ctx core r.plat
    let at_ := fun (pc : Nat) => { c with micro := { c.micro with pc := pc } }
    let v := c.regs.getN n.toNat
    let passes := fun (q : Seq) => stitchFault s core c r { romIdle with seq := q } [] = none
    let goes := fun (i : Instr) (q : Seq) (d : Ctx) => passes q → exec i s = .next (s.stitched core r d)
    goes (.seqJump target) (.jump target) (at_ target.toNat) ∧
    goes (.seqBrif k target) (.brif k target) (at_ (if condHolds c k then target.toNat else c.micro.pc + 1)) ∧
    goes (.seqLoop n target) (.loop n target) (if v = 0 then at_ (c.micro.pc + 1) else
      { at_ target.toNat with regs := c.regs.setN n.toNat (v - 1) }) ∧
    goes (.seqCallrom target) (.callrom target)
      { c with micro := { c.micro with pc := target.toNat, link := some (c.micro.pc + 1) } } ∧
    (∀ a, c.micro.link = some a → goes .seqRetrom .retrom { c with micro := { c.micro with pc := a, link := none } }) ∧
    (passes .stop → exec .seqEnd s = .next (s.stitched core { r with ended := true } c)) ∧
    (condHolds c k = false → goes (.seqRaise k code) (.raise k code) (at_ (c.micro.pc + 1))) ∧
    (passes (.raise k code) → condHolds c k = true → c.haltPending = false → ∃ t, exec (.seqRaise k code) s = .next t ∧
      (t.core core).routine = none ∧ t.word (s1Place core c.place.frec + 6) 1 = code.toNat % 256 ∧
      t.word (s1Place core c.place.frec + 7) 1 = r.args.slot % 256 ∧ t.word (s1Place core c.place.frec) 4 = r.mpc % 8192 ∧
      ∀ p, (p < s1Place core c.place.frec ∨ s1Place core c.place.frec + 2048 ≤ p) → t.bytes p 1 = s.bytes p 1)

/-- LD and LDC of S1 read their bytes at their step, on their way to the register at step + 4; ST and STC of S1 write theirs at
their step and change no other byte, where STC encodes in no block format and, in a binding whose stitches may wait, its random
bytes have been generated (R149, R160, R171; log entry 85). FEED makes one beat at every owned cell, DROW reads a row of a plane
into a pair and FROW loads it from one; CLD sets its counter, RPOP takes a random word, NEGIN and NEGCHK let an operand without
a negative element pass, and NEGCHK without NVF marks one that has such an element in MFLAGS.NVC (R172, R173). -/
def Obligations.StitchFieldsAct : Prop :=
  (∀ (s : State) (core : Nat) (r : Routine) (u : AguArgs), Stitching s core r →
    let c := s.ctx core r.plat
    let step := c.micro.steps + 1
    let plan := fun op => aguPlan core c r.args op u
    let p := plan 1
    let passes := fun op => (plan op).hbm = false ∧
      stitchFault s core c r { romIdle with agu := some (op, u) } [] = none
    let reads := fun (i : Instr) (op : Nat) (data : List Byte) => passes op →
      exec i s = .next (s.stitched core { r with loads := [⟨step + 4, u.reg, u.fmt, data⟩] } c.nextStitch)
    let stores := fun (i : Instr) (op : Nat) (bs : List Byte) => passes op → ∃ t, exec i s = .next t ∧
      s.storedOwn t core [((plan op).addr, bs.length)] bs ∧ (t.ctx core r.plat).regs = c.regs ∧
      (t.ctx core r.plat).cregs = c.cregs ∧ (t.ctx core r.plat).micro.pc = c.micro.pc + 1 ∧
      (t.ctx core r.plat).micro.steps = step
    let v := aguStored core c r.args (plan 4) u.fmt (selRead c r.args u.fmt none u.reg)
    reads (.aguLd u) 1 (s.bytes (s1Place core p.addr) (laneBytes u.fmt)) ∧
    reads (.aguLdc u) 3 (aguLoaded s core c (plan 3) u.fmt (s.bytes (s1Place core (plan 3).addr) (plan 3).len)) ∧
    stores (.aguSt u) 2 (toBytes (laneBytes u.fmt) (selRead c r.args u.fmt none u.reg)) ∧
    (v.scales = [] → (r.args.bind.hbm = true ∨ r.args.bind.rand = true → c.hasUnits r.args.seed 4 v.drawn = true) →
      stores (.aguStc u) 4 v.bytes)) ∧
  (∀ (s : State) (core : Nat) (r : Routine) (t : TileArgs) (l : LaneArgs) (n : BitVec 2) (lit : Option (BitVec 16)) (row : Nat),
    Stitching s core r →
    let c := s.ctx core r.plat
    let k := s.core core
    let plane := t.plane.toNat
    let row0 := 48 * k.halfOf r.plat
    let passes := fun (st : Stitch) => stitchFault s core c r st [] = none
    let tile := fun op => passes { romIdle with tile := some (op, t) }
    let a := selRead c r.args t.fmt none t.a
    let b := selRead c r.args .pair none t.b
    let neg := (negElemAt l.fmt (selRead c r.args l.fmt l.lit l.a)).isSome
    let field := { romIdle with neg := l, lit := l.lit }
    (tile 1 → ∃ t', exec (.tileFeed t) s = .next t' ∧ t'.mem = s.mem ∧ (t'.ctx core r.plat).regs = c.regs ∧
      ∀ p q j, p < 2 → q < 96 → j < 192 → t'.accAt core p q j =
        if p = plane ∧ q ∈ k.microRows r.plat r.args.bind.half then
          beat (if t.acc then s.accAt core p q j else 0#32)
            ((feedWord t.fmt (lane a (q - row0) 32)).zipWith FVal.mul (feedWord t.fmt (lane b j 32)))
        else s.accAt core p q j) ∧
    (tile 2 → k.rowField r.plat t.row = some row → exec (.tileDrow t) s = .next (s.stitched core r
      (selWrite c r.args .pair (packLanes 32 ((k.accRow plane row).map BitVec.toNat)) t.b).nextStitch)) ∧
    (tile 3 → k.rowField r.plat t.row = some row → ∃ t', exec (.tileFrow t) s = .next t' ∧ t'.mem = s.mem ∧
      (t'.ctx core r.plat).regs = c.regs ∧ ∀ p q j, p < 2 → q < 96 → j < 192 → t'.accAt core p q j =
        if p = plane ∧ q = row then BitVec.ofNat 32 (lane b j 32) else s.accAt core p q j) ∧
    (passes { romIdle with cld := some n, lit := lit.map (fun v => v.zeroExtend 32) } → exec (.miscCld n lit) s =
      .next (s.stitched core r { c with regs := c.regs.setN n.toNat (match lit with
        | some v => v
        | none => BitVec.ofNat 16 r.args.k) }.nextStitch)) ∧
    (passes { romIdle with rpop := true } → c.queue ≠ [] → exec .miscRpop s =
      .next (s.stitched core r { c with queue := c.queue.tail }.nextStitch)) ∧
    (passes { field with negin := true } → neg = false ∧ exec (.miscNegin l) s = .next (s.stitched core r c.nextStitch)) ∧
    (passes { field with negchk := true } → exec (.miscNegchk l) s = .next (s.stitched core r
      (if neg then c.setCreg 0x041 (c.creg 0x041 ||| 1#64) else c).nextStitch)))

/-! ## Results, accesses and moves -/

/-- A result in flight that is due lands in its register, and no other register changes; the value of a variable-latency
instruction arrives in its register, which is pending no more and poisoned where its access was; one of the hub or of a ring is
sampled first, the ring once what precedes the RINGRD has performed (R89, R92, R221, R388, R424). That HTIME counts now * 24 /
35 ticks and is sampled in one step and lands in a later one is the model's (log entry 79). -/
def Obligations.ResultsLandInTheirRegisters : Prop :=
  ∀ (s : State) (core plat id : Nat),
    let c := s.ctx core plat
    let after := fun (i : Instr) (P : Ctx → Prop) => ∃ t, exec i s = .next t ∧ t.mem = s.mem ∧ s.othersKept t core plat ∧
      P (t.ctx core plat)
    let holds := fun (w : RegWrite) (d : Ctx) => match w with
      | .x n v => d.regs = c.regs.setX n v ∧ d.cregs = c.cregs
      | .p n b => d.regs = c.regs.setP n b ∧ d.cregs = c.cregs
      | .a n v => d.regs = c.regs.setA n v ∧ d.cregs = c.cregs
      | .v n v => d.regs = c.regs.setV n v ∧ d.cregs = c.cregs
      | .m n v => d.regs = c.regs.setM n v ∧ d.cregs = c.cregs
      | .creg n v => d.regs = c.regs ∧ d.cregs = (c.setCreg n (cregWritten n (c.creg n) v)).cregs
      | .fpflags b => d.regs = c.regs ∧ d.cregs = (c.setCreg 0x031 (c.creg 0x031 ||| BitVec.ofNat 64 b)).cregs
      | .mflags b => d.regs = c.regs ∧ d.cregs = (c.setCreg 0x041 (c.creg 0x041 ||| BitVec.ofNat 64 b)).cregs
      | .replay n w => d.regs = c.regs ∧ d.cregs = c.cregs ∧ d.replays = SMap.put c.replays n w
      | .portV | .portM | .shadow _ => d.regs = c.regs ∧ d.cregs = c.cregs
    (∀ f, c.flights = [f] → f.land ≤ s.now → after (.fixedResultLanding core plat) (fun d => d.flights = [] ∧ holds f.write d)) ∧
    (∀ o w, c.out.find? (fun o => o.id = id && o.pieces.isEmpty) = some o → o.dest.write o.data = some w →
      after (.loadResultArrival core plat id) (fun d => holds w d ∧ (∀ q ∈ d.out, q.id ≠ id) ∧
        ∀ r, w.reg? = some r → r ∉ d.pending ∧ (∀ a code, o.poison = some (a, code) → (r, a, code) ∈ d.poison) ∧
          (o.poison = none → ∀ q ∈ d.poison, q.1 ≠ r))) ∧
    (∀ a v, c.out.find? (fun o => o.id = id && o.pieces.isEmpty) = none → c.awaited.find? (·.id = id) = some a →
      (a.value = some v → after (.loadResultArrival core plat id) (fun d => holds (.x a.reply.reg v) d ∧
        (a.reply.reg ≠ 0 → .x a.reply.reg ∉ d.pending))) ∧
      (a.value = none → ((∃ n, a.reply = .hub n ∧ v = BitVec.ofNat 64 (s.now * 24 / 35)) ∨
          ∃ n k, a.reply = .ring n k ∧ s.allDone core plat a.waits = true ∧ (∀ q ∈ c.cmds, q.id < a.id → ∀ r cap, q.cmd ≠ .ringcfg r cap) ∧
            v = BitVec.ofNat 64 (((c.ring k).wp - (c.ring k).rp).toNat + (c.ring k).status * 2 ^ 32 + (c.ring k).src * 2 ^ 40)) →
        after (.loadResultArrival core plat id) (fun d => d.regs = c.regs ∧ d.cregs = c.cregs ∧ d.pending = c.pending ∧
          d.awaited = c.awaited.map (fun b => if b.id = id then { b with value := some v } else b))))

/-- A word of a load in the outbound path is read at its home and a word of a store is written there, whose other bytes stay;
the flush read behind a store to the host returns after it; an atomic reads its word and writes its new value at once, the old
value on its way to the register; a corrected word counts at its level (R207, R213, R219, R221, R362, R363; unprotected homes
without poison). -/
def Obligations.AccessesPerformAtTheirHomes : Prop :=
  ∀ (s : State) (core plat id n word : Nat) (o : Outbound) (p : Piece),
    let found := s.findOut core plat id = some o
    let home := found ∧ o.pieces[n]? = some p ∧ s.pieceReady core plat o n p = true ∧ noFrame p.place = false ∧ p.prot = false
    let runs := fun (i : Instr) (writes : List (Nat × List Byte)) (t : State) => exec i s = .next t ∧
      (∀ q, Mem.byte t.mem q = (placed writes q).getD (Mem.byte s.mem q)) ∧ (t.ctx core plat).regs = (s.ctx core plat).regs
    let inc := fun k => Min.min (k + 1) (2 ^ 32 - 1)
    let counts := fun (f : Hub → Nat) => ∃ t, exec (.eccWriteback word) s = .next t ∧ t.mem = s.mem ∧ f t.hub = inc (f s.hub)
    (home → o.amo = none → o.cls = .r → s.badRead p.place p.len = false →
      ∃ t, runs (.remoteAccessPerform core plat id n) [] t ∧ t.findOut core plat id =
        some { o with pieces := piecesLeft o.pieces n, data := patch o.data p.off (s.bytes p.place p.len) }) ∧
    (home → o.amo = none → o.cls ≠ .r → p.whole = true ∨ s.badWrite p.place ((o.data.drop p.off).take p.len).length = false →
      ∃ t, runs (.remoteAccessPerform core plat id n) [(p.place, (o.data.drop p.off).take p.len)] t ∧
      (1 < o.pieces.length → (t.findOut core plat id).map (·.pieces) = some (piecesLeft o.pieces n))) ∧
    (s.findOut core plat id = none → id ∈ (s.ctx core plat).flushes → s.isOutstanding core plat (id - 1) = false →
      s.hub.linkUp = true → ∃ t, runs (.remoteAccessPerform core plat id n) [] t ∧
        (t.ctx core plat).flushes = (s.ctx core plat).flushes.filter (· != id)) ∧
    (∀ op sv cv rest, o.amo = some (op, sv, cv) → n = 0 → o.pieces = p :: rest → home → s.isCipher (p.place / 64) = false →
      s.badRead p.place ((o.pieces.map (·.len)).foldl (· + ·) 0) = false →
      let k := (o.pieces.map (·.len)).foldl (· + ·) 0
      let old := s.word p.place k
      ∃ t, runs (.amoHomePerform core plat id) (match amoNew op k old (sv.toNat % 2 ^ (8 * k)) (cv.toNat % 2 ^ (8 * k)) with
          | some v => [(p.place, toBytes k v)]
          | none => []) t ∧
        (o.cls = .a → (t.findOut core plat id).map (fun q => (q.pieces, q.data, q.poison)) =
          some ([], toBytes 8 (BitVec.ofInt 64 (sext old (8 * k))).toNat, none))) ∧
    (word * 8 < 384 * 0x800000 → counts Hub.eccS1) ∧
    (2 ^ 36 ≤ word * 8 ∧ word * 8 < 2 ^ 36 + 24 * 2 ^ 28 → counts Hub.eccS2) ∧
    (2 ^ 40 ≤ word * 8 ∧ word * 8 < 2 ^ 40 + 4 * 2 ^ 32 → counts Hub.eccS3) ∧
    (isHbmPlace (word * 8) = true → counts Hub.eccHbm)

/-- A move begins to read its next line, or block, with its scale codes; each of its words is then read; TLD and TST have the
bytes raw, SCOPY converted under R140, as words to write; the last word of a VLDR lands its register. Each write then performs
and changes no other byte, and the move ends with the last (R140, R215, R429, R463; plaintext lines without poison). -/
def Obligations.MovesTransferRowByRow : Prop :=
  ∀ (s : State) (core plat id : Nat) (m : Move), (s.ctx core plat).moves.find? (·.id = id) = some m →
    let c := s.ctx core plat
    let v := m.view c
    let r := m.rowAt core m.row
    let moved := fun (t : State) => (t.ctx core plat).moves.find? (·.id = id)
    let goes := fun (word : Nat) (m1 : Move) => ∃ t, exec (.moveTransfer core plat id word) s = .next t ∧ t.mem = s.mem ∧
      (t.ctx core plat).regs = c.regs ∧ moved t = some m1
    (∀ ch, m.chunk core = some ch → m.chunkReady s core plat ch = true → hostAt core v ch.dst = false →
      ch.formBad s core v r = none →
      (m.fetch.got = [] → goes 0 { m with fetch := m.fetch.begin core v ch.runs }) ∧
      (∀ bytes rest, m.fetch.got = (bytes, none) :: rest → c.hasUnits m.seed 1 ch.draws = true →
        cipherAt s core v ch.src = false →
        let k := ch.convert (bytes.take ch.len) (bytes.drop ch.len) (c.drawByte m.seed 1)
        k.bytes ≠ [] → goes 0 (m.advance core ch
          (cutStores (k.bytes.length + 1) core v (r.dst, r.dlen) ch.dst k.bytes false ++
            (ch.dstScales.zip k.scales).flatMap (fun q => cutStores 2 core v (q.1, 1) q.1 [q.2] false))))) ∧
    (∀ n p, m.fetch.pieces[n]? = some p → m.readReady s core plat p = true → s.readable p → m.row < m.rows →
      let d := patch m.fetch.data p.off (s.bytes p.place p.len)
      (m.kind ≠ .vldr ∨ (1 < m.fetch.pieces.length ∧ m.fetch.got = []) →
        goes (2 * n + 2) { m with fetch := m.fetch.after n d }) ∧
      (m.fetch.pieces.length = 1 → m.kind = .vldr → m.fetch.got = [] → m.stores = [] →
        ∃ t, exec (.moveTransfer core plat id (2 * n + 2)) s = .next t ∧ t.mem = s.mem ∧ moved t = none ∧
          .v m.reg ∉ (t.ctx core plat).pending ∧ (t.ctx core plat).regs = c.regs.setV m.reg (BitVec.ofNat 3072 (ofBytes d)))) ∧
    (∀ n w, m.stores[n]? = some w → m.storeReady s core plat n w = true → noFrame w.place = false → w.prot = false →
      w.poison = false → w.whole = true ∨ s.badWrite w.place w.data.length = false →
      ∃ t, exec (.moveTransfer core plat id (2 * n + 1)) s = .next t ∧
        (∀ q, Mem.byte t.mem q = (placed [(w.place, w.data)] q).getD (Mem.byte s.mem q)) ∧
        (t.ctx core plat).regs = c.regs ∧
        moved t = if m.rows ≤ m.row ∧ m.stores.length = 1 then none else some { m with stores := writesLeft m.stores n })

/-! ## A core by itself -/

/-- A READY platform becomes overdue beyond the quantum, and a held member due; a blocked context whose condition has cleared
enters READY and issues in the next cycle at the earliest; an ended routine's suspension completes its bundle; a stalled stitch
whose wait is over acts; an empty bundle issues and moves its context on (R53, R54, R61, R90, R160). The stoker generates one
unit a turn, a bank stream's before a queue's, and accepts a seeding, whose first word one of its turns then makes; the ring
unit accepts a RINGCFG, which clears the ring and sets its CAP; both take the command from its queue (R148, R149, R288, R423,
R425). -/
def Obligations.CoresWaitAndServeCommands : Prop :=
  (∀ (s : State) (core plat rank : Nat),
    let k := s.core core
    let c := s.ctx core plat
    let quantum := fun (d : Ctx) => (s.partition d.part).quantum
    (c.state = .ready → c.overdue = false → quantum c < s.now - c.readySince →
      exec (.quantumExpiry core plat) s = .next (s.setCtx core plat { c with overdue := true })) ∧
    (∀ h, k.held = [h] → h.plat = plat → h.ctx.place.rank = rank → h.due = false →
      s.launches.any (fun l => l.id = h.ctx.gang && l.phase = 2) = true → quantum h.ctx < s.now - h.since →
      exec (.timeshareHoldExpiry core plat rank) s = .next (s.setCore core { k with held := [{ h with due := true }] })) ∧
    (∀ b, c.state = .blocked → c.why = some (.barrier b) → c.killPending = false → s.arrivesAt core plat b = true →
      exec (.unblock core plat) s = .next (s.arrive core c.ctxid c.flow.pc b)) ∧
    (∀ w, c.state = .blocked → c.why = some w → c.killPending = false → s.cleared core plat w = true →
      (∀ b, w = .barrier b → s.arrivesAt core plat b = false) →
      ∃ t, exec (.unblock core plat) s = .next t ∧ t.mem = s.mem ∧ s.othersKept t core plat ∧
        (t.ctx core plat).state = .ready ∧ (t.ctx core plat).wake = s.now + 1 ∧ (t.ctx core plat).readySince = s.now ∧
        (t.ctx core plat).regs = c.regs ∧ (t.ctx core plat).flow = c.flow) ∧
    (∀ r, k.routine = some r → r.plat = plat → r.ended = true → r.start + r.span + r.stall ≤ s.now → r.completes = true →
      r.args.region = none → r.sp = false → c.flow.loops = [] → c.flow.xfer = none → c.flow.after = none →
      ∃ t, exec (.routineSuspensionEnd core) s = .next t ∧ (t.core core).routine = none ∧ t.mem = s.mem ∧
        (t.ctx core plat).regs = c.regs ∧ (t.ctx core plat).flow = { c.flow with pc := c.flow.pc + 1 }) ∧
    (∀ r t, k.routine = some r → r.plat = plat → r.stalled = true → r.next ≤ s.now →
      stitchStep s core r (c.stitchAt r.args) = .done t →
      exec (.microStallEnd core) s = .next (s.microCycle core r (c.stitchAt r.args))) ∧
    (Calm s core plat → core < 384 → k.next s.now = some plat → SMap.get 0#512 k.imem c.flow.pc = 0#512 →
      ∃ t, exec (.bundleIssue core) s = .next t ∧ t.mem = s.mem ∧ (t.ctx core plat).regs = c.regs ∧
        (t.ctx core plat).bundles = c.bundles + 1 ∧ (t.ctx core plat).flow = { c.flow with pc := c.flow.pc + 1 })) ∧
  (∀ (s : State) (core plat ring cap p id : Nat) (u : Nat × Nat × Nat) (waits : List Nat) (key : BitVec 256) (n : Word),
    let k := s.core core
    let c := s.ctx core plat
    let d := s.ctx core p
    let word := fun (c : Ctx) => c.queue ++ [BitVec.ofNat 3072 (ofBytes (chachaUnit c.key c.qcount 0))]
    let pops := fun (t : State) => (t.ctx core plat).cmds = c.cmds.tail ∧ t.mem = s.mem ∧ (t.ctx core plat).regs = c.regs
    (k.stokeNext ≤ s.now → k.stokerWork = some (p, none) → ∃ t, exec (.stokerTurn core) s = .next t ∧
      (t.ctx core p).queue = word d ∧ (t.ctx core p).seeding = false ∧ (t.ctx core p).qcount = d.qcount + 6 ∧ (t.core core).stokeNext = s.now + 4 ∧
      (t.core core).stokeLast = p ∧ (t.ctx core p).regs = d.regs ∧ t.mem = s.mem) ∧
    (k.stokeNext ≤ s.now → k.stokerWork = some (p, some u) → ∃ t, exec (.stokerTurn core) s = .next t ∧
      (t.ctx core p).unitsOf u.2.1 u.2.2 = d.unitsOf u.2.1 u.2.2 + 1 ∧ (t.ctx core p).needs = d.needs.erase u ∧
      (t.ctx core p).queue = d.queue ∧
      (t.core core).stokeNext = s.now + 4 ∧ (t.core core).stokeLast = k.stokeLast ∧ t.mem = s.mem) ∧
    (s.headCmd core plat = some ⟨id, waits, .rqseed key n⟩ →
      ∃ t, exec (.rqseedAccept core plat) s = .next t ∧ pops t ∧ (t.ctx core plat).queue = c.queue ∧
        (t.ctx core plat).qcount = c.qcount ∧ (t.ctx core plat).seeding = c.seeding) ∧
    (s.headCmd core plat = some ⟨id, waits, .ringcfg ring cap⟩ →
      ∃ t, exec (.ringcfgAccept core plat) s = .next t ∧ pops t ∧
        (t.ctx core plat).ring ring = { Ring.empty with cap := if cap % 2 ^ 32 = 0 ∨ 2 ^ 31 < cap % 2 ^ 32 then 2 ^ 31
          else cap % 2 ^ 32 } ∧ ∀ m, m ≠ ring → (t.ctx core plat).ring m = c.ring m))

/-- An asynchronous HWERR or FORM is taken at the boundary before the context's next bundle, and one fault with it; a fault that
waited for pending results reaches the steward when they have landed; the oldest waiting entry of a partition is posted to its
fault queue in hypervisor memory, and no other byte changes (R304, R305, R315). -/
def Obligations.FaultsTravelToTheSteward : Prop :=
  ∀ (s : State) (core plat part : Nat),
    let c := s.ctx core plat
    let q := s.partition part
    let waits := fun (t : State) (f : FaultInfo) => (t.partition c.part).faultWait = (s.partition c.part).faultWait ++
      [faultEntry c.ctxid core plat f]
    (∀ code v rest, c.asyncFaults = ⟨code, 8, v, 0, none⟩ :: rest → code = 0x30 ∨ code = 0x13 → v < 2 ^ 48 →
      (s.core core).next s.now = some plat → c.resume = .none → c.pending = [] →
      ∃ t, exec (.asyncFault core plat) s = .next t ∧ s.recorded t core c.place.frec c.flow.pc code 8 0x7F v ∧
        (t.ctx core plat).state = .faulted ∧ (t.ctx core plat).asyncFaults = rest ∧ (t.ctx core plat).flow = c.flow ∧
        waits t ⟨code, 8, v, c.flow.pc, none⟩) ∧
    (∀ f, c.faultPending = some f → c.state = .blocked → c.why = some .fault → c.pending = [] → c.killPending = false →
      ∃ t, exec (.faultDelivery core plat) s = .next t ∧ t.mem = s.mem ∧ (t.ctx core plat).state = .faulted ∧
        (t.ctx core plat).faultPending = none ∧ (t.ctx core plat).regs = c.regs ∧ waits t f) ∧
    (∀ e rest, q.faultWait = e :: rest → ∃ t, exec (.faultQueuePost part) s = .next t ∧
      (t.partition part).faultWait = rest ∧ (t.partition part).fqWrite = q.fqWrite + 1 ∧
      ∀ p, Mem.byte t.mem p = (placed [(hvPlace (q.queueBase + 32 * (q.fqWrite % q.queueSize)), e)] p).getD (Mem.byte s.mem p))

/-- A delivered arrival's payload lies in its target's S1 and its handler in the target's queue; a PARKED target takes it and
enters READY at the handler; both from a command queue and from the router (R63, R64, R434). A barrier whose participants have
all arrived opens (R65, R374). A full queue's tablet is emitted and unlocks its siding when it has come home (R326, R327). -/
def Obligations.ArrivalsBarriersAndTablets : Prop :=
  ∀ (s : State) (core plat tc tp dest handler cluster b n h : Nat) (data : List Byte) (target : Word) (q : QueueId)
    (a : Arrival) (cmd : QueuedCommand),
    let d := s.ctx tc tp
    let leaving : Bool := match d.why with | some (.leaving _) => true | _ => false
    let cl := s.cluster cluster
    let ps := s.participants cluster b
    let delivers := fun (i : Instr) (handler dest : Nat) (data : List Byte) => ∃ t, exec i s = .next t ∧
      (∀ p, Mem.byte t.mem p = (placed [(s1Place tc dest, data)] p).getD (Mem.byte s.mem p)) ∧
      (t.ctx tc tp).regs = d.regs ∧
      (d.state ≠ .parked ∨ leaving = true → (t.ctx tc tp).arrivals = d.arrivals ++ [handler] ∧ (t.ctx tc tp).state = d.state ∧
        (t.ctx tc tp).flow = d.flow) ∧
      (d.state = .parked → leaving = false → d.arrivals = [] → (t.ctx tc tp).arrivals = [] ∧ (t.ctx tc tp).state = .ready ∧
        (t.ctx tc tp).flow.pc = handler ∧ (t.ctx tc tp).wake = s.now + 1)
    (core < 384 → plat < 4 → s.headCmd core plat = some cmd → cmd.cmd = .sendh data dest tc tp target handler →
      s.queuedBefore core plat target s.nextId = false → s.delivery target dest = .deliver tc tp →
      delivers (.arrivalDelivery (2 * (cmd.id * 1536 + core * 4 + plat))) handler dest data) ∧
    (s.arrivals.find? (·.id = a.id) = some a → s.queuedBefore a.fromCore a.fromPlat a.ctxid a.id = false →
      s.delivery a.ctxid a.dest = .deliver tc tp → delivers (.arrivalDelivery (2 * a.id + 1)) a.handler a.dest a.data) ∧
    (ps ≠ [] → (∀ id ∈ ps, ∃ a ∈ SMap.get [] cl.barriers b, a.1 = id) → ∃ t, exec (.barrierOpen cluster b) s = .next t ∧ t.mem = s.mem ∧
      SMap.get [] (t.cluster cluster).barriers b = [] ∧
      SMap.get [] (t.cluster cluster).passed b = SMap.get [] cl.passed b ++
        (SMap.get [] cl.barriers b).filter (fun a => ps.contains a.1)) ∧
    (∀ since, s.fullSince.find? (·.1 = q) = some (q, since) → 1024 ≤ s.now - since → s.queueFull q = true →
      s.tablets.any (·.origin = q) = false → exec (.tabletEmit q) s = .next { s with tablets := s.tablets ++ [⟨q, q, 0⟩] }) ∧
    (s.tablets[n]? = some ⟨.cmd core plat, .cmd core plat, h⟩ → 0 < h → ∃ t, exec (.tabletHop n) s = .next t ∧
      t.tablets = s.tablets.eraseIdx n ∧ (t.ctx core plat).cmdSiding = (if (s.ctx core plat).cmdSiding = 0 then 1
        else (s.ctx core plat).cmdSiding)) ∧
    (s.tablets[n]? = some ⟨.arrival core plat, .arrival core plat, h⟩ → 0 < h → ∃ t, exec (.tabletHop n) s = .next t ∧
      t.tablets = s.tablets.eraseIdx n ∧ (t.ctx core plat).arrSiding = (if (s.ctx core plat).arrSiding = 0 then 1
        else (s.ctx core plat).arrSiding)) ∧
    (∀ o next, s.tablets[n]? = some ⟨o, q, h⟩ → ¬ (0 < h ∧ q = o) → s.queueFull q = true → s.waitsOn q = some next → h < 63 →
      exec (.tabletHop n) s = .next { s with tablets := s.tablets.set n ⟨o, next, h + 1⟩ })

/-! ## Engines -/

/-- A channel that does not run takes the head of a CHSTART and runs; a CHSTOP makes it IDLE, with an ABORT report for the
waybill in progress (here with no write of a line begun). A running channel reads its waybill, word by word, and parks where it
does not own it; it reads each chunk of a row, converts it under R140 and writes it, word by word, or clears OWN of a finished
waybill, whose NEXT it follows (R215, R292, R293, R378, R379). The formats of the banks are latched when the waybill has been
read (log entry 99). -/
def Obligations.ChannelsCopyWaybills : Prop :=
  ∀ (s : State) (core plat id head : Nat) (waits : List Nat),
    let c := s.ctx core plat
    let h := c.chan
    let goes := fun (t : State) (i : Instr) (writes : List (Nat × List Byte)) => exec i s = .next t ∧ s.stored t writes ∧
      (t.ctx core plat).regs = c.regs
    let becomes := fun (word : Nat) (writes : List (Nat × List Byte)) (h1 : Channel) =>
      ∃ t, goes t (.waybillProcess core plat word) writes ∧ (t.ctx core plat).chan = h1
    let run := c.state ≠ .empty ∧ c.state ≠ .loading ∧ c.state ≠ .saving ∧ h.state = .run
    (∀ seed, s.headCmd core plat = some ⟨id, waits, .chstart head seed⟩ → h.state ≠ .run →
      ∃ t, goes t (.chstartAccept core plat) [] ∧ (t.ctx core plat).cmds = c.cmds.tail ∧
        (t.ctx core plat).chan = ⟨.run, head, none, 0, .empty, [], false, [], seed⟩) ∧
    (s.headCmd core plat = some ⟨id, waits, .chstop⟩ → (∀ x ∈ h.stores, x.begun = false) →
      ∃ t, goes t (.chstopAccept core plat) [] ∧ (t.ctx core plat).cmds = c.cmds.tail ∧ (t.ctx core plat).chan.state = .idle ∧
        (∀ w row o, h.state = .run → h.cur = some (w, row) → row ≤ w.rows → w.rv = true →
          s.waybillRing core c w = some o → s.reported t o w.ring 0 rABORT (sourceOf 0 core plat))) ∧
    (run → h.cur = none → h.head % 64 = 0 → engineCheck s core c true false h.head 64 = none → h.fetch = .empty →
      becomes 0 [] { h with fetch := ⟨[], cutRuns core c [(h.head, 64)], List.replicate 64 0#8⟩ }) ∧
    (∀ bytes, run → h.cur = none → h.head % 64 = 0 → engineCheck s core c true false h.head 64 = none →
      h.fetch = ⟨[(bytes, none)], [], []⟩ →
      let w := readWaybill h.head bytes
      (w.rv = true → (s.waybillRing core c w).isSome) →
      ∃ t, goes t (.waybillProcess core plat 0) [] ∧
        (w.own = false → (t.ctx core plat).chan.state = .parked ∧ (t.ctx core plat).chan.head = h.head ∧
          ∀ o, w.rv = true → s.waybillRing core c w = some o → s.reported t o w.ring 0 rPARK (sourceOf 0 core plat)) ∧
        (w.own = true → w.bad = false → w.blockBad core = false → (t.ctx core plat).chan.state = .run ∧
          (t.ctx core plat).chan.cur = some (w, 0) ∧ (t.ctx core plat).chan.started = !w.rv ∧
          (t.ctx core plat).chan.fmts = s.clusterFmts (clusterOf core)) ∧
        (w.own = true → w.bad = true ∨ w.blockBad core = true → (t.ctx core plat).chan.state = .stopped ∧
          ∀ o, w.rv = true → s.waybillRing core c w = some o → s.reported t o w.ring 0 rBADWB (sourceOf 0 core plat))) ∧
    (∀ w row ch, run → h.cur = some (w, row) → h.started = true → row < w.rows → h.fetch.pieces = [] →
      let r := w.rowAt h.fmts core row
      rowStatus s core c r = none → chunkAt r.parts h.at_ = some ch → ch.plainToHost s core c = false →
      ch.formBad s core c r = none →
      (h.fetch.got = [] → becomes 0 [] { h with fetch := h.fetch.begin core c ch.runs }) ∧
      (∀ bytes rest, h.fetch.got = (bytes, none) :: rest → c.hasUnits h.seed 3 ch.draws = true →
        cipherAt s core c ch.src = false →
        let k := ch.convert (bytes.take ch.len) (bytes.drop ch.len) (c.drawByte h.seed 3)
        becomes 0 [] (h.advance w row r ch
          (cutStores (k.bytes.length + 1) core c (r.dst, r.dlen) ch.dst k.bytes false ++
            (ch.dstScales.zip k.scales).flatMap (fun q => cutStores 2 core c (q.1, 1) q.1 [q.2] false))))) ∧
    (∀ n p, run → h.fetch.pieces[n]? = some p → s.readable p →
      becomes (2 * n + 2) [] { h with fetch := h.fetch.after n (patch h.fetch.data p.off (s.bytes p.place p.len)) }) ∧
    (∀ n x, run → s.performable h.stores n x →
      becomes (2 * n + 1) [(x.place, x.data)] { h with stores := writesLeft h.stores n }) ∧
    (∀ w, run → h.cur = some (w, w.rows) → h.started = true → h.stores = [] → h.fetch.pieces = [] →
      let p := placeOf core c w.addr
      s.runFree core c w.addr 8 = true → badFrame core c w.addr = false → engineCheck s core c true true w.addr 8 = none →
      s.badRead p 8 = false → protAt core c w.addr = false →
      let old := s.word p 8
      ∃ t, goes t (.waybillProcess core plat 0) [(p, toBytes 8 (if old.testBit 48 then old - 2 ^ 48 else old))] ∧
        (w.rv = false → old % 2 ^ 48 = 0 → (t.ctx core plat).chan.state = .idle) ∧
        (w.rv = false → old % 2 ^ 48 ≠ 0 → (t.ctx core plat).chan.state = .run ∧ (t.ctx core plat).chan.cur = none ∧
          (t.ctx core plat).chan.head = old % 2 ^ 48) ∧
        (w.rv = true → (t.ctx core plat).chan.cur = some ({ w with next := old % 2 ^ 48 }, w.rows + 1)))

/-- An engine that waits for its ring starts when the ring has room: a waybill, a marshalling, collective or cipher command
(R289). One whose writes have performed advances its ring by its increment with STATUS OK, and is free (R230, R291). The cipher
engine's SRC, 3 in its two kind bits, is the model's choice (log entry 51): R291 gives 0 to 2 only. -/
def Obligations.EnginesWaitForAndAdvanceRings : Prop :=
  ∀ (s : State) (core plat cluster op rank : Nat),
    let c := s.ctx core plat
    let h := c.chan
    let goes := fun (i : Instr) (P : State → Prop) => ∃ t, exec i s = .next t ∧ t.mem = s.mem ∧ P t
    (∀ w row o, c.state ≠ .empty → c.state ≠ .loading → c.state ≠ .saving → h.cur = some (w, row) →
      s.waybillRing core c w = some o →
      (h.state = .run → h.started = false → s.ringRoom o w.ring w.inc = true → goes (.ringSpaceAvailable (.copy core plat)) (fun t =>
        (t.ctx core plat).chan = { h with started := true })) ∧
      (w.rows < row → w.rv = true → goes (.ringAdvance (.copy core plat)) (fun t =>
        s.reported t o w.ring w.inc rOK (sourceOf 0 core plat) ∧ (t.ctx core plat).chan = h.follow w.next))) ∧
    (∀ j k d ring inc, (s.cluster cluster).marshal = some j → j.cmd.marshal = some (k, d, ring, inc) →
      (j.phase = 2 → s.ringRoom j.ctxid ring inc = true → goes (.ringSpaceAvailable (.marshal cluster)) (fun t =>
        (t.cluster cluster).marshal = some { j with phase := 3 })) ∧
      (j.phase = 4 → j.stores = [] → goes (.ringAdvance (.marshal cluster)) (fun t =>
        s.reported t j.ctxid ring inc rOK (sourceOf 1 j.core j.plat) ∧ (t.cluster cluster).marshal = none))) ∧
    (∀ o j, s.findColl op = some o → o.member rank = some j →
      (j.phase = 0 → s.ringRoom j.ctxid j.ring j.inc = true → goes (.ringSpaceAvailable (.collective op rank)) (fun t =>
        (t.findColl op).bind (·.member rank) = some { j with phase := 1 })) ∧
      (o.stage = 1 → j.phase = 1 → o.quiet rank = true → o.ended (s.stepsOf o j.prog) = true →
        goes (.ringAdvance (.collective op rank)) (fun t =>
          (o.beyond.contains rank = false → s.reported t j.ctxid j.ring j.inc rOK (sourceOf 2 j.core j.plat)) ∧
          (o.beyond.contains rank = true → s.reported t j.ctxid j.ring 0 rOVER (sourceOf 2 j.core j.plat)) ∧
          ∀ m, (t.findColl op).bind (·.member rank) = some m → m = { j with phase := 2 }))) ∧
    (∀ j, (s.core core).cipher = some j →
      (j.started = false → s.ringRoom j.ctxid j.ring j.inc = true → goes (.ringSpaceAvailable (.cipher core)) (fun t =>
        (t.core core).cipher = some { j with started := true })) ∧
      (j.started = true → j.left = 0 → goes (.ringAdvance (.cipher core)) (fun t =>
        s.reported t j.ctxid j.ring j.inc rOK (sourceOf 3 core j.plat) ∧ (t.core core).cipher = none)))

/-- The marshalling engine takes the next command of its cluster. Its work goes on piece by piece: one that needs bytes has them
read, word by word; one that is done stands in the job, which waits for its ring once all of it has been checked; one that fails
a check reports its STATUS with no advance, after the writes before it. A piece of a row that YGATH gathers becomes writes to
its row of DST, and each write performs alone and changes no other byte (R215, R289, R294, R297, R474). -/
def Obligations.MarshallingCommandsRun : Prop :=
  ∀ (s : State) (cluster kind d ring inc : Nat) (i : Nat → Instr),
    (kind, i) ∈ [(0, Instr.ysortExec cluster), (1, .ygathExec cluster), (2, .ycombExec cluster)] →
    let goes := fun (word : Nat) (writes : List (Nat × List Byte)) (j : Option MarshalJob) => ∃ t, exec (i word) s = .next t ∧
      s.stored t writes ∧ (t.cluster cluster).marshal = j ∧ ∀ q r, (t.ctx q r).regs = (s.ctx q r).regs
    (∀ core plat cmd, (s.cluster cluster).marshal = none → s.nextMarshal cluster = some (core, plat, cmd) →
      cmd.marshal = some (kind, d, ring, inc) →
      let s1 := s.popCmd core plat
      exec (i 0) s = .next (s1.setCluster cluster { s.cluster cluster with
        marshalLast := core % 16
        marshal := some ⟨core, plat, (s.ctx core plat).ctxid, cmd, 0, [], 0, 0, [], .empty, []⟩ })) ∧
    (∀ j core plat c, (s.cluster cluster).marshal = some j → j.cmd.marshal = some (kind, d, ring, inc) →
      s.present j.ctxid = some (core, plat, c) →
      let w := descWord j.desc
      let works := j.phase ≠ 2 ∧ j.phase ≠ 4 ∧ j.fits = true ∧ j.fetch.pieces = []
      let done := s.engine j.fetch (marshalWork core c j kind d)
      (∀ j1, works → done = (s, .ok j1) →
        goes 0 [] (some (if j1.phase = 2 ∧ s.ringRoom j1.ctxid ring inc = true then { j1 with phase := 3 } else j1))) ∧
      (∀ ps len, works → done = (s, .error (.need ps len)) →
        goes 0 [] (some { j with fetch := ⟨j.fetch.got, ps, List.replicate len 0#8⟩ })) ∧
      (∀ st, works → done = (s, .error (.status st)) → st ≠ rNOFRAME → j.stores = [] →
        ∃ t, exec (i 0) s = .next t ∧ t.mem = s.mem ∧ (t.cluster cluster).marshal = none ∧
          s.reported t j.ctxid ring 0 st (sourceOf 1 j.core j.plat)) ∧
      (∀ entry bs, works → kind = 1 → j.phase = 3 → j.fetch.got = [(entry, none), (bs, none)] →
        let rlen := w 8 % 2 ^ 32
        let row := w 2 + j.item * rlen
        let x := sext (ofBytes entry) 32
        let n := min (rlen - j.at_) (64 - (row + j.at_) % 64)
        j.at_ < rlen → w 9 ≠ 0 → 0 ≤ x → bs.length = n →
        engineCheck s core c true false (w 1 + 4 * j.item) 4 = none →
        engineCheck s core c true false (w 0 + x.toNat / (w 8 / 2 ^ 32 % 8 + 1) * rlen + j.at_) n = none →
        engineCheck s core c false true (row + j.at_) n = none →
        goes 0 [] (some (j.wrote rlen n (w 9) (cutStores (n + 1) core c (row, rlen) (row + j.at_) bs false)))) ∧
      (∀ n p, j.fetch.pieces[n]? = some p → s.readable p → goes (2 * n + 2) []
        (some { j with fetch := j.fetch.after n (patch j.fetch.data p.off (s.bytes p.place p.len)) })) ∧
      (∀ n x, s.performable j.stores n x → goes (2 * n + 1) [(x.place, x.data)]
        (some { j with stores := writesLeft j.stores n })))

/-- Where capacity is unlimited, the position that YSORT gives a valid assignment counts the assignments of lower experts and
the earlier ones of its own expert: the sort is stable (R295, R296). -/
def Obligations.SortedPositionsCountTheEarlier : Prop :=
  ∀ (e : Nat) (idx : List Int) (a : Nat) (x : Int), idx[a]? = some x → 0 ≤ x → x < e →
    (sortAssignments e none idx).groups.flatten.findIdx? (· = a) =
      some ((idx.filter (fun y => 0 ≤ y && y < x)).length + ((idx.take a).filter (· = x)).length)

/-- A collective command is accepted from its queue, and its descriptor read, word by word: its member joins the operation of
its group, or opens one; a descriptor that fails its checks is answered with its STATUS (R215, R471, R472). That a member of an
operation that has timed out is answered TIMEOUT at once is the model's choice (log entry 50). -/
def Obligations.CollectiveCommandsJoin : Prop :=
  ∀ (s : State) (core plat kind prog d ring inc : Nat) (row : Nat → Nat → Instr), plat < 4 →
    (kind, row) ∈ [(0, Instr.xa2avExec), (1, .xarExec), (2, .xagExec), (3, .xrunExec)] →
    let i := row (2 * (core * 4 + plat))
    let c := s.ctx core plat
    let mine := s.joins.find? (·.ctxid = c.ctxid)
    (∀ q, mine = none → s.headCmd core plat = some q → q.cmd.collective = some (kind, prog, d, ring, inc) →
      c.state ≠ .empty → c.state ≠ .loading → c.state ≠ .saving →
      exec (i 0) s = .next { s.popCmd core plat with joins := s.joins ++ [⟨core, plat, c.ctxid, q.cmd, .empty⟩] }) ∧
    (∀ a k p b, mine = some a → a.cmd.collective = some (kind, prog, d, ring, inc) → s.present a.ctxid = some (k, p, b) →
      let read := s.engine a.fetch (readJoin k p b prog d ring inc)
      let s1 := s.putJoin a.ctxid none
      let goes := fun (word : Nat) (f : Fetch) => exec (i word) s = .next (s.putJoin a.ctxid (some f))
      (∀ ps len, a.fetch.pieces = [] → read = (s, .error (.need ps len)) →
        goes 0 ⟨a.fetch.got, ps, List.replicate len 0#8⟩) ∧
      (∀ n x, a.fetch.pieces[n]? = some x → s.readable x →
        goes (2 * n + 2) (a.fetch.after n (patch a.fetch.data x.off (s.bytes x.place x.len)))) ∧
      (∀ group g j, a.fetch.pieces = [] → read = (s, .ok (group, g, j)) →
        let op := s.collectives.find? (fun o => o.part = b.part && o.group = group && !o.ranks.contains j.rank)
        (op = none → exec (i 0) s = .next { s1 with
          nextId := s.nextId + 1
          collectives := s.collectives ++ [⟨s.nextId, b.part, group, g.members, [j], [j.rank], (htime s).toNat, 0, 0, [], [],
            .empty, 0, [], [], [], 0⟩] }) ∧
        (∀ o, op = some o →
          (o.stage ≠ 2 → exec (i 0) s = .next (s1.putColl { o with
            joined := o.joined ++ [j], ranks := insertNat o.ranks j.rank })) ∧
          (o.stage = 2 → ∃ t, exec (i 0) s = .next t ∧ t.mem = s.mem ∧
            s.reported t j.ctxid j.ring 0 rTIMEOUT (sourceOf 2 j.core j.plat)))) ∧
      (∀ st, a.fetch.pieces = [] → read = (s, .error (.status st)) → st ≠ rNOFRAME → ∃ t, exec (i 0) s = .next t ∧
        t.mem = s.mem ∧ t.collectives = s.collectives ∧ t.joins = s.joins.filter (·.ctxid != a.ctxid) ∧
        s.reported t a.ctxid ring 0 st (sourceOf 2 a.core a.plat)))

/-- An operation whose members are all here, agree and have room begins the transfers of its program: XA2AV gives each member
the counts and then the blocks of all ranks, XAR the root of the tree, XAG every rank's block, XRUN what its steps say. Each
step reads at most a line of a transfer, word by word, which becomes writes; each write performs alone, and no byte outside it
changes. An operation that has not completed in 2^26 hub cycles answers TIMEOUT (R215, R300, R301, R472; plaintext lines without
poison). That transfers begin only when all have joined and every ring has room, and that TIMEOUT goes to a member already
answered too, is the model's choice (log entry 50), and so is the size of the pieces (log entry 41). -/
def Obligations.CollectivesTransfer : Prop :=
  ∀ (s : State) (op : Nat) (o : Collective) (j : Joined) (rest : List Joined) (row : Nat → Nat → Instr),
    s.findColl op = some o → o.joined = j :: rest →
    (min j.prog 3, row) ∈ [(0, Instr.xa2avExec), (1, .xarExec), (2, .xagExec), (3, .xrunExec)] →
    let n := o.members.length
    let ranks := List.range n
    let here := o.remote = false ∧ (∀ r < n, (o.member r).isSome) ∧ ∃ m ∈ o.joined, m.phase ≠ 2
    let get := fun (r : Nat) => (o.member r).getD default
    let goes := fun (word : Nat) (writes : List (Nat × List Byte)) (o1 : Collective) => ∃ t,
      exec (row (2 * op + 1) word) s = .next t ∧ s.stored t writes ∧ t.findColl op = some o1 ∧
      ∀ q r, (t.ctx q r).regs = (s.ctx q r).regs
    let from_ := fun (r a m world : Nat) (ps : List Piece) => ∃ core plat c, s.memberAt o r = some (core, plat, c) ∧
      c.world = world ∧ engineCheck s core c true false a m = none ∧
      (∀ q ∈ runLines a m, cipherAt s core c q.1 = false) ∧ ps = cutRuns core c [(a, m)]
    let asks := fun (word who m : Nat) (ps : List Piece) =>
      goes word [] { o with fetch := ⟨o.fetch.got, ps, List.replicate m 0#8⟩, reader := who }
    let goesTo := fun (r base len a : Nat) (world : Nat) (bs : List Byte) (ws : List (Nat × Store)) => ∃ core plat c,
      s.memberAt o r = some (core, plat, c) ∧ c.world = world ∧ engineCheck s core c false true a bs.length = none ∧
      cipherAt s core c a = false ∧ hostAt core c a = false ∧
      ws = (cutStores (bs.length + 1) core c (base, len) a bs false).map (fun x => (r, x))
    (here → o.stage = 0 → o.ready s = true → o.disagree = false → ∃ o1, goes 0 [] o1 ∧ o1.stage = 1 ∧ o1.joined = o.joined ∧
      o1.pcs = o.joined.map (fun m => (m.rank, 0)) ∧ o1.stores = o.stores ∧
      (j.prog = 2 → o1.work = (o.joined.flatMap (fun m => ranks.map (fun r => (⟨.memory r (get r).sbuf,
        .memory m.rank (m.rbuf + r * collCount j.word), collCount j.word, 0⟩ : Transfer)))).filter (fun x => x.len != 0)) ∧
      (j.prog = 1 → o1.work = [(⟨.reduced, .everyone, collCount j.word * ((collElem j.word).width / 8), 0⟩ : Transfer)].filter
        (fun x => x.len != 0)) ∧
      (j.prog = 0 →
        let counts := fun (d : Nat) => ranks.map (fun r => (get r).sends.getD d 0)
        let tooMuch := fun (m : Joined) => m.rlim < (counts m.rank).sum
        (∀ r, r ∈ o1.beyond ↔ ∃ m ∈ o.joined, m.rank = r ∧ tooMuch m) ∧
        ((∀ m ∈ o.joined, ¬ tooMuch m) → o1.work = (o.joined.map (fun m => (⟨.block ⟨(counts m.rank).flatMap (toBytes 8), [], none⟩,
            .memory m.rank m.rcnt, 8 * n, 0⟩ : Transfer)) ++
          o.joined.flatMap (fun m => ranks.map (fun r => (⟨.memory r ((get r).sbuf + ((get r).sends.take m.rank).sum),
            .memory m.rank (m.rbuf + ((counts m.rank).take r).sum), (get r).sends.getD m.rank 0, 0⟩ : Transfer)))).filter
          (fun x => x.len != 0))) ∧
      (3 ≤ j.prog → o1.work = [])) ∧
    (∀ r a q b len at_ more ps world, here → o.stage = 1 → o.work = ⟨.memory r a, .memory q b, len, at_⟩ :: more → at_ < len →
      let m := min (len - at_) (64 - (b + at_) % 64)
      from_ r (a + at_) m world ps →
      (o.fetch = .empty → asks 0 0 m ps) ∧
      (∀ bs ws, o.fetch = ⟨[(bs, none)], [], []⟩ → o.reader = 0 → goesTo q b len (b + at_) world bs ws →
        goes 0 [] { o with
          stores := o.stores ++ ws, fetch := .empty
          work := if len ≤ at_ + m then more else ⟨.memory r a, .memory q b, len, at_ + m⟩ :: more })) ∧
    (∀ len at_ more world (ps : Nat → List Piece) (bs : Nat → List Byte), here → o.stage = 1 →
      o.work = ⟨.reduced, .everyone, len, at_⟩ :: more → at_ < len →
      let f := collElem j.word
      let m := min (len - at_) (16 * (f.width / 8))
      let root := encodeElems f (reduceTree (collOp j.word) 10 (ranks.map (fun r => decodeElems f m (bs r))))
      (∀ r < n, from_ r ((get r).sbuf + at_) m world (ps r)) → o.reader = 0 →
      (∀ k < n, o.fetch = ⟨(List.range k).map (fun r => (bs r, none)), [], []⟩ → asks 0 0 m (ps k)) ∧
      (∀ ws : Joined → List (Nat × Store), o.fetch = ⟨ranks.map (fun r => (bs r, none)), [], []⟩ → n ≠ 0 →
        (∀ k ∈ o.joined, goesTo k.rank k.rbuf len (k.rbuf + at_) world root (ws k)) →
        goes 0 [] { o with
          stores := o.stores ++ o.joined.flatMap ws, fetch := .empty
          work := if len ≤ at_ + m then more else ⟨.reduced, .everyone, len, at_ + m⟩ :: more })) ∧
    (∀ m p, here → o.stage = 1 → o.fetch.pieces[m]? = some p → s.readable p → goes (3 * m + 3) []
      { o with fetch := o.fetch.after m (patch o.fetch.data p.off (s.bytes p.place p.len)) }) ∧
    (∀ m r x, here → o.stage = 1 → o.stores[m]? = some (r, x) → (s.memberAt o r).isSome →
      s.performable (o.stores.map (·.2)) m x →
      goes (3 * m + 1) [(x.place, x.data)] { o with
        stores := ((o.stores.map (·.1)).eraseIdx m).zip (writesLeft (o.stores.map (·.2)) m) }) ∧
    (∀ (m : Nat) (k : Joined) b steps, here → o.stage = 1 → 16 ≤ j.prog → o.joined[m]? = some k →
      SMap.find (s.partition o.part).programs j.prog = some steps → steps[o.pcOf k.rank]? = some b → o.quiet k.rank = true →
      let pcs := o.pcs.map (fun p => if p.1 = k.rank then (p.1, p.2 + 1) else p)
      let dest := if stepBuf b = 2 then BlockDest.area k.rank (collPlace o.part j.prog (stepDoff b))
        else .memory k.rank ((if stepBuf b = 0 then k.sbuf else k.rbuf) + stepDoff b)
      (stepOp b = 4 → stepLen b ≠ 0 → o.fetch = .empty → goes (3 * m + 2) [] { o with
        pcs := pcs, work := o.work ++ [⟨.memory k.rank (k.sbuf + stepSoff b), dest, stepLen b, 0⟩] }) ∧
      (stepOp b = 5 → (∀ p ∈ o.pcs, o.pcOf k.rank ≤ p.2) → o.fetch = .empty → goes (3 * m + 2) [] { o with pcs := pcs }) ∧
      (∀ ps world, stepOp b = 1 → stepPeer b ≠ 0xFFFF → stepLen b ≠ 0 → from_ k.rank (k.sbuf + stepSoff b) (stepLen b) world ps →
        (o.fetch = .empty → asks (3 * m + 2) (m + 1) (stepLen b) ps) ∧
        (∀ bs, o.fetch = ⟨[(bs, none)], [], []⟩ → o.reader = m + 1 → goes (3 * m + 2) [] { o with
          fetch := .empty, pcs := pcs, sent := o.sent ++ [(k.rank, stepPeer b, ⟨bs, [], some world⟩)] })) ∧
      (∀ blk more, stepOp b = 2 → stepPeer b < n → o.sent = (stepPeer b, k.rank, blk) :: more → blk.bytes.length = stepLen b →
        stepLen b ≠ 0 → stepPeer b ≠ 0xFFFF → o.fetch = .empty → goes (3 * m + 2) [] { o with
          pcs := pcs, sent := more, received := o.received + 1, work := o.work ++ [⟨.block blk, dest, stepLen b, 0⟩] })) ∧
    (o.stage ≠ 2 → o.since + 2 ^ 26 ≤ (htime s).toNat → rest = [] →
      ∃ t, exec (.collectiveTimeout op) s = .next t ∧ t.mem = s.mem ∧ ((t.findColl op).map (·.joined)).getD [] = [] ∧
        s.reported t j.ctxid j.ring 0 rTIMEOUT (sourceOf 2 j.core j.plat))

/-- The cipher engine takes a SEAL or an OPEN from its core's queues; it reads each line word by word, seals the 40 payload
bytes of a plaintext one under the next counter of its world, or opens a sealed one whose tag passes, and leaves one in the
target form alone; no other byte changes. A line whose tag fails ends the command with an asynchronous SEALTAG of its counter
(R215, R341, R412, R413). That the counter of a world's first seal is 1 and that the queue of the lowest platform is served
first is the model's choice (log entry 51). -/
def Obligations.LinesAreSealedAndOpened : Prop :=
  ∀ (s : State) (core plat id a n ring inc : Nat) (waits : List Nat) (bytes : List Byte) (j : CipherJob) (c : Ctx),
    let line := placeOf core c j.addr / 64
    let key := lineKey s c.world
    let counter := SMap.get 0 s.keys.seals c.world + 1
    let c0 := s.ctx core plat
    let host := match entryAt core c j.addr with | some e => entHost e | none => false
    let acts := (s.core core).cipher = some j ∧ s.issuer core j.plat j.ctxid = some c ∧ j.started = true ∧ j.left ≠ 0 ∧
      (SMap.find s.keys.keys c.world).isSome
    let mayWork := acts ∧ s.runFree core c j.addr 64 = true ∧ host = false ∧ engineCheck s core c true true j.addr 64 = none ∧
      engineCheck s core c true false j.addr 64 = none
    let work := mayWork ∧ j.fetch = ⟨[(bytes, none)], [], []⟩ ∧ engineCheck s core c false true j.addr 64 = none ∧
      j.addr % 64 = 0 ∧ placeOf core c j.addr % 64 = 0 ∧ protAt core c j.addr = false ∧ bytes.length = 64
    let kind := fun (opening : Bool) (i : Instr) => (opening, i) = (false, .sealExec core) ∨ (opening, i) = (true, .openExec core)
    let reads := fun (i : Instr) (f : Fetch) => ∃ t, exec i s = .next t ∧ t.mem = s.mem ∧
      (t.core core).cipher = some { j with fetch := f }
    let ends := fun (i : Instr) (writes : List (Nat × List Byte)) (form : Bool) => ∃ t, exec i s = .next t ∧
      s.stored t writes ∧ t.isCipher line = form ∧
      (t.core core).cipher = some { j with addr := wrap48 (j.addr + 64), left := j.left - 1, fetch := .empty } ∧
      SMap.get 0 t.keys.seals c.world = (if writes ≠ [] ∧ form = true then counter else SMap.get 0 s.keys.seals c.world)
    (∀ cmd (opening : Bool) (i : Instr), kind opening i → plat < 4 →
      (∀ p q, p < plat → s.headCmd core p = some q → q.cmd.cipher = none) →
      (s.core core).cipher = none → s.headCmd core plat = some ⟨id, waits, cmd⟩ → cmd.cipher = some (opening, a, n, ring, inc) →
      c0.state ≠ .empty → c0.state ≠ .loading → c0.state ≠ .saving →
      ∃ t, exec i s = .next t ∧ t.mem = s.mem ∧ (t.ctx core plat).cmds = c0.cmds.tail ∧
        (t.core core).cipher = some ⟨plat, c0.ctxid, opening, s.ringRoom c0.ctxid ring inc, a, n, ring, inc, .empty⟩) ∧
    (∀ i, kind j.opening i → mayWork → j.fetch = .empty →
      reads i ⟨[], cutRuns core c [(j.addr, 64)], List.replicate 64 0#8⟩) ∧
    (∀ i, kind j.opening i → acts → j.fetch.pieces ≠ [] → (∀ p ∈ j.fetch.pieces, s.readable p) →
      ∃ m p, j.fetch.pieces[m]? = some p ∧ reads i (j.fetch.after m (patch j.fetch.data p.off (s.bytes p.place p.len)))) ∧
    (work → j.opening = false → s.isCipher line = false →
      ends (.sealExec core) [(64 * line, sealLine key counter (bytes.take 40))] true) ∧
    (work → j.opening = false → s.isCipher line = true → ends (.sealExec core) [] true) ∧
    (∀ p, work → j.opening = true → s.isCipher line = true → openLine key bytes = some p →
      ends (.openExec core) [(64 * line, p)] false) ∧
    (work → j.opening = true → s.isCipher line = false → ends (.openExec core) [] false) ∧
    (work → j.opening = true → s.isCipher line = true → openLine key bytes = none →
      ∃ t, exec (.openExec core) s = .next t ∧ t.mem = s.mem ∧ (t.core core).cipher = none ∧
        (t.ctx core j.plat).asyncFaults = (s.ctx core j.plat).asyncFaults ++
          [⟨0x31, 8, ofBytes ((bytes.drop 40).take 8), 0, none⟩])

/-! ## Fitting -/

/-- The fitting engine: a request allocates an entry where there is room, and invalidates one that a NaN or another image names;
pairs of the ingress are accepted into the training ring or, one in eight, the held-out ring; a training step moves the
parameters, those of ELEM by the sums of R275, and its validation counts towards SUBST; weights complete in a context's buffer
before its copy becomes SUBST; AXQRY answers the status word, and AXINV discards the entry (R266, R267, R274 to R277, R281,
R283, R371, R373). An entry whose sealed store does not verify becomes INVALID with cause 4 where it is read (R282); that its
store is held plain, with the key that sealed it beside it, is the model's choice (log entry 53). -/
def Obligations.FittingEngineActs : Prop :=
  ∀ (s : State) (die n region core plat id xd : Nat) (waits : List Nat),
    let d := s.die die
    let c := s.ctx core plat
    let here := dieOf core
    let live := c.state ≠ .empty ∧ c.state ≠ .loading ∧ c.state ≠ .saving
    let goes := fun (i : Instr) (P : State → Prop) => ∃ t, exec i s = .next t ∧ t.mem = s.mem ∧ P t
    let entry := fun (t : State) (key : Nat) => SMap.find (t.die die).regions key
    (∀ q, d.requests[n]? = some q →
      let key := regionKey q.world q.id
      let after := fun (P : State → Prop) => goes (.regionAllocate die n) (fun t =>
        (t.die die).requests = d.requests.eraseIdx n ∧ s.ctxsKept t ∧ P t)
      (∀ desc, SMap.find d.regions key = none → q.kind = 0 → q.desc = some desc →
        (d.hasRoom desc = true → after (fun t => (t.die die).allocs = d.allocs + 1 ∧
          entry t key = some (newRegion q (s.requestCfg q) (s.fitKey q.world q.hash) (d.allocs + 1) desc))) ∧
        (d.hasRoom desc = false → after (fun t => entry t key = none ∧ key ∈ (t.die die).noroom))) ∧
      (∀ r, SMap.find d.regions key = some r →
        (r.hash ≠ q.hash → r.state ≠ 5 → after (fun t => entry t key = some { r with state := 5, cause := 2 })) ∧
        (r.hash = q.hash → q.kind = 1 → r.state ≠ 5 → after (fun t => entry t key = some { r with state := 5, cause := 3 })) ∧
        (r.hash = q.hash → q.kind ≠ 1 → after (fun t => entry t key = some r)))) ∧
    (∀ q r, d.paired ≤ s.now → d.delivering = [] → d.ingress = [q] →
      let key := regionKey q.world q.id
      entry s key = some r → r.state ≠ 5 → r.failed = false → q.sampled = false →
      (r.accepted % 8 ≠ 7 → r.train.length < 256 → goes (.pairAccept die) (fun t => (t.die die).ingress = [] ∧
        ∃ r', entry t key = some r' ∧ r'.train = r.train ++ [(q.input, q.target)] ∧ r'.held = r.held ∧
          r'.accepted = r.accepted + 1 ∧ r'.state = (if r.state = 1 ∧ 256 ≤ r.accepted + 1 then 2 else r.state))) ∧
      (r.accepted % 8 = 7 → r.held.length < 64 → goes (.pairAccept die) (fun t => (t.die die).ingress = [] ∧
        ∃ r', entry t key = some r' ∧ r'.held = r.held ++ [(q.input, q.target)] ∧ r'.train = r.train ∧ r'.box = r.box ∧
          r'.accepted = r.accepted + 1 ∧ r'.state = (if r.state = 1 ∧ 256 ≤ r.accepted + 1 then 2 else r.state)))) ∧
    (∀ r, d.ingress = [] → d.delivering = [] → entry s region = some r → r.state = 2 ∨ r.state = 4 → r.train ≠ [] →
      let p := r.step
      (s.opens r = false → goes (.trainingStep die region) (fun t => entry t region = some { r with state := 5, cause := 4 })) ∧
      (s.opens r = true → goes (.trainingStep die region) (fun t => s.ctxsKept t ∧ ∃ r', entry t region = some r' ∧ r'.weights = p.weights ∧
        r'.momentum = p.momentum ∧ r'.cursor = (r.cursor + r.batch) % r.train.length ∧
        (p.passesNow = false → r'.passes = 0 ∧ r'.state = r.state) ∧
        (p.passesNow = true → r.passes = 0 → r'.passes = 1 ∧ r'.state = r.state) ∧
        (p.passesNow = true → r.passes ≠ 0 → r'.state = 3 ∧ r'.version = r.version + 1 ∧ r'.eval = p.evalNow))) ∧
      (∀ hidden, s.opens r = true → r.desc.elem = true → r.weights.length = 2 + 3 * hidden → r.momentum.length = 2 + 3 * hidden →
        let rnd := rneF32
        let w := fun (i : Nat) => ofF32 (r.weights.getD i 0)
        let u := fun (i : Nat) => ofF32 (r.momentum.getD i 0)
        let sample := fun (k : Nat) => r.train.getD ((r.cursor + k) % r.train.length) ([], [])
        let grad := fun (k i : Nat) =>
          let x := ofF32 ((sample k).1.headD 0)
          let t := fun (j : Nat) => rnd (((w (2 + 3 * j)).mul x).add (w (3 + 3 * j)))
          let relu := fun (j : Nat) => (t j).max .zero
          let y := (List.range hidden).foldl (fun y j => rnd (((w (4 + 3 * j)).mul (relu j)).add y)) (rnd (((w 1).mul x).add (w 0)))
          let e := rnd ((rnd (y.sub (ofF32 ((sample k).2.headD 0)))).scale 1)
          let j := (i - 2) / 3
          let dj := if FVal.zero.lt (t j) then rnd (e.mul (w (4 + 3 * j))) else .zero
          if i = 0 then e else if i = 1 then rnd (e.mul x) else if (i - 2) % 3 = 0 then rnd (dj.mul x)
            else if (i - 2) % 3 = 1 then dj else rnd (e.mul (relu j))
        let sum := fun (i : Nat) => (List.range r.batch).foldl (fun a k => rnd (a.add (grad k i))) .zero
        let u1 := fun (i : Nat) => rnd (((if r.mom then f32Val 0x3F666666 else .zero).mul (u i)).add (divR (sum i) r.batch))
        let w1 := fun (i : Nat) => rnd (((ofF32 r.lr).neg.mul (u1 i)).add (w i))
        goes (.trainingStep die region) (fun t => ∃ r', entry t region = some r' ∧
          r'.weights = (List.range (2 + 3 * hidden)).map (fun i => toF32 (w1 i)) ∧
          r'.momentum = (List.range (2 + 3 * hidden)).map (fun i => toF32 (u1 i))))) ∧
    (∀ r desc, live → s.regionOf core plat id = some r → c.desc id = some desc → r.state = 3 → r.desc = desc →
      let l := (c.region id).meet r
      c.fits desc = true → l.complete r = false →
      let off := c.swBase + c.bufOff desc (1 - l.active)
      (∀ a ∈ linePoints off desc.bufBytes, s.claimedPlace (s1Place core a) = false) →
      (s.opens r = false → goes (.evalWeightsComplete core plat id) (fun t =>
        SMap.find (t.die here).regions (regionKey c.world id) = some { r with state := 5, cause := 4 })) ∧
      (s.opens r = true → ∃ t, exec (.evalWeightsComplete core plat id) s = .next t ∧
        s.stored t [(s1Place core off, r.eval.flatMap (fun w => toBytes 4 w.toNat))] ∧
        ((t.ctx core plat).region id).complete r = true ∧ (t.ctx core plat).regs = c.regs)) ∧
    (∀ st, live → s.givenState core plat id = some st → (c.region id).state ≠ st → (c.desc id).isSome = true → c.axinvWaits id = false →
      goes (.statePush core plat id) (fun t => ((t.ctx core plat).region id).state = st ∧ (t.ctx core plat).regs = c.regs)) ∧
    (∀ st, live → s.headCmd core plat = some ⟨n, waits, .axqry id xd⟩ → s.givenState core plat id = some st →
      goes (.axqryReply core plat n) (fun t => (t.ctx core plat).cmds = c.cmds.tail ∧ .x xd ∉ (t.ctx core plat).pending ∧
        (t.ctx core plat).regs = c.regs.setX xd (BitVec.ofNat 64 (s.regionStatus core plat id)))) ∧
    (live → s.headCmd core plat = some ⟨n, waits, .axinv id⟩ → (s.die here).regions.sorted →
      (∀ q ∈ (s.die here).requests, q.core = core → q.plat = plat → regionKey q.world q.id ≠ regionKey c.world id) →
      goes (.axinvAccept core plat) (fun t => (t.ctx core plat).cmds = c.cmds.tail ∧ (t.ctx core plat).regs = c.regs ∧
        SMap.find (t.die here).regions (regionKey c.world id) = none ∧
        ∀ key, key ≠ regionKey c.world id → SMap.find (t.die here).regions key = SMap.find (s.die here).regions key))

/-! ## Gangs -/

/-- A waiting launch is admitted where every platform it needs is EMPTY, each of which then LOADS; the shunter loads a context
with the initial values of R44 and its instruction image; the gang is released when all have loaded, and every context enters
READY, to issue from this cycle on (R44, R46, R47, R497). -/
def Obligations.GangsAreAdmittedLoadedReleased : Prop :=
  ∀ (s : State) (core plat gang i : Nat) (l : Launch) (img : Image),
    let q := s.partition l.part
    (s.findLaunch l.id = some l → l.phase = 0 → s.findImage l.image = some img → s.admissible l img = true →
      ∃ t, exec (.launchAdmit l.id) s = .next t ∧ t.mem = s.mem ∧
        (t.findLaunch l.id) = some { l with phase := 1, number := q.launches + 1 } ∧
        (∀ e ∈ l.entries, t.ctx e.core e.plat =
          { Ctx.empty with state := .loading, part := l.part, gang := l.id, world := img.world } ∧
          (t.core e.core).world = some img.world) ∧
        (∀ core plat, (∀ e ∈ l.entries, e.core ≠ core ∨ e.plat ≠ plat) → t.ctx core plat = s.ctx core plat) ∧
        (∀ qi, SMap.find s.queues l.queue = some qi → SMap.find t.queues l.queue = some { qi with waiting := false })) ∧
    (∀ e c ci, s.launches.find? (fun l => l.phase = 1 && (l.on core plat).any (fun p => !l.loaded.contains p.2)) = some l →
      s.findImage l.image = some img → l.on core plat = [(e, i)] → l.content img i = some ci → ci.data = [] →
      s.makeCtx l img i e = some c → s.zeroing c.window = false →
      ∃ t, exec (.contextLoad core plat) s = .next t ∧ t.mem = s.mem ∧ t.ctx core plat = c ∧ s.othersKept t core plat ∧
        c.state = .loading ∧ c.regs.getX 1 = l.packet.w3 ∧ c.regs.getX 2 = BitVec.ofNat 64 e.rank ∧
        c.regs.getX 3 = BitVec.ofNat 64 l.entries.length ∧ c.flow.pc = e.ibase + e.entry ∧
        (∀ n < ci.instrs.length, SMap.get 0#512 (t.core core).imem (e.ibase + n) = ci.instrs.getD n 0#512) ∧
        (t.findLaunch l.id).map (·.loaded) = some (insertNat l.loaded i) ∧ SMap.get 0 t.keys.saves c.ctxid.toNat = 0) ∧
    (s.findLaunch gang = some l → l.phase = 1 → (∀ k < l.entries.length, k ∈ l.loaded) →
      (∀ p ∈ l.places, s.underWay 8 p.1 p.2 = none ∧ (s.ctx p.1 p.2).killPending = false) →
      ∃ t, exec (.gangRelease gang) s = .next t ∧ t.mem = s.mem ∧ (t.findLaunch gang) = some { l with phase := 2 } ∧
        (∀ p ∈ l.places, (s.ctx p.1 p.2).gang = gang → (s.ctx p.1 p.2).state = .loading →
          t.ctx p.1 p.2 = { (s.ctx p.1 p.2).makeReady s.now with wake := s.now }) ∧
        (∀ p ∈ l.places, ∀ h ∈ (t.core p.1).held, h.ctx.gang = gang → h.since = s.now ∧ h.due = false) ∧
        (∀ core plat, (core, plat) ∉ l.places → t.ctx core plat = s.ctx core plat))

/-- A halted context whose work has ended, and a killed one, leave their gang; the platform is zeroed and EMPTY, with the banks
that no other context of the core holds, and no byte outside the core's S1 changes. A KILL of a context that has loaded stops
it. A launch whose contexts have all gone completes its packet (R49, R62, R348, R391). -/
def Obligations.ContextsEndZeroed : Prop :=
  ∀ (s : State) (core plat gang : Nat) (l : Launch) (r : Running),
    let c := s.ctx core plat
    let ends := fun (i : Instr) (P : State → Prop) => ∃ t, exec i s = .next t ∧ t.ctx core plat = Ctx.empty ∧ P t ∧
      s.othersKept t core plat ∧
      (∀ l i, s.findLaunch c.gang = some l → l.entries.findIdx? (fun e => l.ctxidOf e = c.ctxid) = some i →
        (t.findLaunch c.gang).map (·.gone) = some (insertNat l.gone i)) ∧
      (∀ b < 64, (c.creg 0x020).getLsbD b = true →
        (∀ d ∈ (t.core core).all, d.state ≠ .empty → (d.creg 0x020).getLsbD b = false) →
        ∀ p, b * 0x20000 ≤ p → p < (b + 1) * 0x20000 → Mem.byte t.mem (s1Place core 0 + p) = 0#8) ∧
      (∀ p, (p < s1Place core 0 ∨ s1Place core 0x800000 ≤ p) → Mem.byte t.mem p = Mem.byte s.mem p)
    let down := s.settledDown core plat = true ∧ (s.core core).plats.sorted ∧ (s.core core).nextHeld plat = none
    let queued := fun (t : State) (r : Running) (st : Nat) => t.commands = s.commands.filter (·.id != r.id) ∧
      s.completed t r.queue r.packet st 0 0
    (down → c.haltPending = true → c.killPending = false → ends (.haltZeroing core plat) (fun _ => True)) ∧
    (down → c.killPending = true → c.state ≠ .saving → c.state ≠ .loading → s.underWay 8 core plat = some r → ends (.killZeroing core plat) (fun t => queued t r stOK)) ∧
    (c.killPending = false → s.underWay 8 core plat = some r → c.state ≠ .empty → c.state ≠ .saving →
      s.stillLoading core plat = false → (∀ x ∈ c.chan.stores, x.begun = false) →
      ∃ t, exec (.killZeroing core plat) s = .next t ∧ t.mem = s.mem ∧ s.stopped t core plat ∧ t.commands = s.commands) ∧
    (s.findLaunch gang = some l → l.phase = 2 → (∀ k < l.entries.length, k ∈ l.gone) →
      (∀ p ∈ l.places, (s.ctx p.1 p.2).gang = gang → (s.ctx p.1 p.2).state = .empty) →
      ∃ t, exec (.launchComplete gang) s = .next t ∧ t.mem = s.mem ∧ s.ctxsKept t ∧ t.findLaunch gang = none ∧
        s.completed t l.queue l.packet stOK 0 0)

/-- The shunter saves a context that leaves its platform, once its results have landed: it is SAVING, and goes into the
shunter's keeping, or into a sealed image at its destination, and its platform is EMPTY; one that the partition has no place for
stays, and its packet is REFUSED. A rotation's restore puts the member held longest back where its checks pass, with its save
counter advanced (R52, R60, R61, R234, R321, R322). That SAVING is a step before the image, and the refusal, are the model's
(log 57), and so are what a held member keeps and a save of a FAULTED context (log 56). -/
def Obligations.ContextsAreSavedAndRestored : Prop :=
  ∀ (s : State) (core plat dest key : Nat) (back : PlatState) (k : Packet) (h : Held) (c : Ctx) (r : Running),
    let d := s.ctx core plat
    let kr := s.core core
    let starts := s.savable core plat = true ∧ d.killPending = false ∧ d.resume = .none ∧ d.state ≠ .saving
    let ends := d.state = .saving ∧ d.why = some (.leaving back) ∧ s.underWay 8 core plat = none ∧ d.killPending = false ∧
      s.begunDone core plat = true ∧
      kr.half0.owner ≠ some plat ∧ kr.half1.owner ≠ some plat ∧ kr.plats.sorted ∧ kr.nextHeld plat = none
    let away := fun (s2 t : State) => exec (.contextSave core plat) s = .next t ∧ t.ctx core plat = Ctx.empty ∧
      s.othersKept t core plat ∧ (∀ p, (p < s1Place core 0 ∨ s1Place core 0x800000 ≤ p) → Mem.byte t.mem p = Mem.byte s2.mem p)
    (starts → d.state ≠ .faulted → d.why = some (.leaving back) → s.imageFits core plat back = true →
      exec (.contextSave core plat) s = .next (s.setCtx core plat { d with state := .saving })) ∧
    (starts → d.state ≠ .faulted → d.why = some (.leaving .ready) → s.imageFits core plat .ready = false →
      d.preempt = some (dest, key, k) → s.underWay 8 core plat = none →
      ∃ t, exec (.contextSave core plat) s = .next t ∧ t.mem = s.mem ∧ (t.ctx core plat).state = .ready ∧
        (t.ctx core plat).regs = d.regs ∧ (t.ctx core plat).flow = d.flow ∧ s.completed t key k stREFUSED 0 (core * 4 + plat)) ∧
    (starts → d.state = .faulted → s.underWay 6 core plat = some r → s.imageFits core plat .faulted = true →
      exec (.contextSave core plat) s = .next (s.setCtx core plat { d with state := .saving, why := some (.leaving .faulted) })) ∧
    (ends → back ≠ .faulted → d.preempt = none →
      ∃ t, exec (.contextSave core plat) s = .next t ∧ t.mem = s.mem ∧ t.ctx core plat = Ctx.empty ∧ s.othersKept t core plat ∧
        (t.core core).held = kr.held ++ [⟨plat, { d.trim wholeBanks back with chan := d.chan }, s.now, false,
          SMap.get 0 s.keys.saves d.ctxid.toNat, false⟩]) ∧
    (∀ s2, ends → back ≠ .faulted → d.preempt = some (dest, key, k) → s.writeImage core plat dest 0 back = some s2 →
      ∃ t, away s2 t ∧ s2.completed t key k stOK 0 0) ∧
    (∀ s2, ends → back = .faulted → d.preempt = none → s.underWay 6 core plat = some r →
      s.writeImage core plat r.packet.w1.toNat 0 back = some s2 → ∃ t, away s2 t ∧
        t.commands = s.commands.filter (·.id != r.id) ∧ s2.completed t r.queue r.packet stOK 0 0) ∧
    (d.state = .loading → (∀ l ∈ s.launches, l.phase = 1 → l.on core plat = []) → s.restores core plat true = [] →
      s.underWay 8 core plat = none → kr.nextHeld plat = some h → s.checkHeld core h = .ok c → s.zeroing (s.composeAll c) = false →
      ∃ t, exec (.restoreComplete core plat) s = .next t ∧ t.mem = s.mem ∧ (h.ctx.state ≠ .faulted → (t.ctx core plat).regs = h.ctx.regs) ∧
        (h.ctx.state = .ready → (t.ctx core plat).state = .ready ∧ (t.ctx core plat).flow = h.ctx.flow) ∧
        (t.core core).held = kr.held.filter (fun o => o != h) ∧
        SMap.get 0 t.keys.saves h.ctx.ctxid.toNat = SMap.get 0 s.keys.saves h.ctx.ctxid.toNat + 1)

/-! ## The host -/

/-- A packet that its queue starts: LAUNCH records a launch, which holds its queue back, or completes with the lowest status of
R43; PREEMPT, SAVE, RESTORE, KILL and REVOKE are under way, RESTORE brings its platform into LOADING in a step of its own, and
REVOKE completes when the accesses it waits for have performed; RESUME, RESUMESKIP and REFILL act at once; a platform of another
partition is REFUSED (R43, R46, R60, R62, R206, R310, R311, R335, R336). That REVOKE waits for every access of the context (log
59), that a command which clashes with another is refused and that a resumed context is READY before its replay (log 58) are the
model's. -/
def Obligations.PlatformCommandsAct : Prop :=
  ∀ (s : State) (fn q : Nat) (k : Packet) (qi : HostQueue),
    let key := queueKey fn q
    let core := k.core
    let plat := k.plat
    let c := s.ctx core plat
    let mine := (s.partition qi.part).ownsCore core = true
    let free := c.preempt = none ∧ c.haltPending = false ∧ c.killPending = false ∧ s.underWay 6 core plat = none
    let there := c.state ≠ .empty ∧ c.state ≠ .loading ∧ c.state ≠ .saving
    let faulted := mine ∧ c.state = .faulted ∧ c.killPending = false ∧ s.underWay 6 core plat = none
    let goes := fun (i : Instr) (P : State → Prop) => ∃ t, exec i s = .next t ∧ t.mem = s.mem ∧ P t
    let begun := fun (i : Instr) (waits : List (Nat × Nat × Nat)) (P : State → Prop) => goes i (fun t =>
      t.startedPacket fn q qi ∧ t.commands = s.commands ++ [⟨s.nextId, key, k, waits⟩] ∧ P t)
    let resumes := fun (i : Instr) (skip : Bool) =>
      let r := readRecord s core c.place.frec
      let back := fun (pc : Nat) => goes i (fun t => t.answered fn q qi k stOK 0 0 ∧ (t.ctx core plat).state = .ready ∧
        (t.ctx core plat).flow.pc = pc ∧ (t.ctx core plat).regs = c.regs ∧ s.othersKept t core plat)
      (r.plan skip ≠ 4 → back r.mpc) ∧
      (r.plan skip = 4 → c.recAfter = none → r.xferB / 4 % 2 = 0 → c.flow.loops = [] →
        (s.bundleIn core c r.mpc).bundle.hdr.sp = false → back (r.mpc + 1))
    (∀ img, Takes s fn q k 0x01 qi → s.findImage k.w0.toNat = some img → k.w2.toNat ≤ 393216 →
      let es := s.readMap k.w1.toNat k.w2.toNat
      let verdict := launchRefusal (s.partition qi.part) es (s.entryTiles qi.part img es)
      (verdict = none → goes (.launch fn q k) (fun t => s.ctxsKept t ∧
        t.launches = s.launches ++ [⟨s.nextId, key, k, qi.part, img.addr, es, 0, [], [], 0⟩] ∧
        SMap.find t.queues key = some { qi with head := qi.head + 1, open_ := qi.open_ + 1, waiting := true })) ∧
      (∀ st detail, verdict = some (st, detail) → goes (.launch fn q k) (fun t => s.ctxsKept t ∧ t.launches = s.launches ∧
        t.answered fn q qi k st 0 detail))) ∧
    (Takes s fn q k 0x02 qi → mine → there → free → c.rotating = false → k.w1.toNat % 64 = 0 →
      goes (.preempt fn q k) (fun t => t.startedPacket fn q qi ∧ s.othersKept t core plat ∧
        (t.ctx core plat).preempt = some (k.w1.toNat, key, k) ∧ (t.ctx core plat).regs = c.regs ∧
        (c.state = .running → (t.ctx core plat).state = .running) ∧
        (c.asyncFaults = [] → c.state = .parked ∨ ((c.state = .ready ∨ c.state = .blocked ∧ c.why ≠ some .fault) ∧ c.safe.isSome) →
          (t.ctx core plat).state = c.state ∧
          (t.ctx core plat).why = some (.leaving (if c.state = .parked then .parked else .ready))))) ∧
    (Takes s fn q k 0x03 qi → faulted → resumes (.resume fn q k) false) ∧
    (Takes s fn q k 0x04 qi → faulted → resumes (.resumeskip fn q k) true) ∧
    (∀ e, Takes s fn q k 0x05 qi → mine → there → free → c.faultPending = none → s.refillWaits key k = none →
      k.w1.toNat < 16384 → k.w2.getLsbD 0 = false →
      s.compose c k.w1.toNat (s.refillVa core plat k.w1.toNat) = .entry e → s.zeroing [(k.w1.toNat, e)] = false →
      goes (.refill fn q k) (fun t => t.answered fn q qi k stOK 0 0 ∧ s.othersKept t core plat ∧
        t.ctx core plat = { c with window := SMap.set 0#32 c.window k.w1.toNat e })) ∧
    (Takes s fn q k 0x06 qi → faulted → k.w1.toNat % 64 = 0 → begun (.save fn q k) [] (fun t => s.ctxsKept t)) ∧
    (Takes s fn q k 0x07 qi → mine → c.state = .empty → k.w1.toNat % 64 = 0 →
      ((s.core core).world = none ∨ s.imageWorld qi.part k.w1.toNat = none ∨
        (s.core core).world = s.imageWorld qi.part k.w1.toNat) →
      begun (.restore fn q k) [] (fun t => s.ctxsKept t)) ∧
    (∀ r, s.restores core plat false = [r] → c.state = .empty →
      let w := s.imageWorld (((SMap.find s.queues r.queue).map HostQueue.part).getD 0) r.packet.w1.toNat
      ((s.core core).world = none ∨ w = none ∨ (s.core core).world = w) →
      goes (.restoreComplete core plat) (fun t => (t.ctx core plat).state = .loading ∧ s.othersKept t core plat ∧
        t.queues = s.queues)) ∧
    (Takes s fn q k 0x08 qi → mine → there → c.killPending = false → c.preempt = none → s.underWay 8 core plat = none →
      s.underWay 6 core plat = none → (∀ x ∈ c.chan.stores, x.begun = false) →
      (∀ b ∈ s.bounces, ∀ x, b.2.copy ≠ some (x, core, plat)) → begun (.kill fn q k) [] (fun t => s.stopped t core plat)) ∧
    (Takes s fn q k 0x09 qi → mine → there → k.w1.toNat + k.w2.toNat ≤ 16384 →
      begun (.revoke fn q k) ((s.outstanding core plat ⟨true, true, true, false⟩ .package).map (fun id => (core, plat, id))) (fun t =>
        s.othersKept t core plat ∧ t.ctx core plat = { c with
          window := c.window.filter (fun p => p.1 < k.w1.toNat || k.w1.toNat + k.w2.toNat ≤ p.1) })) ∧
    (∀ r, s.commands.find? (·.id = q) = some r → r.packet.op = 0x09#8 →
      (∀ w ∈ r.waits, s.isOutstanding w.1 w.2.1 w.2.2 = false) →
      s.enginesUse r.packet.core r.packet.plat r.packet.w1.toNat r.packet.w2.toNat = false →
      goes (.revokeComplete q) (fun t => s.ctxsKept t ∧ t.commands = s.commands.filter (·.id != r.id) ∧
        s.completed t r.queue r.packet stOK 0 0)) ∧
    (∀ i op, (op, i) ∈ [(0x02, Instr.preempt fn q k), (0x03, .resume fn q k), (0x04, .resumeskip fn q k), (0x05, .refill fn q k),
      (0x06, .save fn q k), (0x07, .restore fn q k), (0x08, .kill fn q k), (0x09, .revoke fn q k)] → Takes s fn q k op qi →
      (s.partition qi.part).ownsCore core = false → s.refillWaits key k = none →
      goes i (fun t => s.ctxsKept t ∧ t.commands = s.commands ∧ t.answered fn q qi k stREFUSED 0 k.w0.toNat))

/-- CLAIM takes a free adapter slot and finds a taken one OCCUPIED; RESYNC with the device's counter lets an aborted channel run
again, any other is answered with it; ATTEST writes its report, with the ECDSA signature of the digest of what it covers, under
a key and a nonce that are free (log 6); a slot is released. The report's bytes and place (log 62), the ranges of CLAIM and
RESYNC and the produced counter (log 60, 61) are the model's. A packet whose PASID is not allowed completes with BADPASID, and
one of the queue of an aborted bounce channel is ignored (R302, R335, R340, R351). A 4-byte TAIL write within the queue's size
is taken; the oldest completion is written to its ring's next slot and its interrupt asked for; an interrupt request is sent,
kept pending under a mask, or logged; unmasking sends what was pending (R334, R337, R338). -/
def Obligations.HostQueuesAndOtherCommandsAnswer : Prop :=
  (∀ (s : State) (fn q part slot : Nat) (k : Packet) (qi : HostQueue),
    let p := s.partition qi.part
    let goes := fun (i : Instr) (writes : List (Nat × List Byte)) (P : State → Prop) => ∃ t, exec i s = .next t ∧
      s.stored t writes ∧ s.ctxsKept t ∧ P t
    let bounce := bounceKey (queueKey fn q) k.w0.toNat
    (Takes s fn q k 0x0A qi → k.w0.toNat < 4096 → k.w1.toNat ≤ 1 →
      (SMap.find p.slots k.w0.toNat = none → goes (.claim fn q k) [] (fun t => t.answered fn q qi k stOK 0 0 ∧
        (SMap.find (t.partition qi.part).slots k.w0.toNat).map (fun a => (a.kind, a.image)) =
          some (k.w1.toNat, k.w2.toNat))) ∧
      (∀ a, SMap.find p.slots k.w0.toNat = some a → goes (.claim fn q k) [] (fun t =>
        t.answered fn q qi k stOCCUPIED 0 0 ∧ t.partition qi.part = p))) ∧
    (∀ b, Takes s fn q k 0x0B qi → k.w0.toNat < 65536 → SMap.find s.bounces bounce = some b →
      goes (.resync fn q k) [] (fun t =>
        (k.w1.toNat = b.consumed → t.answered fn q qi k stOK 0 0 ∧
          SMap.find t.bounces bounce = some { b with produced := b.consumed, aborted := false }) ∧
        (k.w1.toNat ≠ b.consumed → t.answered fn q qi k stBADSYNC b.consumed 0 ∧ t.bounces = s.bounces))) ∧
    (Takes s fn q k 0x0C qi → k.w1.toNat % 64 = 0 →
      let body := s.bytes (hostPlace k.w1.toNat) 64 ++ toBytes 32 s.hub.firmware.toNat ++
        toBytes 32 (SMap.get 0#256 s.keys.measures (s.partWorld qi.part)).toNat ++ toBytes 8 qi.part ++ toBytes 8 s.keys.erasures
      let sig := ecdsaSign Config.attestKey (Config.attestNonce s.oracle) (ofBytesBE (sha256 body))
      goes (.attest fn q k) [(hostPlace k.w2.toNat, body ++ toBytes 32 sig.1 ++ toBytes 32 sig.2)] (fun t =>
        t.answered fn q qi k stOK 0 0)) ∧
    (∀ a, SMap.find (s.partition part).slots slot = some a → (s.partition part).slots.sorted →
      goes (.adapterSlotRelease part slot) [] (fun t => SMap.find (t.partition part).slots slot = none)) ∧
    (∀ i ∈ [Instr.launch fn q k, .preempt fn q k, .resume fn q k, .resumeskip fn q k, .save fn q k, .restore fn q k, .kill fn q k,
      .revoke fn q k, .claim fn q k, .resync fn q k, .attest fn q k], SMap.find s.queues (queueKey fn q) = some qi → s.up = true →
      s.hub.linkUp = true → fn ∉ s.resetting → qi.mayStart k = true → s.headPacket qi = k →
      (s.deaf (queueKey fn q) k = true → goes i [] (fun t =>
        SMap.find t.queues (queueKey fn q) = some { qi with head := qi.head + 1 })) ∧
      (s.deaf (queueKey fn q) k = false → s.pasidAllowed qi.pasids k.pasid.toNat = false →
        goes i [] (fun t => t.answered fn q qi k stBADPASID 0 0)))) ∧
  (∀ (s : State) (fn q vec : Nat) (v : BitVec 32) (qi : HostQueue) (e : MsixEntry),
    let goes := fun (i : Instr) (writes : List (Nat × List Byte)) (P : State → Prop) => ∃ t, exec i s = .next t ∧
      s.stored t writes ∧ s.ctxsKept t ∧ P t
    let key := irqKey fn vec
    let asked := (fn, vec) ∈ s.irqs
    let taken := fun (t : State) => t.irqs = s.irqs.erase (fn, vec)
    (s.up = true → s.hub.linkUp = true → fn ∉ s.resetting → q < 8 → SMap.find s.queues (queueKey fn q) = some qi → qi.v = true →
      (v - qi.head).toNat ≤ qi.size → goes (.notifyTailWrite fn (512 * q) 4 v) [] (fun t =>
        SMap.find t.queues (queueKey fn q) = some { qi with tail := v })) ∧
    (∀ r irq pasid rest, SMap.find s.queues (queueKey fn q) = some qi → qi.done = (r, irq, pasid) :: rest → s.hub.linkUp = true →
      goes (.completionRecord fn q) [(hostPlace (qi.cring + 32 * (qi.cslot % qi.size)), r)] (fun t =>
        SMap.find t.queues (queueKey fn q) = some { qi with cslot := qi.cslot + 1, done := rest } ∧
        t.irqs = s.irqs ++ (if irq then [(fn, qi.vec)] else []))) ∧
    (asked → SMap.get MsixEntry.empty s.remap key = e →
      goes (.interruptRequest fn vec) [] (fun t => taken t ∧
        (e.v = true → e.mask = false → t.sent = s.sent ++ [(e.addr, e.data)]) ∧
        (e.v = true → e.mask = true → t.sent = s.sent ∧ SMap.find t.remap key = some { e with pend := true }) ∧
        (e.v = false → t.sent = s.sent ∧ t.hub.log = s.hub.log ++ [.irq fn vec]))) ∧
    (SMap.find s.remap key = some e →
      goes (.interruptUnmask fn vec) [] (fun t => SMap.find t.remap key = some { e with mask := false, pend := false } ∧
        t.sent = s.sent ++ (if e.v = true ∧ e.pend = true then [(e.addr, e.data)] else []))))

/-! ## The hub -/

/-- Boot chooses the first intact firmware slot and enters SELFTEST, or the safe state where none is intact; the self-test ends
in RUN with every SRAM zeroed and the device registers at their reset values, or in the safe state where it fails; a device
reset starts in BOOT with the reset values again; a sensor alarm erases the keys and holds the compute dies in reset (R16, R347,
R352 to R354). What a device reset keeps, the bytes of the stacks and the count of boots, and that it clears the key store, are
the model's choice (log 65). -/
def Obligations.DeviceBootsAndResets : Prop :=
  ∀ (s : State) (ok0 ok1 : Bool) (d0 d1 : BitVec 256) (fail : BitVec 46),
    let zeroed := fun (t : State) => (∀ p, Mem.byte t.mem p = if p < 2 ^ 60 then 0#8 else Mem.byte s.mem p) ∧ t.cores = [] ∧
      t.clusters = [] ∧ t.dies = []
    let boot := fun (P : State → Prop) => ∃ t, exec (.powerOn ok0 ok1 d0 d1 fail) s = .next t ∧ P t
    (s.hub.mbstate = 0 →
      (ok0 = true ∨ ok1 = true → boot (fun t => t.hub.mbstate = 1 ∧ t.hub.boots = s.hub.boots + 1 ∧ t.mem = s.mem ∧
        t.hub.firmware = if ok0 then d0 else d1)) ∧
      (ok0 = false → ok1 = false → boot (fun t => t.hub.mbstate = 3 ∧ t.hub.mbcause = 1 ∧ t.hub.boots = s.hub.boots + 1))) ∧
    (s.hub.mbstate = 1 →
      (fail = 0 → boot (fun t => t.hub.mbstate = 2 ∧ t.now = 0 ∧ zeroed t ∧ t.functions = [] ∧ t.partitions = [] ∧
        t.hub.pwrlim = 750 ∧ t.hub.pwrLevel = 0 ∧ t.hub.alarmcfg = 2 ∧ t.hub.firmware = s.hub.firmware)) ∧
      (fail ≠ 0 → boot (fun t => t.hub.mbstate = 3 ∧ t.hub.mbcause = 2 ∧ t.hub.mbfail = fail ∧ zeroed t))) ∧
    (∃ t, exec .deviceReset s = .next t ∧ zeroed t ∧ t.queues = [] ∧ t.hub.mbstate = 0 ∧ t.hub.pwrlim = 750 ∧
      t.hub.alarmcfg = 2 ∧ t.keys = KeyStore.empty ∧ t.hub.boots = s.hub.boots) ∧
    (s.hub.mbstate ≠ 3 → s.hub.mbstate ≠ 4 → ∃ t, exec .sensorAlarm s = .next t ∧ t.mem = s.mem ∧ t.hub.mbstate = 4 ∧
      t.hub.mbcause = 3 ∧ t.keys.keys = [] ∧ t.keys.erasures = s.keys.erasures + 1 ∧ t.cores = [])

/-- The power loop steps its throttle level by the millisecond's average, and an overpower sets the highest; the link goes down
after its retries, and every function reports a timeout; reads from outside are answered, with ones where no partition holds the
function; a refused access is answered and logged; an interchange message that a filter passes copies its lines and uses up the
burst, any other is refused, counted, logged and completed with FILTERED (R331, R332, R334, R339, R342, R346, R352, R355, R357).
Ones at every offset of an absent function and while the dies are held (log 9), copying line by line and FILTERED for each
refusal (log 69), the average as an input (log 78) and the lists of answers (log 68) are the model's. -/
def Obligations.HubServesPowerLinkAndMessages : Prop :=
  ∀ (s : State) (input : BitVec 16) (r : OutsideRead) (fn who : Nat) (write : Bool) (m : Message) (f : FilterEntry) (a b n : Nat),
    let h := s.hub
    let goes := fun (i : Instr) (writes : List (Nat × List Byte)) (P : State → Prop) => ∃ t, exec i s = .next t ∧
      s.stored t writes ∧ s.ctxsKept t ∧ P t
    goes (.powerLoopTick input) [] (fun t => t.hub.pwrInput = input ∧
      t.hub.pwrLevel = (if h.pwrlim < input.toNat then Min.min 5 (h.pwrLevel + 1)
        else if input.toNat * 100 < h.pwrlim * 95 then h.pwrLevel - 1 else h.pwrLevel)) ∧
    goes .overpowerTrip [] (fun t => t.hub.pwrLevel = 5) ∧
    (h.linkUp = true → goes .linkRetryExhausted [] (fun t => t.hub.linkUp = false ∧
      t.answers = s.answers ++ (List.range 257).map .timeout)) ∧
    ((overLink r = true → h.linkUp = true) → goes (.configRequest r) [] (fun t => ∃ v, t.answers = s.answers ++ [.read r v] ∧
      (∀ off, r = .config fn off → fn ≠ 256 → SMap.find s.functions fn = none ∨ s.up = false → v = 0xFFFFFFFF#64) ∧
      (r = .config 256 Config.sriov → s.up = true → v = 0x01000100#64) ∧
      (∀ i q, r = .bar0 fn (512 * i + 4) → i < 8 → s.up = true → (SMap.find s.functions fn).isSome →
        SMap.find s.queues (queueKey fn i) = some q → v = BitVec.ofNat 64 q.head.toNat) ∧
      (r = .hub (.window 0x000) → v = BitVec.ofNat 64 (h.mbstate + h.mbcause * 256)) ∧
      (r = .hub (.window 0x030) → v = BitVec.ofNat 64 (h.pwrInput.toNat + h.pwrLevel * 65536)) ∧
      (r = .hub (.window 0x038) → v = BitVec.ofNat 64 h.pwrlim) ∧
      (r = .hzctl → v = if h.hzbusy = none then 0#64 else 2#64) ∧
      (r = .phc fn → v = (s.partition fn).phc))) ∧
    (s.up = true → goes (.refusedAccess who write) [] (fun t => t.answers = s.answers ++ [if h.alarmcfg.getLsbD 0 then .faulted who
        else if write then .dropped who else .allOnes who] ∧
      t.hub.log = h.log ++ (if h.alarmcfg.getLsbD 1 then [.access who] else []))) ∧
    (s.up = true → s.filters = [f] → f.src = m.src → f.dst = m.dst → m.size ≤ Min.min f.maxSize 4096 → f.left ≠ 0 → f.burst ≤ 64 →
      m.otherWorld = false → s.messageRuns m = some ([(a, n)], [(b, n)]) → s.isCipher (a / 64) = false →
      s.isCipher (b / 64) = false → goes (.interchangeMessage m) [(b, s.bytes a n)] (fun t =>
        t.filters = [{ f with left := f.left - 1 }] ∧ s.completed t (queueKey m.fn m.q) m.packet stOK 0 0)) ∧
    (s.up = true → s.filters = [] → goes (.interchangeMessage m) [] (fun t => t.hub.log = h.log ++ [.filtered m.src m.dst] ∧
      t.hub.refusals = h.refusals + 1 ∧ s.completed t (queueKey m.fn m.q) m.packet stFILTERED 0 0))

/-- Registers that the hypervisor and the service core write: PHC takes half-clusters that no other partition holds and gives up
ones not in use, whose S2 is zeroed, and logs any other value; PQOS and TAGBASE take values in range and log any other; PWRLIM
ignores a value out of range; PS3R takes a range; the others keep their fields. ZERO runs over its frames of device HBM, which
are zero when it completes (R201, R315, R329, R344 to R346, R355). The layout of a function's register is the model's (log 88),
and so are that these registers are written in RUN only, that PHC sees held members (log 66) and that ZERO's frames are zeroed
at its completion (log 67). -/
def Obligations.HubRegistersAreWritten : Prop :=
  ∀ (s : State) (part n : Nat) (v : Word),
    let q := s.partition part
    let h := s.hub
    let goes := fun (i : Instr) (P : State → Prop) => ∃ t, exec i s = .next t ∧ s.ctxsKept t ∧ P t
    let keeps := fun (i : Instr) (P : State → Prop) => goes i (fun t => t.mem = s.mem ∧ P t)
    let logged := fun (t : State) (reg : Nat) => t.hub.log = h.log ++ [.refusedWrite reg v]
    let new := v &&& 0xFFFFFFFFFFFF#64
    let gone := q.phc &&& ~~~new
    (s.up = true → part < 48 → (∀ j < 48, gone.getLsbD j = true → s.halfInUse j = false) →
      (∀ p ∈ s.partitions, p.1 ≠ part → p.2.phc &&& new = 0) →
      goes (.phcWrite part v) (fun t => t.partition part = { q with phc := new } ∧
        (∀ j < 48, gone.getLsbD j = true → ∀ p, s2Place (j / 2) (j % 2 * 0x5000000) ≤ p →
          p < s2Place (j / 2) (j % 2 * 0x5000000 + 0x5000000) → Mem.byte t.mem p = 0#8) ∧
        (∀ p, (∀ j < 48, gone.getLsbD j = true → p < s2Place (j / 2) (j % 2 * 0x5000000) ∨
          s2Place (j / 2) (j % 2 * 0x5000000 + 0x5000000) ≤ p) → Mem.byte t.mem p = Mem.byte s.mem p))) ∧
    (∀ p ∈ s.partitions, s.up = true → part < 48 → p.1 ≠ part → p.2.phc &&& new ≠ 0 →
      keeps (.phcWrite part v) (fun t => t.partition part = q ∧ logged t 0)) ∧
    (s.up = true → part < 48 → n < 4 → q.ps3r = [] → (∀ p ∈ s.partitions, p.2.s3Ranges = []) → v.getLsbD 63 = true →
      (v.extractLsb' 32 16).toNat ≤ 28672 → keeps (.ps3rWrite part n v) (fun t =>
        (t.partition part).s3Ranges = [((v.extractLsb' 48 2).toNat, (v.extractLsb' 0 16).toNat, (v.extractLsb' 32 16).toNat)])) ∧
    (s.up = true → part < 48 →
      let quant := (v.extractLsb' 16 21).toNat
      (1024 ≤ quant → quant ≤ 1048576 → keeps (.pqosWrite part v) (fun t =>
        t.partition part = { q with pqos := v &&& 0x1FFFFFFFFF#64 })) ∧
      (quant < 1024 ∨ 1048576 < quant → keeps (.pqosWrite part v) (fun t => t.partition part = q ∧ logged t 5))) ∧
    keeps (.pwrlimWrite v) (fun t => t.hub.pwrlim = if 100 ≤ v.toNat % 65536 ∧ v.toNat % 65536 ≤ 750 then v.toNat % 65536
      else h.pwrlim) ∧
    (s.up = true → n < 8 → s.protMapped n = false →
      let base := (v.extractLsb' 0 18).toNat
      let frames := (v.extractLsb' 48 15).toNat
      (base % 8 = n → tagEnd base frames ≤ 262144 → keeps (.tagbaseWrite n v) (fun t =>
        SMap.get 0#64 t.hub.tagbase n = v &&& 0xFFFF00000003FFFF#64)) ∧
      (base % 8 ≠ n → keeps (.tagbaseWrite n v) (fun t => t.hub.tagbase = h.tagbase ∧ logged t (8 + n)))) ∧
    (s.up = true →
      keeps (.registerWrite (.hub (.pfq part)) v) (fun t => t.partition part = { q with pfq := v &&& 0xF000FFFFFFFFFFE0#64 }) ∧
      keeps (.registerWrite (.hub (.xl2base part)) v) (fun t => t.partition part = { q with xl2base := v &&& 0xFFFFFFFFF000#64 }) ∧
      keeps (.registerWrite (.hub (.xl2len part)) v) (fun t => t.partition part = { q with xl2len := v &&& 0x3FFFFF#64 }) ∧
      keeps (.registerWrite (.hub .hzframe) v) (fun t => t.hub.hzframe = v &&& 0x3FFFF#64) ∧
      keeps (.registerWrite (.hub .hzcount) v) (fun t => t.hub.hzcount = v &&& 0x7FFFF#64) ∧
      keeps (.registerWrite (.hub .alarmcfg) v) (fun t => t.hub.alarmcfg = v &&& 3#64) ∧
      keeps (.registerWrite (.hub (.function n)) v) (fun t => SMap.find t.functions n =
        if v.getLsbD 63 then some (v.toNat % 48) else SMap.find (SMap.del s.functions n) n)) ∧
    (n ≠ 0x038 → exec (.registerWrite (.hub (.window n)) v) s = .next s) ∧
    exec (.registerWrite (.hub (.window 0x038)) v) s = exec (.pwrlimWrite v) s ∧
    (s.up = true → h.hzbusy = none → v.getLsbD 0 = true → 0 < h.hzcount.toNat → h.hzframe.toNat + h.hzcount.toNat ≤ 262144 →
      keeps (.zero v) (fun t => t.hub.hzbusy = some (h.hzframe.toNat, h.hzcount.toNat))) ∧
    (∀ first count, h.hzbusy = some (first, count) → (∀ p, s.metaFrame p = none) →
      goes .zeroComplete (fun t => t.hub.hzbusy = none ∧ t.hub.log = h.log ++ [.zeroDone] ∧
        ∀ p, Mem.byte t.mem p = if isHbmPlace p = true ∧ first ≤ (p - 2 ^ 60) / 2 ^ 21 ∧ (p - 2 ^ 60) / 2 ^ 21 < first + count
          then 0#8 else Mem.byte s.mem p))

/-- A function-level reset refuses the packets that wait in the function's queues and drops later notify writes; when their
records are written it stops the contexts of the partition that holds the function, if one does; when none of them is left, it
erases the keys of worlds that no other partition has, zeroes the partition's S2 and S3, clears the function's pending
interrupts and answers (R348, R349, R350). -/
def Obligations.FunctionsReset : Prop :=
  ∀ (s : State) (fn part core plat : Nat) (q : HostQueue) (k : Core) (c : Ctx),
    let p := s.partition part
    let holds := SMap.find s.functions fn = some part
    let goes := fun (P : State → Prop) => ∃ t, exec (.functionLevelReset fn) s = .next t ∧ P t
    let ended := fun (t : State) => t.answers = s.answers ++ [.resetDone fn] ∧ fn ∉ t.resetting ∧ fn ∉ t.removing ∧
      s.ctxsKept t ∧ ∀ i ∈ t.irqs, i.1 ≠ fn
    let ending := fn ∈ s.resetting ∧ fn ∈ s.removing ∧ risingNat s.resetting = true ∧ risingNat s.removing = true
    s.up = true →
    (fn ∉ s.resetting → s.queues = [(queueKey fn 0, q)] → q.tail = q.head + 1 →
      goes (fun t => t.mem = s.mem ∧ s.ctxsKept t ∧ fn ∈ t.resetting ∧ SMap.find t.queues (queueKey fn 0) = some { q with
        head := q.tail, done := q.done ++ [(completionRecord (s.headPacket q) stREFUSED 0 0, (s.headPacket q).flags.getLsbD 0,
          (s.headPacket q).pasid.extractLsb' 0 20)] })) ∧
    (fn ∈ s.resetting → s.hub.linkUp = true → ∀ off size v, exec (.notifyTailWrite fn off size v) s = .next s) ∧
    (fn ∈ s.resetting → fn ∉ s.removing → s.refusedAll fn = true →
      (SMap.find s.functions fn = none → goes (fun t => t.mem = s.mem ∧ s.ctxsKept t ∧ fn ∈ t.removing)) ∧
      (holds → s.launches = [] → s.commands = [] → s.cores = [(core, k)] → k.plats = [(plat, c)] → k.held = [] → k.away = [] →
        (∀ x ∈ c.chan.stores, x.begun = false) → goes (fun t => t.mem = s.mem ∧ fn ∈ t.removing ∧
          (c.part = part → c.state ≠ .empty → c.state ≠ .loading → c.killPending = false →
            (t.ctx core plat).killPending = true ∧ (c.state ≠ .saving → (t.ctx core plat).cmds = [])) ∧
          (c.part ≠ part → t.ctx core plat = c)))) ∧
    (SMap.find s.functions fn = none → ending → goes (fun t => ended t ∧ t.mem = s.mem)) ∧
    (holds → ending → s.emptied part = true → goes (fun t => ended t ∧ (t.partition part).worlds = [] ∧
      (s.keys.keys.sorted → ∀ w ∈ p.worlds, (∀ f ∈ s.functions, f.1 ≠ fn → w ∉ (s.partition f.2).worlds) →
        SMap.find t.keys.keys w = none) ∧
      (∀ j < 48, p.phc.getLsbD j = true → ∀ a, s2Place (j / 2) (j % 2 * 0x5000000) ≤ a →
        a < s2Place (j / 2) (j % 2 * 0x5000000 + 0x5000000) → Mem.byte t.mem a = 0#8) ∧
      ∀ r ∈ p.s3Ranges, ∀ a, s3Place r.1 (r.2.1 * 0x10000) ≤ a → a < s3Place r.1 (r.2.2 * 0x10000) → Mem.byte t.mem a = 0#8))

/-! ## The machine as a whole -/

/-- A step runs the decoded instruction: where the core's next bundle decodes to one slot instruction alone, the attempt to
issue it is the meaning of that instruction at the platform that the core selects; a step is the meaning of what is due; and
where nothing is due but something may come about freely, it is the meaning of one of those, with the draw counted and an input
taken from those that remain, or nothing comes about; an act that cannot come about leaves the machine to its next cycle, and no
step is refused (R54, R55, R525; log entry 1). -/
def Obligations.StepRunsTheDecodedInstruction : Prop :=
  ∀ (s : State) (core p : Nat) (i : Instr),
    let c := s.ctx core p
    ((s.core core).next s.now = some p → core < 384 → i.slot.isSome → c.resume = .none →
      ((s.core core).running = some p → c.state = .running) → s.bundleAt core c.flow.pc = ⟨alone i, []⟩ →
      exec (.bundleIssue core) s = exec i (s.focusOn core p) ∧
        (s.nextAct = .due (.bundleIssue core) → step s = s.orTick (exec i (s.focusOn core p)))) ∧
    (s.nextAct = .due i → step s = s.orTick (exec i s)) ∧ (∀ r, step s ≠ .refused r) ∧
    ((s.up = true → s.dueSteps.find? (enabled s) = none) → s.choices ≠ [] →
      step s = .next { s with oracle := s.oracle + 1, chosen := true } ∨
        ∃ j, (Act.free j ∈ s.choices ∧ step s = s.orTick (exec j { s.noteRequest j with oracle := s.oracle + 1 })) ∨
          (Act.input j ∈ s.choices ∧ step s = s.orTick (exec j { s with oracle := s.oracle + 1, inputs := s.inputs.tail })))

/-- Words written out from the spec's encodings decode to the instructions that they stand for: one of each slot and of a bound
code, a NOP bundle, and one ILLEGAL slot with the position of its bit (R71, R99 to R106, R432, R439). -/
def Obligations.WordsDecodeToTheirInstructions : Prop :=
  let g : Guard := ⟨0#4, false⟩
  decodeSlot .x 0x1C614001#80 = .instr (.add g 5 6 7) [] ∧
  decodeSlot .x 0x00031C61401F#80 = .instr (.sel g 5 3 6 7) [] ∧
  decodeSlot .c 0x00070000000B#80 = .instr (.trap g 7) [] ∧
  decodeSlot .a 0x00A180000000800A#80 = .instr (.ldx g .w 6 2 2) [] ∧
  decodeSlot .v0 0x8000010010078001#80 = .instr (.vadd g .f8a .rne true 3 1 2) [] ∧
  decodeSlot .v1 0x8000010010078001#80 = .instr (.vadd g .f8a .rne true 3 1 2) [] ∧
  decodeSlot .v0 0x300000B01502E00C8#80 = .instr (.boundInstruction g .v 8 (0x300000B01502E00C8 >>> 14)) [] ∧
  decodeSlot .e 0x50000C031#80 = .instr (.axqry g 20 3) [] ∧
  decodeSlot .t 0x224A40001#80 = .instr (.tmma g .z0 4 5 9 2 false none) [] ∧
  decodeSlot .x 0#80 = .empty ∧
  decodeSlot .c 0x2000#80 = .reserved 13 ∧
  readBundle 0#512 = ⟨alone .nop, []⟩

/-- Decoding inverts encoding: a bundle that holds a well-formed slot instruction alone, with the header that allots its ports,
reads back as that bundle, with every operand at every value and with nothing ILLEGAL (R70 to R84, R99, R115, R127). -/
def Obligations.DecodingInvertsEncoding : Prop :=
  ∀ i : Instr, i.slot.isSome → i.wf = true → readBundle (encodeBundle (alone i)) = ⟨alone i, []⟩

/-- Every step keeps memory in canonical form. -/
def Obligations.StepsKeepMemoryCanonical : Prop :=
  ∀ s t : State, s.MemWf → step s = .next t → t.MemWf

/-- After device reset STATE is BOOT, LIMIT 750, ALARMCFG.LOG 1 and MODE 0, and the quantum of every partition 4096 (R56, R329,
R346, R355); no platform holds a context, every register that a context would find is 0 and p0 true (R16, R85); and memory is in
canonical form (log entry 3 says what its bytes read as). -/
def Obligations.ResetLeavesABootingPackage : Prop :=
  let s := State.reset
  s.MemWf ∧ s.hub.mbstate = 0 ∧ s.hub.pwrlim = 750 ∧ s.hub.alarmcfg = 2 ∧ s.hub.pwrLevel = 0 ∧
  (∀ part, ((s.partition part).pqos.extractLsb' 16 21).toNat = 4096) ∧
  ∀ core plat n, (s.ctx core plat).state = .empty ∧ (s.ctx core plat).regs.getX n = 0 ∧ (s.ctx core plat).regs.getA n = 0 ∧
    (s.ctx core plat).regs.getV n = 0 ∧ (s.ctx core plat).regs.getM n = 0 ∧ (s.ctx core plat).creg n = 0 ∧
    (s.ctx core plat).regs.getP n = decide (n = 0)

/-- Only a device reset leaves the safe state or the state of a sensor alarm: every other step keeps STATE (R347, R354). -/
def Obligations.OnlyAResetLeavesTheSafeState : Prop :=
  ∀ s t : State, s.hub.mbstate = 3 ∨ s.hub.mbstate = 4 → step s = .next t →
    t.hub.mbstate = s.hub.mbstate ∨ s.nextAct = .input .deviceReset
end

