-- ==== Sys2Proof/Laws/Fields.lean ====
section
/-! SUPPORT. Laws of the fields of a slot: a field read from a sum of placed fields is the one that stands there, and the codes
of operand fields read back as what they name. -/
namespace Sys2Proof

@[simp] theorem fld_or (a b : SlotBits) (lo n : Nat) : fld (a ||| b) lo n = fld a lo n ||| fld b lo n := by
  apply BitVec.eq_of_getLsbD_eq
  intro i hi
  simp only [fld, BitVec.getLsbD_extractLsb', BitVec.getLsbD_or]
  cases decide (i < n) <;> simp

/-- A field that holds the place read. -/
theorem fld_put_in {m : Nat} (p lo n : Nat) (v : BitVec m) (h : p ≤ lo ∧ lo + n ≤ p + m ∧ lo + n ≤ 80) :
    fld (put p v) lo n = v.extractLsb' (lo - p) n := by
  apply BitVec.eq_of_getLsbD_eq
  intro i hi
  simp only [fld, put, BitVec.getLsbD_extractLsb', BitVec.getLsbD_shiftLeft, BitVec.getLsbD_setWidth, hi, decide_true,
    Bool.true_and]
  have h1 : (decide (lo + i < 80)) = true := by simp; omega
  have h2 : (decide (lo + i < p)) = false := by simp; omega
  have h3 : (decide (lo + i - p < 80)) = true := by simp; omega
  rw [h1, h2, h3, show lo + i - p = lo - p + i by omega]
  simp

/-- The field that stands at the place read. -/
@[simp] theorem fld_put {n : Nat} (p : Nat) (v : BitVec n) (h : p + n ≤ 80) : fld (put p v) p n = v := by
  rw [fld_put_in p p n v ⟨Nat.le_refl _, Nat.le_refl _, h⟩]
  apply BitVec.eq_of_getLsbD_eq
  intro i hi
  simp [hi]

/-- A field beside the place read. -/
@[simp] theorem fld_put_off {m : Nat} (p lo n : Nat) (v : BitVec m) (h : p + m ≤ lo ∨ lo + n ≤ p) : fld (put p v) lo n = 0#n := by
  apply BitVec.eq_of_getLsbD_eq
  intro i hi
  simp only [fld, put, BitVec.getLsbD_extractLsb', BitVec.getLsbD_shiftLeft, BitVec.getLsbD_setWidth, hi, decide_true,
    Bool.true_and, BitVec.getLsbD_zero]
  rcases h with h | h
  · rw [BitVec.getLsbD_of_ge v (lo + i - p) (by omega)]; simp
  · have h2 : (decide (lo + i < p)) = true := by simp; omega
    rw [h2]; simp

@[simp] theorem fldB_or (a b : SlotBits) (i : Nat) : fldB (a ||| b) i = (fldB a i || fldB b i) := by
  simp [fldB]

@[simp] theorem fldB_put {m : Nat} (p i : Nat) (v : BitVec m) (h : p ≤ i ∧ i < 80) : fldB (put p v) i = v.getLsbD (i - p) := by
  simp only [fldB, put, BitVec.getLsbD_shiftLeft, BitVec.getLsbD_setWidth]
  have h1 : (decide (i < 80)) = true := by simp; omega
  have h2 : (decide (i < p)) = false := by simp; omega
  have h3 : (decide (i - p < 80)) = true := by simp; omega
  rw [h1, h2, h3]; simp

@[simp] theorem fldB_put_off {m : Nat} (p i : Nat) (v : BitVec m) (h : p + m ≤ i ∨ i < p) : fldB (put p v) i = false := by
  simp only [fldB, put, BitVec.getLsbD_shiftLeft, BitVec.getLsbD_setWidth]
  rcases h with h | h
  · rw [BitVec.getLsbD_of_ge v (i - p) (by omega)]; simp
  · have h2 : (decide (i < p)) = true := by simp; omega
    rw [h2]; simp

@[simp] theorem Fmt.ofCode_code (f : Fmt) : Fmt.ofCode f.code = f := by cases f <;> rfl
@[simp] theorem Rm.ofCode_code (r : Rm) : Rm.ofCode r.code = r := by cases r <;> rfl
@[simp] theorem Plane.ofCode_code (p : Plane) : Plane.ofCode p.code = p := by cases p <;> rfl
@[simp] theorem Scope.ofCode_code (s : Scope) : Scope.ofCode s.code = s := by cases s <;> rfl
@[simp] theorem Sz.ofCode_code (s : Sz) : Sz.ofCode s.code = s := by cases s <;> rfl
@[simp] theorem Epilogue.ofCode_code (e : Epilogue) : Epilogue.ofCode e.code = e := by cases e <;> rfl
@[simp] theorem CollMode.ofCode_code (m : CollMode) : CollMode.ofCode m.code = m := by cases m <;> rfl
@[simp] theorem ClassSet.ofCode_code (c : ClassSet) : ClassSet.ofCode c.code = c := by
  obtain ⟨r, w, a, e⟩ := c
  cases r <;> cases w <;> cases a <;> cases e <;> rfl
@[simp] theorem winOfCode_winCode (w : Option (BitVec 2)) : winOfCode (winCode w) = w := by
  match w with
  | none => rfl
  | some d => revert d; decide

theorem Rm.code_ne (r : Rm) (h : r = .rne) : (r.code).toNat = 0 := by subst h; rfl

/-- Opcode and guard of a slot. -/
@[simp] theorem fld_head (op : BitVec 8) (g : Guard) : fld (head op g) 0 8 = op := by
  simp only [head, fld_or, fld_put 0 op (by decide), putB]
  rw [fld_put_off 8 0 8 g.pg (by decide), fld_put_off 12 0 8 _ (by decide)]
  simp

@[simp] theorem fld_head_off (op : BitVec 8) (g : Guard) (lo n : Nat) (h : 13 ≤ lo) : fld (head op g) lo n = 0#n := by
  simp only [head, fld_or, putB]
  rw [fld_put_off 0 lo n op (by omega), fld_put_off 8 lo n g.pg (by omega), fld_put_off 12 lo n _ (by omega)]
  simp

@[simp] theorem fldB_head_off (op : BitVec 8) (g : Guard) (i : Nat) (h : 13 ≤ i) : fldB (head op g) i = false := by
  simp only [head, fldB_or, putB]
  rw [fldB_put_off 0 i op (by omega), fldB_put_off 8 i g.pg (by omega), fldB_put_off 12 i _ (by omega)]
  rfl

@[simp] theorem fld_head_pg (op : BitVec 8) (g : Guard) : fld (head op g) 8 4 = g.pg := by
  simp only [head, fld_or, putB]
  rw [fld_put_off 0 8 4 op (by decide), fld_put 8 g.pg (by decide), fld_put_off 12 8 4 _ (by decide)]
  simp

@[simp] theorem fldB_head_pn (op : BitVec 8) (g : Guard) : fldB (head op g) 12 = g.pn := by
  simp only [head, fldB_or, putB]
  rw [fldB_put_off 0 12 op (by decide), fldB_put_off 8 12 g.pg (by decide), fldB_put 12 12 _ (by decide)]
  cases g.pn <;> rfl

@[simp] theorem fld_putB_off (p lo n : Nat) (b : Bool) (h : p + 1 ≤ lo ∨ lo + n ≤ p) : fld (putB p b) lo n = 0#n :=
  fld_put_off p lo n _ h

@[simp] theorem fldB_putB_off (p i : Nat) (b : Bool) (h : p + 1 ≤ i ∨ i < p) : fldB (putB p b) i = false :=
  fldB_put_off p i _ h

@[simp] theorem fldB_putB (p : Nat) (b : Bool) (h : p < 80) : fldB (putB p b) p = b := by
  rw [putB, fldB_put p p _ ⟨Nat.le_refl _, h⟩]
  cases b <;> simp

/-- A slot whose opcode is not 0, whose fields read as the instruction's and are in range decodes to it. -/
theorem decodeSlot_of {s : SlotId} {i : Instr} (h0 : (fld (encode i) 0 8).toNat ≠ 0)
    (hr : readSlot s (encode i) = some i) (hb : slotBad s (encode i) = []) : decodeSlot s (encode i) = .instr i [] := by
  have hz : encode i ≠ 0 := fun h => h0 (by rw [h]; rfl)
  simp only [decodeSlot, hz, if_false, h0, hr, hb, BitVec.xor_self, BitVec.toNat_zero, if_true, List.append_nil]

theorem unusedPos_v1 (op : BitVec 8) (b : Nat) : unusedPos .v1 op b = unusedPos .v0 op b := by
  have h : unusedBit .v1 op = unusedBit .v0 op := rfl
  have hf : SlotId.fields .v1 = SlotId.fields .v0 := rfl
  simp only [unusedPos, h, hf]

theorem decodeSlot_v1 (raw : SlotBits) : decodeSlot .v1 raw = decodeSlot .v0 raw := by
  have h : readSlot .v1 raw = readSlot .v0 raw := rfl
  have hb : slotBad .v1 raw = slotBad .v0 raw := rfl
  have hs : fieldStart .v1 = fieldStart .v0 := rfl
  simp only [decodeSlot, h, hb, hs, unusedPos_v1]
theorem winCode_wd (w : Option (BitVec 2)) (h : (winCode w)[0] = false) : (fld (put 37 (winCode w)) 38 2).toNat = 0 := by
  rw [fld_put_in 37 38 2 _ (by decide)]
  match w with
  | none => rfl
  | some d => revert d; decide

/-! ## Bound codes (R78) -/

theorem bound_code (c : BitVec 6) : 192 ≤ (0b11#2 ++ c).toNat := by revert c; decide
theorem fld_bound_code (c : BitVec 6) : fld (put 0 (0b11#2 ++ c)) 0 6 = c := by
  rw [fld_put_in 0 0 6 _ (by decide)]; revert c; decide
theorem readSlot_bound_a (raw : SlotBits) (h : 192 ≤ (fld raw 0 8).toNat) :
    readSlot .a raw = some (.boundInstruction (readGuard raw) .a (fld raw 0 6) (fld raw 14 66)) := by
  delta readSlot; dsimp only
  generalize (fld raw 0 8).toNat = op at h
  split <;> first | omega | exact if_pos h
theorem readSlot_bound_t (raw : SlotBits) (h : 192 ≤ (fld raw 0 8).toNat) :
    readSlot .t raw = some (.boundInstruction (readGuard raw) .t (fld raw 0 6) (fld raw 14 66)) := by
  delta readSlot; dsimp only
  generalize (fld raw 0 8).toNat = op at h
  split <;> first | omega | exact if_pos h
theorem readSlot_bound_v (raw : SlotBits) (h : 192 ≤ (fld raw 0 8).toNat) :
    readSlot .v0 raw = some (.boundInstruction (readGuard raw) .v (fld raw 0 6) (fld raw 14 66)) := by
  delta readSlot; dsimp only
  generalize (fld raw 0 8).toNat = op at h
  split <;> first | omega | exact if_pos h
theorem slotBad_bound (s : SlotId) (raw : SlotBits) (h : 192 ≤ (fld raw 0 8).toNat) : slotBad s raw = [] := by
  delta slotBad; dsimp only
  generalize (fld raw 0 8).toNat = op at h
  have : ¬ op ≤ 0x1E := by omega
  cases s <;> dsimp only <;> first | rfl | (simp [this]; done) | (split <;> first | omega | rfl)

end Sys2Proof
end

