-- ==== Sys2Proof/Laws/Maps.lean ====
section
/-! SUPPORT. Laws of maps kept as rising lists: reading after writing, writing twice, and the canonical form. -/
namespace Sys2Proof.Machine

@[simp] theorem SMap.get_put {α : Type} (d : α) (m : SMap α) (k : Nat) (v : α) : (m.put k v).get d k = v := by
  induction m with
  | nil => simp [SMap.put, SMap.get]
  | cons p t ih =>
    obtain ⟨j, w⟩ := p
    simp only [SMap.put]
    split
    · simp [SMap.get]
    · split
      · simp [SMap.get]
      · simp [SMap.get, *]

theorem SMap.get_put_ne {α : Type} (d : α) (m : SMap α) {k j : Nat} (v : α) (h : j ≠ k) :
    (m.put k v).get d j = m.get d j := by
  induction m with
  | nil => simp [SMap.put, SMap.get, h]
  | cons p t ih =>
    obtain ⟨i, w⟩ := p
    simp only [SMap.put]
    split
    · simp only [SMap.get, h, if_false]
    · split
      · subst i; simp [SMap.get, h]
      · simp only [SMap.get, ih]

@[simp] theorem SMap.put_put {α : Type} (m : SMap α) (k : Nat) (v w : α) : (m.put k v).put k w = m.put k w := by
  induction m with
  | nil => simp [SMap.put]
  | cons p t ih =>
    obtain ⟨i, u⟩ := p
    simp only [SMap.put]
    split
    · simp [SMap.put]
    · split
      · simp [SMap.put]
      · simp [SMap.put, *]

@[simp] theorem SMap.find_put {α : Type} (m : SMap α) (k : Nat) (v : α) : (m.put k v).find k = some v := by
  induction m with
  | nil => simp [SMap.put, SMap.find]
  | cons p t ih =>
    obtain ⟨i, u⟩ := p
    simp only [SMap.put]
    split
    · simp [SMap.find]
    · split
      · simp [SMap.find]
      · simp [SMap.find, *]

end Sys2Proof.Machine
end

