-- ==== Sys2Proof/Laws/State.lean ====
section
/-! SUPPORT. One lemma per field per update of the state, of a core and of a context, so that no proof unfolds a record
update; and reading back what an update put. -/
namespace Sys2Proof.Machine

/-! ## Reading back -/

@[simp] theorem State.core_setCore (s : State) (n : Nat) (k : Core) : (s.setCore n k).core n = k := by
  simp [State.core, State.setCore]
theorem State.core_setCore_ne (s : State) {n m : Nat} (k : Core) (h : m ≠ n) : (s.setCore n k).core m = s.core m := by
  simp [State.core, State.setCore, SMap.get_put_ne _ _ _ h]
@[simp] theorem State.setCore_setCore (s : State) (n : Nat) (k l : Core) :
    (s.setCore n k).setCore n l = s.setCore n l := by simp [State.setCore]
@[simp] theorem Core.ctx_setCtx (k : Core) (p : Nat) (c : Ctx) : (k.setCtx p c).ctx p = c := by
  simp [Core.ctx, Core.setCtx]
theorem Core.ctx_setCtx_ne (k : Core) {p q : Nat} (c : Ctx) (h : q ≠ p) : (k.setCtx p c).ctx q = k.ctx q := by
  simp [Core.ctx, Core.setCtx, SMap.get_put_ne _ _ _ h]
@[simp] theorem Core.setCtx_setCtx (k : Core) (p : Nat) (c d : Ctx) : (k.setCtx p c).setCtx p d = k.setCtx p d := by
  simp [Core.setCtx]
@[simp] theorem State.ctx_setCtx (s : State) (n p : Nat) (c : Ctx) : (s.setCtx n p c).ctx n p = c := by
  simp [State.ctx, State.setCtx]
theorem State.ctx_setCtx_ne (s : State) (n : Nat) {p q : Nat} (c : Ctx) (h : q ≠ p) :
    (s.setCtx n p c).ctx n q = s.ctx n q := by
  simp [State.ctx, State.setCtx, Core.ctx_setCtx_ne _ _ h]
theorem State.ctx_setCore_ne (s : State) {n m : Nat} (k : Core) (p : Nat) (h : m ≠ n) :
    (s.setCore n k).ctx m p = s.ctx m p := by simp [State.ctx, State.core_setCore_ne _ _ h]
theorem State.ctx_setCtx_other (s : State) {n m : Nat} (p q : Nat) (c : Ctx) (h : m ≠ n) :
    (s.setCtx n p c).ctx m q = s.ctx m q := State.ctx_setCore_ne _ _ _ h
@[simp] theorem State.setCtx_setCtx (s : State) (n p : Nat) (c d : Ctx) :
    (s.setCtx n p c).setCtx n p d = s.setCtx n p d := by simp [State.setCtx]
@[simp] theorem State.core_setCtx (s : State) (n p : Nat) (c : Ctx) :
    (s.setCtx n p c).core n = (s.core n).setCtx p c := by simp [State.setCtx]
theorem State.ctx_setCore_plats {t : State} {n : Nat} {k : Core} (h : k.plats = (t.core n).plats) (p : Nat) :
    (t.setCore n k).ctx n p = t.ctx n p := by simp [State.ctx, Core.ctx, h]
@[simp] theorem State.cluster_setCluster (s : State) (n : Nat) (c : Cluster) : (s.setCluster n c).cluster n = c := by
  simp [State.cluster, State.setCluster]
@[simp] theorem State.die_setDie (s : State) (n : Nat) (d : Die) : (s.setDie n d).die n = d := by
  simp [State.die, State.setDie]
@[simp] theorem State.partition_setPartition (s : State) (n : Nat) (p : Partition) :
    (s.setPartition n p).partition n = p := by simp [State.partition, State.setPartition]

/-! ## Fields of the state that an update leaves -/

@[simp] theorem State.setCore_now (s : State) (n : Nat) (k : Core) : (s.setCore n k).now = s.now := rfl
@[simp] theorem State.setCore_oracle (s : State) (n : Nat) (k : Core) : (s.setCore n k).oracle = s.oracle := rfl
@[simp] theorem State.setCore_focus (s : State) (n : Nat) (k : Core) : (s.setCore n k).focus = s.focus := rfl
@[simp] theorem State.setCore_chosen (s : State) (n : Nat) (k : Core) : (s.setCore n k).chosen = s.chosen := rfl
@[simp] theorem State.setCore_mem (s : State) (n : Nat) (k : Core) : (s.setCore n k).mem = s.mem := rfl
@[simp] theorem State.setCore_form (s : State) (n : Nat) (k : Core) : (s.setCore n k).form = s.form := rfl
@[simp] theorem State.setCore_poisoned (s : State) (n : Nat) (k : Core) : (s.setCore n k).poisoned = s.poisoned := rfl
@[simp] theorem State.setCore_uncorrectable (s : State) (n : Nat) (k : Core) : (s.setCore n k).uncorrectable = s.uncorrectable := rfl
@[simp] theorem State.setCore_clusters (s : State) (n : Nat) (k : Core) : (s.setCore n k).clusters = s.clusters := rfl
@[simp] theorem State.setCore_dies (s : State) (n : Nat) (k : Core) : (s.setCore n k).dies = s.dies := rfl
@[simp] theorem State.setCore_partitions (s : State) (n : Nat) (k : Core) : (s.setCore n k).partitions = s.partitions := rfl
@[simp] theorem State.setCore_arrivals (s : State) (n : Nat) (k : Core) : (s.setCore n k).arrivals = s.arrivals := rfl
@[simp] theorem State.setCore_reports (s : State) (n : Nat) (k : Core) : (s.setCore n k).reports = s.reports := rfl
@[simp] theorem State.setCore_joins (s : State) (n : Nat) (k : Core) : (s.setCore n k).joins = s.joins := rfl
@[simp] theorem State.setCore_collectives (s : State) (n : Nat) (k : Core) : (s.setCore n k).collectives = s.collectives := rfl
@[simp] theorem State.setCore_queues (s : State) (n : Nat) (k : Core) : (s.setCore n k).queues = s.queues := rfl
@[simp] theorem State.setCore_launches (s : State) (n : Nat) (k : Core) : (s.setCore n k).launches = s.launches := rfl
@[simp] theorem State.setCore_commands (s : State) (n : Nat) (k : Core) : (s.setCore n k).commands = s.commands := rfl
@[simp] theorem State.setCore_nextId (s : State) (n : Nat) (k : Core) : (s.setCore n k).nextId = s.nextId := rfl
@[simp] theorem State.setCore_remap (s : State) (n : Nat) (k : Core) : (s.setCore n k).remap = s.remap := rfl
@[simp] theorem State.setCore_filters (s : State) (n : Nat) (k : Core) : (s.setCore n k).filters = s.filters := rfl
@[simp] theorem State.setCore_bounces (s : State) (n : Nat) (k : Core) : (s.setCore n k).bounces = s.bounces := rfl
@[simp] theorem State.setCore_tablets (s : State) (n : Nat) (k : Core) : (s.setCore n k).tablets = s.tablets := rfl
@[simp] theorem State.setCore_fullSince (s : State) (n : Nat) (k : Core) : (s.setCore n k).fullSince = s.fullSince := rfl
@[simp] theorem State.setCore_keys (s : State) (n : Nat) (k : Core) : (s.setCore n k).keys = s.keys := rfl
@[simp] theorem State.setCore_hub (s : State) (n : Nat) (k : Core) : (s.setCore n k).hub = s.hub := rfl
@[simp] theorem State.setCore_functions (s : State) (n : Nat) (k : Core) : (s.setCore n k).functions = s.functions := rfl
@[simp] theorem State.setCore_resetting (s : State) (n : Nat) (k : Core) : (s.setCore n k).resetting = s.resetting := rfl
@[simp] theorem State.setCore_removing (s : State) (n : Nat) (k : Core) : (s.setCore n k).removing = s.removing := rfl
@[simp] theorem State.setCore_carried (s : State) (n : Nat) (k : Core) : (s.setCore n k).carried = s.carried := rfl
@[simp] theorem State.setCore_requested (s : State) (n : Nat) (k : Core) : (s.setCore n k).requested = s.requested := rfl
@[simp] theorem State.setCore_sent (s : State) (n : Nat) (k : Core) : (s.setCore n k).sent = s.sent := rfl
@[simp] theorem State.setCore_irqs (s : State) (n : Nat) (k : Core) : (s.setCore n k).irqs = s.irqs := rfl
@[simp] theorem State.setCore_answers (s : State) (n : Nat) (k : Core) : (s.setCore n k).answers = s.answers := rfl
@[simp] theorem State.setCore_images (s : State) (n : Nat) (k : Core) : (s.setCore n k).images = s.images := rfl
@[simp] theorem State.setCore_inputs (s : State) (n : Nat) (k : Core) : (s.setCore n k).inputs = s.inputs := rfl

@[simp] theorem State.setCtx_now (s : State) (n p : Nat) (c : Ctx) : (s.setCtx n p c).now = s.now := rfl
@[simp] theorem State.setCtx_oracle (s : State) (n p : Nat) (c : Ctx) : (s.setCtx n p c).oracle = s.oracle := rfl
@[simp] theorem State.setCtx_focus (s : State) (n p : Nat) (c : Ctx) : (s.setCtx n p c).focus = s.focus := rfl
@[simp] theorem State.setCtx_chosen (s : State) (n p : Nat) (c : Ctx) : (s.setCtx n p c).chosen = s.chosen := rfl
@[simp] theorem State.setCtx_mem (s : State) (n p : Nat) (c : Ctx) : (s.setCtx n p c).mem = s.mem := rfl
@[simp] theorem State.setCtx_form (s : State) (n p : Nat) (c : Ctx) : (s.setCtx n p c).form = s.form := rfl
@[simp] theorem State.setCtx_poisoned (s : State) (n p : Nat) (c : Ctx) : (s.setCtx n p c).poisoned = s.poisoned := rfl
@[simp] theorem State.setCtx_uncorrectable (s : State) (n p : Nat) (c : Ctx) : (s.setCtx n p c).uncorrectable = s.uncorrectable := rfl
@[simp] theorem State.setCtx_clusters (s : State) (n p : Nat) (c : Ctx) : (s.setCtx n p c).clusters = s.clusters := rfl
@[simp] theorem State.setCtx_dies (s : State) (n p : Nat) (c : Ctx) : (s.setCtx n p c).dies = s.dies := rfl
@[simp] theorem State.setCtx_partitions (s : State) (n p : Nat) (c : Ctx) : (s.setCtx n p c).partitions = s.partitions := rfl
@[simp] theorem State.setCtx_arrivals (s : State) (n p : Nat) (c : Ctx) : (s.setCtx n p c).arrivals = s.arrivals := rfl
@[simp] theorem State.setCtx_reports (s : State) (n p : Nat) (c : Ctx) : (s.setCtx n p c).reports = s.reports := rfl
@[simp] theorem State.setCtx_joins (s : State) (n p : Nat) (c : Ctx) : (s.setCtx n p c).joins = s.joins := rfl
@[simp] theorem State.setCtx_collectives (s : State) (n p : Nat) (c : Ctx) : (s.setCtx n p c).collectives = s.collectives := rfl
@[simp] theorem State.setCtx_queues (s : State) (n p : Nat) (c : Ctx) : (s.setCtx n p c).queues = s.queues := rfl
@[simp] theorem State.setCtx_launches (s : State) (n p : Nat) (c : Ctx) : (s.setCtx n p c).launches = s.launches := rfl
@[simp] theorem State.setCtx_commands (s : State) (n p : Nat) (c : Ctx) : (s.setCtx n p c).commands = s.commands := rfl
@[simp] theorem State.setCtx_nextId (s : State) (n p : Nat) (c : Ctx) : (s.setCtx n p c).nextId = s.nextId := rfl
@[simp] theorem State.setCtx_remap (s : State) (n p : Nat) (c : Ctx) : (s.setCtx n p c).remap = s.remap := rfl
@[simp] theorem State.setCtx_filters (s : State) (n p : Nat) (c : Ctx) : (s.setCtx n p c).filters = s.filters := rfl
@[simp] theorem State.setCtx_bounces (s : State) (n p : Nat) (c : Ctx) : (s.setCtx n p c).bounces = s.bounces := rfl
@[simp] theorem State.setCtx_tablets (s : State) (n p : Nat) (c : Ctx) : (s.setCtx n p c).tablets = s.tablets := rfl
@[simp] theorem State.setCtx_fullSince (s : State) (n p : Nat) (c : Ctx) : (s.setCtx n p c).fullSince = s.fullSince := rfl
@[simp] theorem State.setCtx_keys (s : State) (n p : Nat) (c : Ctx) : (s.setCtx n p c).keys = s.keys := rfl
@[simp] theorem State.setCtx_hub (s : State) (n p : Nat) (c : Ctx) : (s.setCtx n p c).hub = s.hub := rfl
@[simp] theorem State.setCtx_functions (s : State) (n p : Nat) (c : Ctx) : (s.setCtx n p c).functions = s.functions := rfl
@[simp] theorem State.setCtx_resetting (s : State) (n p : Nat) (c : Ctx) : (s.setCtx n p c).resetting = s.resetting := rfl
@[simp] theorem State.setCtx_removing (s : State) (n p : Nat) (c : Ctx) : (s.setCtx n p c).removing = s.removing := rfl
@[simp] theorem State.setCtx_carried (s : State) (n p : Nat) (c : Ctx) : (s.setCtx n p c).carried = s.carried := rfl
@[simp] theorem State.setCtx_requested (s : State) (n p : Nat) (c : Ctx) : (s.setCtx n p c).requested = s.requested := rfl
@[simp] theorem State.setCtx_sent (s : State) (n p : Nat) (c : Ctx) : (s.setCtx n p c).sent = s.sent := rfl
@[simp] theorem State.setCtx_irqs (s : State) (n p : Nat) (c : Ctx) : (s.setCtx n p c).irqs = s.irqs := rfl
@[simp] theorem State.setCtx_answers (s : State) (n p : Nat) (c : Ctx) : (s.setCtx n p c).answers = s.answers := rfl
@[simp] theorem State.setCtx_images (s : State) (n p : Nat) (c : Ctx) : (s.setCtx n p c).images = s.images := rfl
@[simp] theorem State.setCtx_inputs (s : State) (n p : Nat) (c : Ctx) : (s.setCtx n p c).inputs = s.inputs := rfl

@[simp] theorem State.setCluster_now (s : State) (n : Nat) (c : Cluster) : (s.setCluster n c).now = s.now := rfl
@[simp] theorem State.setCluster_oracle (s : State) (n : Nat) (c : Cluster) : (s.setCluster n c).oracle = s.oracle := rfl
@[simp] theorem State.setCluster_focus (s : State) (n : Nat) (c : Cluster) : (s.setCluster n c).focus = s.focus := rfl
@[simp] theorem State.setCluster_chosen (s : State) (n : Nat) (c : Cluster) : (s.setCluster n c).chosen = s.chosen := rfl
@[simp] theorem State.setCluster_mem (s : State) (n : Nat) (c : Cluster) : (s.setCluster n c).mem = s.mem := rfl
@[simp] theorem State.setCluster_form (s : State) (n : Nat) (c : Cluster) : (s.setCluster n c).form = s.form := rfl
@[simp] theorem State.setCluster_poisoned (s : State) (n : Nat) (c : Cluster) : (s.setCluster n c).poisoned = s.poisoned := rfl
@[simp] theorem State.setCluster_uncorrectable (s : State) (n : Nat) (c : Cluster) : (s.setCluster n c).uncorrectable = s.uncorrectable := rfl
@[simp] theorem State.setCluster_cores (s : State) (n : Nat) (c : Cluster) : (s.setCluster n c).cores = s.cores := rfl
@[simp] theorem State.setCluster_dies (s : State) (n : Nat) (c : Cluster) : (s.setCluster n c).dies = s.dies := rfl
@[simp] theorem State.setCluster_partitions (s : State) (n : Nat) (c : Cluster) : (s.setCluster n c).partitions = s.partitions := rfl
@[simp] theorem State.setCluster_arrivals (s : State) (n : Nat) (c : Cluster) : (s.setCluster n c).arrivals = s.arrivals := rfl
@[simp] theorem State.setCluster_reports (s : State) (n : Nat) (c : Cluster) : (s.setCluster n c).reports = s.reports := rfl
@[simp] theorem State.setCluster_joins (s : State) (n : Nat) (c : Cluster) : (s.setCluster n c).joins = s.joins := rfl
@[simp] theorem State.setCluster_collectives (s : State) (n : Nat) (c : Cluster) : (s.setCluster n c).collectives = s.collectives := rfl
@[simp] theorem State.setCluster_queues (s : State) (n : Nat) (c : Cluster) : (s.setCluster n c).queues = s.queues := rfl
@[simp] theorem State.setCluster_launches (s : State) (n : Nat) (c : Cluster) : (s.setCluster n c).launches = s.launches := rfl
@[simp] theorem State.setCluster_commands (s : State) (n : Nat) (c : Cluster) : (s.setCluster n c).commands = s.commands := rfl
@[simp] theorem State.setCluster_nextId (s : State) (n : Nat) (c : Cluster) : (s.setCluster n c).nextId = s.nextId := rfl
@[simp] theorem State.setCluster_remap (s : State) (n : Nat) (c : Cluster) : (s.setCluster n c).remap = s.remap := rfl
@[simp] theorem State.setCluster_filters (s : State) (n : Nat) (c : Cluster) : (s.setCluster n c).filters = s.filters := rfl
@[simp] theorem State.setCluster_bounces (s : State) (n : Nat) (c : Cluster) : (s.setCluster n c).bounces = s.bounces := rfl
@[simp] theorem State.setCluster_tablets (s : State) (n : Nat) (c : Cluster) : (s.setCluster n c).tablets = s.tablets := rfl
@[simp] theorem State.setCluster_fullSince (s : State) (n : Nat) (c : Cluster) : (s.setCluster n c).fullSince = s.fullSince := rfl
@[simp] theorem State.setCluster_keys (s : State) (n : Nat) (c : Cluster) : (s.setCluster n c).keys = s.keys := rfl
@[simp] theorem State.setCluster_hub (s : State) (n : Nat) (c : Cluster) : (s.setCluster n c).hub = s.hub := rfl
@[simp] theorem State.setCluster_functions (s : State) (n : Nat) (c : Cluster) : (s.setCluster n c).functions = s.functions := rfl
@[simp] theorem State.setCluster_resetting (s : State) (n : Nat) (c : Cluster) : (s.setCluster n c).resetting = s.resetting := rfl
@[simp] theorem State.setCluster_removing (s : State) (n : Nat) (c : Cluster) : (s.setCluster n c).removing = s.removing := rfl
@[simp] theorem State.setCluster_carried (s : State) (n : Nat) (c : Cluster) : (s.setCluster n c).carried = s.carried := rfl
@[simp] theorem State.setCluster_requested (s : State) (n : Nat) (c : Cluster) : (s.setCluster n c).requested = s.requested := rfl
@[simp] theorem State.setCluster_sent (s : State) (n : Nat) (c : Cluster) : (s.setCluster n c).sent = s.sent := rfl
@[simp] theorem State.setCluster_irqs (s : State) (n : Nat) (c : Cluster) : (s.setCluster n c).irqs = s.irqs := rfl
@[simp] theorem State.setCluster_answers (s : State) (n : Nat) (c : Cluster) : (s.setCluster n c).answers = s.answers := rfl
@[simp] theorem State.setCluster_images (s : State) (n : Nat) (c : Cluster) : (s.setCluster n c).images = s.images := rfl
@[simp] theorem State.setCluster_inputs (s : State) (n : Nat) (c : Cluster) : (s.setCluster n c).inputs = s.inputs := rfl

@[simp] theorem State.setDie_now (s : State) (n : Nat) (d : Die) : (s.setDie n d).now = s.now := rfl
@[simp] theorem State.setDie_oracle (s : State) (n : Nat) (d : Die) : (s.setDie n d).oracle = s.oracle := rfl
@[simp] theorem State.setDie_focus (s : State) (n : Nat) (d : Die) : (s.setDie n d).focus = s.focus := rfl
@[simp] theorem State.setDie_chosen (s : State) (n : Nat) (d : Die) : (s.setDie n d).chosen = s.chosen := rfl
@[simp] theorem State.setDie_mem (s : State) (n : Nat) (d : Die) : (s.setDie n d).mem = s.mem := rfl
@[simp] theorem State.setDie_form (s : State) (n : Nat) (d : Die) : (s.setDie n d).form = s.form := rfl
@[simp] theorem State.setDie_poisoned (s : State) (n : Nat) (d : Die) : (s.setDie n d).poisoned = s.poisoned := rfl
@[simp] theorem State.setDie_uncorrectable (s : State) (n : Nat) (d : Die) : (s.setDie n d).uncorrectable = s.uncorrectable := rfl
@[simp] theorem State.setDie_cores (s : State) (n : Nat) (d : Die) : (s.setDie n d).cores = s.cores := rfl
@[simp] theorem State.setDie_clusters (s : State) (n : Nat) (d : Die) : (s.setDie n d).clusters = s.clusters := rfl
@[simp] theorem State.setDie_partitions (s : State) (n : Nat) (d : Die) : (s.setDie n d).partitions = s.partitions := rfl
@[simp] theorem State.setDie_arrivals (s : State) (n : Nat) (d : Die) : (s.setDie n d).arrivals = s.arrivals := rfl
@[simp] theorem State.setDie_reports (s : State) (n : Nat) (d : Die) : (s.setDie n d).reports = s.reports := rfl
@[simp] theorem State.setDie_joins (s : State) (n : Nat) (d : Die) : (s.setDie n d).joins = s.joins := rfl
@[simp] theorem State.setDie_collectives (s : State) (n : Nat) (d : Die) : (s.setDie n d).collectives = s.collectives := rfl
@[simp] theorem State.setDie_queues (s : State) (n : Nat) (d : Die) : (s.setDie n d).queues = s.queues := rfl
@[simp] theorem State.setDie_launches (s : State) (n : Nat) (d : Die) : (s.setDie n d).launches = s.launches := rfl
@[simp] theorem State.setDie_commands (s : State) (n : Nat) (d : Die) : (s.setDie n d).commands = s.commands := rfl
@[simp] theorem State.setDie_nextId (s : State) (n : Nat) (d : Die) : (s.setDie n d).nextId = s.nextId := rfl
@[simp] theorem State.setDie_remap (s : State) (n : Nat) (d : Die) : (s.setDie n d).remap = s.remap := rfl
@[simp] theorem State.setDie_filters (s : State) (n : Nat) (d : Die) : (s.setDie n d).filters = s.filters := rfl
@[simp] theorem State.setDie_bounces (s : State) (n : Nat) (d : Die) : (s.setDie n d).bounces = s.bounces := rfl
@[simp] theorem State.setDie_tablets (s : State) (n : Nat) (d : Die) : (s.setDie n d).tablets = s.tablets := rfl
@[simp] theorem State.setDie_fullSince (s : State) (n : Nat) (d : Die) : (s.setDie n d).fullSince = s.fullSince := rfl
@[simp] theorem State.setDie_keys (s : State) (n : Nat) (d : Die) : (s.setDie n d).keys = s.keys := rfl
@[simp] theorem State.setDie_hub (s : State) (n : Nat) (d : Die) : (s.setDie n d).hub = s.hub := rfl
@[simp] theorem State.setDie_functions (s : State) (n : Nat) (d : Die) : (s.setDie n d).functions = s.functions := rfl
@[simp] theorem State.setDie_resetting (s : State) (n : Nat) (d : Die) : (s.setDie n d).resetting = s.resetting := rfl
@[simp] theorem State.setDie_removing (s : State) (n : Nat) (d : Die) : (s.setDie n d).removing = s.removing := rfl
@[simp] theorem State.setDie_carried (s : State) (n : Nat) (d : Die) : (s.setDie n d).carried = s.carried := rfl
@[simp] theorem State.setDie_requested (s : State) (n : Nat) (d : Die) : (s.setDie n d).requested = s.requested := rfl
@[simp] theorem State.setDie_sent (s : State) (n : Nat) (d : Die) : (s.setDie n d).sent = s.sent := rfl
@[simp] theorem State.setDie_irqs (s : State) (n : Nat) (d : Die) : (s.setDie n d).irqs = s.irqs := rfl
@[simp] theorem State.setDie_answers (s : State) (n : Nat) (d : Die) : (s.setDie n d).answers = s.answers := rfl
@[simp] theorem State.setDie_images (s : State) (n : Nat) (d : Die) : (s.setDie n d).images = s.images := rfl
@[simp] theorem State.setDie_inputs (s : State) (n : Nat) (d : Die) : (s.setDie n d).inputs = s.inputs := rfl

@[simp] theorem State.setPartition_now (s : State) (n : Nat) (q : Partition) : (s.setPartition n q).now = s.now := rfl
@[simp] theorem State.setPartition_oracle (s : State) (n : Nat) (q : Partition) : (s.setPartition n q).oracle = s.oracle := rfl
@[simp] theorem State.setPartition_focus (s : State) (n : Nat) (q : Partition) : (s.setPartition n q).focus = s.focus := rfl
@[simp] theorem State.setPartition_chosen (s : State) (n : Nat) (q : Partition) : (s.setPartition n q).chosen = s.chosen := rfl
@[simp] theorem State.setPartition_mem (s : State) (n : Nat) (q : Partition) : (s.setPartition n q).mem = s.mem := rfl
@[simp] theorem State.setPartition_form (s : State) (n : Nat) (q : Partition) : (s.setPartition n q).form = s.form := rfl
@[simp] theorem State.setPartition_poisoned (s : State) (n : Nat) (q : Partition) : (s.setPartition n q).poisoned = s.poisoned := rfl
@[simp] theorem State.setPartition_uncorrectable (s : State) (n : Nat) (q : Partition) : (s.setPartition n q).uncorrectable = s.uncorrectable := rfl
@[simp] theorem State.setPartition_cores (s : State) (n : Nat) (q : Partition) : (s.setPartition n q).cores = s.cores := rfl
@[simp] theorem State.setPartition_clusters (s : State) (n : Nat) (q : Partition) : (s.setPartition n q).clusters = s.clusters := rfl
@[simp] theorem State.setPartition_dies (s : State) (n : Nat) (q : Partition) : (s.setPartition n q).dies = s.dies := rfl
@[simp] theorem State.setPartition_arrivals (s : State) (n : Nat) (q : Partition) : (s.setPartition n q).arrivals = s.arrivals := rfl
@[simp] theorem State.setPartition_reports (s : State) (n : Nat) (q : Partition) : (s.setPartition n q).reports = s.reports := rfl
@[simp] theorem State.setPartition_joins (s : State) (n : Nat) (q : Partition) : (s.setPartition n q).joins = s.joins := rfl
@[simp] theorem State.setPartition_collectives (s : State) (n : Nat) (q : Partition) : (s.setPartition n q).collectives = s.collectives := rfl
@[simp] theorem State.setPartition_queues (s : State) (n : Nat) (q : Partition) : (s.setPartition n q).queues = s.queues := rfl
@[simp] theorem State.setPartition_launches (s : State) (n : Nat) (q : Partition) : (s.setPartition n q).launches = s.launches := rfl
@[simp] theorem State.setPartition_commands (s : State) (n : Nat) (q : Partition) : (s.setPartition n q).commands = s.commands := rfl
@[simp] theorem State.setPartition_nextId (s : State) (n : Nat) (q : Partition) : (s.setPartition n q).nextId = s.nextId := rfl
@[simp] theorem State.setPartition_remap (s : State) (n : Nat) (q : Partition) : (s.setPartition n q).remap = s.remap := rfl
@[simp] theorem State.setPartition_filters (s : State) (n : Nat) (q : Partition) : (s.setPartition n q).filters = s.filters := rfl
@[simp] theorem State.setPartition_bounces (s : State) (n : Nat) (q : Partition) : (s.setPartition n q).bounces = s.bounces := rfl
@[simp] theorem State.setPartition_tablets (s : State) (n : Nat) (q : Partition) : (s.setPartition n q).tablets = s.tablets := rfl
@[simp] theorem State.setPartition_fullSince (s : State) (n : Nat) (q : Partition) : (s.setPartition n q).fullSince = s.fullSince := rfl
@[simp] theorem State.setPartition_keys (s : State) (n : Nat) (q : Partition) : (s.setPartition n q).keys = s.keys := rfl
@[simp] theorem State.setPartition_hub (s : State) (n : Nat) (q : Partition) : (s.setPartition n q).hub = s.hub := rfl
@[simp] theorem State.setPartition_functions (s : State) (n : Nat) (q : Partition) : (s.setPartition n q).functions = s.functions := rfl
@[simp] theorem State.setPartition_resetting (s : State) (n : Nat) (q : Partition) : (s.setPartition n q).resetting = s.resetting := rfl
@[simp] theorem State.setPartition_removing (s : State) (n : Nat) (q : Partition) : (s.setPartition n q).removing = s.removing := rfl
@[simp] theorem State.setPartition_carried (s : State) (n : Nat) (q : Partition) : (s.setPartition n q).carried = s.carried := rfl
@[simp] theorem State.setPartition_requested (s : State) (n : Nat) (q : Partition) : (s.setPartition n q).requested = s.requested := rfl
@[simp] theorem State.setPartition_sent (s : State) (n : Nat) (q : Partition) : (s.setPartition n q).sent = s.sent := rfl
@[simp] theorem State.setPartition_irqs (s : State) (n : Nat) (q : Partition) : (s.setPartition n q).irqs = s.irqs := rfl
@[simp] theorem State.setPartition_answers (s : State) (n : Nat) (q : Partition) : (s.setPartition n q).answers = s.answers := rfl
@[simp] theorem State.setPartition_images (s : State) (n : Nat) (q : Partition) : (s.setPartition n q).images = s.images := rfl
@[simp] theorem State.setPartition_inputs (s : State) (n : Nat) (q : Partition) : (s.setPartition n q).inputs = s.inputs := rfl

@[simp] theorem State.store_now (s : State) (p : Nat) (bs : List Byte) : (s.store p bs).now = s.now := rfl
@[simp] theorem State.store_oracle (s : State) (p : Nat) (bs : List Byte) : (s.store p bs).oracle = s.oracle := rfl
@[simp] theorem State.store_focus (s : State) (p : Nat) (bs : List Byte) : (s.store p bs).focus = s.focus := rfl
@[simp] theorem State.store_chosen (s : State) (p : Nat) (bs : List Byte) : (s.store p bs).chosen = s.chosen := rfl
@[simp] theorem State.store_cores (s : State) (p : Nat) (bs : List Byte) : (s.store p bs).cores = s.cores := rfl
@[simp] theorem State.store_clusters (s : State) (p : Nat) (bs : List Byte) : (s.store p bs).clusters = s.clusters := rfl
@[simp] theorem State.store_dies (s : State) (p : Nat) (bs : List Byte) : (s.store p bs).dies = s.dies := rfl
@[simp] theorem State.store_partitions (s : State) (p : Nat) (bs : List Byte) : (s.store p bs).partitions = s.partitions := rfl
@[simp] theorem State.store_arrivals (s : State) (p : Nat) (bs : List Byte) : (s.store p bs).arrivals = s.arrivals := rfl
@[simp] theorem State.store_reports (s : State) (p : Nat) (bs : List Byte) : (s.store p bs).reports = s.reports := rfl
@[simp] theorem State.store_joins (s : State) (p : Nat) (bs : List Byte) : (s.store p bs).joins = s.joins := rfl
@[simp] theorem State.store_collectives (s : State) (p : Nat) (bs : List Byte) : (s.store p bs).collectives = s.collectives := rfl
@[simp] theorem State.store_queues (s : State) (p : Nat) (bs : List Byte) : (s.store p bs).queues = s.queues := rfl
@[simp] theorem State.store_launches (s : State) (p : Nat) (bs : List Byte) : (s.store p bs).launches = s.launches := rfl
@[simp] theorem State.store_commands (s : State) (p : Nat) (bs : List Byte) : (s.store p bs).commands = s.commands := rfl
@[simp] theorem State.store_nextId (s : State) (p : Nat) (bs : List Byte) : (s.store p bs).nextId = s.nextId := rfl
@[simp] theorem State.store_remap (s : State) (p : Nat) (bs : List Byte) : (s.store p bs).remap = s.remap := rfl
@[simp] theorem State.store_filters (s : State) (p : Nat) (bs : List Byte) : (s.store p bs).filters = s.filters := rfl
@[simp] theorem State.store_bounces (s : State) (p : Nat) (bs : List Byte) : (s.store p bs).bounces = s.bounces := rfl
@[simp] theorem State.store_tablets (s : State) (p : Nat) (bs : List Byte) : (s.store p bs).tablets = s.tablets := rfl
@[simp] theorem State.store_fullSince (s : State) (p : Nat) (bs : List Byte) : (s.store p bs).fullSince = s.fullSince := rfl
@[simp] theorem State.store_keys (s : State) (p : Nat) (bs : List Byte) : (s.store p bs).keys = s.keys := rfl
@[simp] theorem State.store_hub (s : State) (p : Nat) (bs : List Byte) : (s.store p bs).hub = s.hub := rfl
@[simp] theorem State.store_functions (s : State) (p : Nat) (bs : List Byte) : (s.store p bs).functions = s.functions := rfl
@[simp] theorem State.store_resetting (s : State) (p : Nat) (bs : List Byte) : (s.store p bs).resetting = s.resetting := rfl
@[simp] theorem State.store_removing (s : State) (p : Nat) (bs : List Byte) : (s.store p bs).removing = s.removing := rfl
@[simp] theorem State.store_carried (s : State) (p : Nat) (bs : List Byte) : (s.store p bs).carried = s.carried := rfl
@[simp] theorem State.store_requested (s : State) (p : Nat) (bs : List Byte) : (s.store p bs).requested = s.requested := rfl
@[simp] theorem State.store_sent (s : State) (p : Nat) (bs : List Byte) : (s.store p bs).sent = s.sent := rfl
@[simp] theorem State.store_irqs (s : State) (p : Nat) (bs : List Byte) : (s.store p bs).irqs = s.irqs := rfl
@[simp] theorem State.store_answers (s : State) (p : Nat) (bs : List Byte) : (s.store p bs).answers = s.answers := rfl
@[simp] theorem State.store_images (s : State) (p : Nat) (bs : List Byte) : (s.store p bs).images = s.images := rfl
@[simp] theorem State.store_inputs (s : State) (p : Nat) (bs : List Byte) : (s.store p bs).inputs = s.inputs := rfl

@[simp] theorem State.setForm_now (s : State) (l : Nat) (b : Bool) : (s.setForm l b).now = s.now := rfl
@[simp] theorem State.setForm_oracle (s : State) (l : Nat) (b : Bool) : (s.setForm l b).oracle = s.oracle := rfl
@[simp] theorem State.setForm_focus (s : State) (l : Nat) (b : Bool) : (s.setForm l b).focus = s.focus := rfl
@[simp] theorem State.setForm_chosen (s : State) (l : Nat) (b : Bool) : (s.setForm l b).chosen = s.chosen := rfl
@[simp] theorem State.setForm_mem (s : State) (l : Nat) (b : Bool) : (s.setForm l b).mem = s.mem := rfl
@[simp] theorem State.setForm_poisoned (s : State) (l : Nat) (b : Bool) : (s.setForm l b).poisoned = s.poisoned := rfl
@[simp] theorem State.setForm_uncorrectable (s : State) (l : Nat) (b : Bool) : (s.setForm l b).uncorrectable = s.uncorrectable := rfl
@[simp] theorem State.setForm_cores (s : State) (l : Nat) (b : Bool) : (s.setForm l b).cores = s.cores := rfl
@[simp] theorem State.setForm_clusters (s : State) (l : Nat) (b : Bool) : (s.setForm l b).clusters = s.clusters := rfl
@[simp] theorem State.setForm_dies (s : State) (l : Nat) (b : Bool) : (s.setForm l b).dies = s.dies := rfl
@[simp] theorem State.setForm_partitions (s : State) (l : Nat) (b : Bool) : (s.setForm l b).partitions = s.partitions := rfl
@[simp] theorem State.setForm_arrivals (s : State) (l : Nat) (b : Bool) : (s.setForm l b).arrivals = s.arrivals := rfl
@[simp] theorem State.setForm_reports (s : State) (l : Nat) (b : Bool) : (s.setForm l b).reports = s.reports := rfl
@[simp] theorem State.setForm_joins (s : State) (l : Nat) (b : Bool) : (s.setForm l b).joins = s.joins := rfl
@[simp] theorem State.setForm_collectives (s : State) (l : Nat) (b : Bool) : (s.setForm l b).collectives = s.collectives := rfl
@[simp] theorem State.setForm_queues (s : State) (l : Nat) (b : Bool) : (s.setForm l b).queues = s.queues := rfl
@[simp] theorem State.setForm_launches (s : State) (l : Nat) (b : Bool) : (s.setForm l b).launches = s.launches := rfl
@[simp] theorem State.setForm_commands (s : State) (l : Nat) (b : Bool) : (s.setForm l b).commands = s.commands := rfl
@[simp] theorem State.setForm_nextId (s : State) (l : Nat) (b : Bool) : (s.setForm l b).nextId = s.nextId := rfl
@[simp] theorem State.setForm_remap (s : State) (l : Nat) (b : Bool) : (s.setForm l b).remap = s.remap := rfl
@[simp] theorem State.setForm_filters (s : State) (l : Nat) (b : Bool) : (s.setForm l b).filters = s.filters := rfl
@[simp] theorem State.setForm_bounces (s : State) (l : Nat) (b : Bool) : (s.setForm l b).bounces = s.bounces := rfl
@[simp] theorem State.setForm_tablets (s : State) (l : Nat) (b : Bool) : (s.setForm l b).tablets = s.tablets := rfl
@[simp] theorem State.setForm_fullSince (s : State) (l : Nat) (b : Bool) : (s.setForm l b).fullSince = s.fullSince := rfl
@[simp] theorem State.setForm_keys (s : State) (l : Nat) (b : Bool) : (s.setForm l b).keys = s.keys := rfl
@[simp] theorem State.setForm_hub (s : State) (l : Nat) (b : Bool) : (s.setForm l b).hub = s.hub := rfl
@[simp] theorem State.setForm_functions (s : State) (l : Nat) (b : Bool) : (s.setForm l b).functions = s.functions := rfl
@[simp] theorem State.setForm_resetting (s : State) (l : Nat) (b : Bool) : (s.setForm l b).resetting = s.resetting := rfl
@[simp] theorem State.setForm_removing (s : State) (l : Nat) (b : Bool) : (s.setForm l b).removing = s.removing := rfl
@[simp] theorem State.setForm_carried (s : State) (l : Nat) (b : Bool) : (s.setForm l b).carried = s.carried := rfl
@[simp] theorem State.setForm_requested (s : State) (l : Nat) (b : Bool) : (s.setForm l b).requested = s.requested := rfl
@[simp] theorem State.setForm_sent (s : State) (l : Nat) (b : Bool) : (s.setForm l b).sent = s.sent := rfl
@[simp] theorem State.setForm_irqs (s : State) (l : Nat) (b : Bool) : (s.setForm l b).irqs = s.irqs := rfl
@[simp] theorem State.setForm_answers (s : State) (l : Nat) (b : Bool) : (s.setForm l b).answers = s.answers := rfl
@[simp] theorem State.setForm_images (s : State) (l : Nat) (b : Bool) : (s.setForm l b).images = s.images := rfl
@[simp] theorem State.setForm_inputs (s : State) (l : Nat) (b : Bool) : (s.setForm l b).inputs = s.inputs := rfl

@[simp] theorem State.poisonLine_now (s : State) (l : Nat) : (s.poisonLine l).now = s.now := rfl
@[simp] theorem State.poisonLine_oracle (s : State) (l : Nat) : (s.poisonLine l).oracle = s.oracle := rfl
@[simp] theorem State.poisonLine_focus (s : State) (l : Nat) : (s.poisonLine l).focus = s.focus := rfl
@[simp] theorem State.poisonLine_chosen (s : State) (l : Nat) : (s.poisonLine l).chosen = s.chosen := rfl
@[simp] theorem State.poisonLine_mem (s : State) (l : Nat) : (s.poisonLine l).mem = s.mem := rfl
@[simp] theorem State.poisonLine_form (s : State) (l : Nat) : (s.poisonLine l).form = s.form := rfl
@[simp] theorem State.poisonLine_uncorrectable (s : State) (l : Nat) : (s.poisonLine l).uncorrectable = s.uncorrectable := rfl
@[simp] theorem State.poisonLine_cores (s : State) (l : Nat) : (s.poisonLine l).cores = s.cores := rfl
@[simp] theorem State.poisonLine_clusters (s : State) (l : Nat) : (s.poisonLine l).clusters = s.clusters := rfl
@[simp] theorem State.poisonLine_dies (s : State) (l : Nat) : (s.poisonLine l).dies = s.dies := rfl
@[simp] theorem State.poisonLine_partitions (s : State) (l : Nat) : (s.poisonLine l).partitions = s.partitions := rfl
@[simp] theorem State.poisonLine_arrivals (s : State) (l : Nat) : (s.poisonLine l).arrivals = s.arrivals := rfl
@[simp] theorem State.poisonLine_reports (s : State) (l : Nat) : (s.poisonLine l).reports = s.reports := rfl
@[simp] theorem State.poisonLine_joins (s : State) (l : Nat) : (s.poisonLine l).joins = s.joins := rfl
@[simp] theorem State.poisonLine_collectives (s : State) (l : Nat) : (s.poisonLine l).collectives = s.collectives := rfl
@[simp] theorem State.poisonLine_queues (s : State) (l : Nat) : (s.poisonLine l).queues = s.queues := rfl
@[simp] theorem State.poisonLine_launches (s : State) (l : Nat) : (s.poisonLine l).launches = s.launches := rfl
@[simp] theorem State.poisonLine_commands (s : State) (l : Nat) : (s.poisonLine l).commands = s.commands := rfl
@[simp] theorem State.poisonLine_nextId (s : State) (l : Nat) : (s.poisonLine l).nextId = s.nextId := rfl
@[simp] theorem State.poisonLine_remap (s : State) (l : Nat) : (s.poisonLine l).remap = s.remap := rfl
@[simp] theorem State.poisonLine_filters (s : State) (l : Nat) : (s.poisonLine l).filters = s.filters := rfl
@[simp] theorem State.poisonLine_bounces (s : State) (l : Nat) : (s.poisonLine l).bounces = s.bounces := rfl
@[simp] theorem State.poisonLine_tablets (s : State) (l : Nat) : (s.poisonLine l).tablets = s.tablets := rfl
@[simp] theorem State.poisonLine_fullSince (s : State) (l : Nat) : (s.poisonLine l).fullSince = s.fullSince := rfl
@[simp] theorem State.poisonLine_keys (s : State) (l : Nat) : (s.poisonLine l).keys = s.keys := rfl
@[simp] theorem State.poisonLine_hub (s : State) (l : Nat) : (s.poisonLine l).hub = s.hub := rfl
@[simp] theorem State.poisonLine_functions (s : State) (l : Nat) : (s.poisonLine l).functions = s.functions := rfl
@[simp] theorem State.poisonLine_resetting (s : State) (l : Nat) : (s.poisonLine l).resetting = s.resetting := rfl
@[simp] theorem State.poisonLine_removing (s : State) (l : Nat) : (s.poisonLine l).removing = s.removing := rfl
@[simp] theorem State.poisonLine_carried (s : State) (l : Nat) : (s.poisonLine l).carried = s.carried := rfl
@[simp] theorem State.poisonLine_requested (s : State) (l : Nat) : (s.poisonLine l).requested = s.requested := rfl
@[simp] theorem State.poisonLine_sent (s : State) (l : Nat) : (s.poisonLine l).sent = s.sent := rfl
@[simp] theorem State.poisonLine_irqs (s : State) (l : Nat) : (s.poisonLine l).irqs = s.irqs := rfl
@[simp] theorem State.poisonLine_answers (s : State) (l : Nat) : (s.poisonLine l).answers = s.answers := rfl
@[simp] theorem State.poisonLine_images (s : State) (l : Nat) : (s.poisonLine l).images = s.images := rfl
@[simp] theorem State.poisonLine_inputs (s : State) (l : Nat) : (s.poisonLine l).inputs = s.inputs := rfl

@[simp] theorem State.queueFault_now (s : State) (n : Nat) (e : List Byte) : (s.queueFault n e).now = s.now := rfl
@[simp] theorem State.queueFault_oracle (s : State) (n : Nat) (e : List Byte) : (s.queueFault n e).oracle = s.oracle := rfl
@[simp] theorem State.queueFault_focus (s : State) (n : Nat) (e : List Byte) : (s.queueFault n e).focus = s.focus := rfl
@[simp] theorem State.queueFault_chosen (s : State) (n : Nat) (e : List Byte) : (s.queueFault n e).chosen = s.chosen := rfl
@[simp] theorem State.queueFault_mem (s : State) (n : Nat) (e : List Byte) : (s.queueFault n e).mem = s.mem := rfl
@[simp] theorem State.queueFault_form (s : State) (n : Nat) (e : List Byte) : (s.queueFault n e).form = s.form := rfl
@[simp] theorem State.queueFault_poisoned (s : State) (n : Nat) (e : List Byte) : (s.queueFault n e).poisoned = s.poisoned := rfl
@[simp] theorem State.queueFault_uncorrectable (s : State) (n : Nat) (e : List Byte) : (s.queueFault n e).uncorrectable = s.uncorrectable := rfl
@[simp] theorem State.queueFault_cores (s : State) (n : Nat) (e : List Byte) : (s.queueFault n e).cores = s.cores := rfl
@[simp] theorem State.queueFault_clusters (s : State) (n : Nat) (e : List Byte) : (s.queueFault n e).clusters = s.clusters := rfl
@[simp] theorem State.queueFault_dies (s : State) (n : Nat) (e : List Byte) : (s.queueFault n e).dies = s.dies := rfl
@[simp] theorem State.queueFault_arrivals (s : State) (n : Nat) (e : List Byte) : (s.queueFault n e).arrivals = s.arrivals := rfl
@[simp] theorem State.queueFault_reports (s : State) (n : Nat) (e : List Byte) : (s.queueFault n e).reports = s.reports := rfl
@[simp] theorem State.queueFault_joins (s : State) (n : Nat) (e : List Byte) : (s.queueFault n e).joins = s.joins := rfl
@[simp] theorem State.queueFault_collectives (s : State) (n : Nat) (e : List Byte) : (s.queueFault n e).collectives = s.collectives := rfl
@[simp] theorem State.queueFault_queues (s : State) (n : Nat) (e : List Byte) : (s.queueFault n e).queues = s.queues := rfl
@[simp] theorem State.queueFault_launches (s : State) (n : Nat) (e : List Byte) : (s.queueFault n e).launches = s.launches := rfl
@[simp] theorem State.queueFault_commands (s : State) (n : Nat) (e : List Byte) : (s.queueFault n e).commands = s.commands := rfl
@[simp] theorem State.queueFault_nextId (s : State) (n : Nat) (e : List Byte) : (s.queueFault n e).nextId = s.nextId := rfl
@[simp] theorem State.queueFault_remap (s : State) (n : Nat) (e : List Byte) : (s.queueFault n e).remap = s.remap := rfl
@[simp] theorem State.queueFault_filters (s : State) (n : Nat) (e : List Byte) : (s.queueFault n e).filters = s.filters := rfl
@[simp] theorem State.queueFault_bounces (s : State) (n : Nat) (e : List Byte) : (s.queueFault n e).bounces = s.bounces := rfl
@[simp] theorem State.queueFault_tablets (s : State) (n : Nat) (e : List Byte) : (s.queueFault n e).tablets = s.tablets := rfl
@[simp] theorem State.queueFault_fullSince (s : State) (n : Nat) (e : List Byte) : (s.queueFault n e).fullSince = s.fullSince := rfl
@[simp] theorem State.queueFault_keys (s : State) (n : Nat) (e : List Byte) : (s.queueFault n e).keys = s.keys := rfl
@[simp] theorem State.queueFault_hub (s : State) (n : Nat) (e : List Byte) : (s.queueFault n e).hub = s.hub := rfl
@[simp] theorem State.queueFault_functions (s : State) (n : Nat) (e : List Byte) : (s.queueFault n e).functions = s.functions := rfl
@[simp] theorem State.queueFault_resetting (s : State) (n : Nat) (e : List Byte) : (s.queueFault n e).resetting = s.resetting := rfl
@[simp] theorem State.queueFault_removing (s : State) (n : Nat) (e : List Byte) : (s.queueFault n e).removing = s.removing := rfl
@[simp] theorem State.queueFault_carried (s : State) (n : Nat) (e : List Byte) : (s.queueFault n e).carried = s.carried := rfl
@[simp] theorem State.queueFault_requested (s : State) (n : Nat) (e : List Byte) : (s.queueFault n e).requested = s.requested := rfl
@[simp] theorem State.queueFault_sent (s : State) (n : Nat) (e : List Byte) : (s.queueFault n e).sent = s.sent := rfl
@[simp] theorem State.queueFault_irqs (s : State) (n : Nat) (e : List Byte) : (s.queueFault n e).irqs = s.irqs := rfl
@[simp] theorem State.queueFault_answers (s : State) (n : Nat) (e : List Byte) : (s.queueFault n e).answers = s.answers := rfl
@[simp] theorem State.queueFault_images (s : State) (n : Nat) (e : List Byte) : (s.queueFault n e).images = s.images := rfl
@[simp] theorem State.queueFault_inputs (s : State) (n : Nat) (e : List Byte) : (s.queueFault n e).inputs = s.inputs := rfl

/-! ## Fields of a core and of a context that an update leaves -/

@[simp] theorem Core.setCtx_held (k : Core) (p : Nat) (c : Ctx) : (k.setCtx p c).held = k.held := rfl
@[simp] theorem Core.setCtx_imem (k : Core) (p : Nat) (c : Ctx) : (k.setCtx p c).imem = k.imem := rfl
@[simp] theorem Core.setCtx_running (k : Core) (p : Nat) (c : Ctx) : (k.setCtx p c).running = k.running := rfl
@[simp] theorem Core.setCtx_last (k : Core) (p : Nat) (c : Ctx) : (k.setCtx p c).last = k.last := rfl
@[simp] theorem Core.setCtx_nextIssue (k : Core) (p : Nat) (c : Ctx) : (k.setCtx p c).nextIssue = k.nextIssue := rfl
@[simp] theorem Core.setCtx_switchAt (k : Core) (p : Nat) (c : Ctx) : (k.setCtx p c).switchAt = k.switchAt := rfl
@[simp] theorem Core.setCtx_acted (k : Core) (p : Nat) (c : Ctx) : (k.setCtx p c).acted = k.acted := rfl
@[simp] theorem Core.setCtx_routine (k : Core) (p : Nat) (c : Ctx) : (k.setCtx p c).routine = k.routine := rfl
@[simp] theorem Core.setCtx_acc (k : Core) (p : Nat) (c : Ctx) : (k.setCtx p c).acc = k.acc := rfl
@[simp] theorem Core.setCtx_split (k : Core) (p : Nat) (c : Ctx) : (k.setCtx p c).split = k.split := rfl
@[simp] theorem Core.setCtx_half0 (k : Core) (p : Nat) (c : Ctx) : (k.setCtx p c).half0 = k.half0 := rfl
@[simp] theorem Core.setCtx_half1 (k : Core) (p : Nat) (c : Ctx) : (k.setCtx p c).half1 = k.half1 := rfl
@[simp] theorem Core.setCtx_cipher (k : Core) (p : Nat) (c : Ctx) : (k.setCtx p c).cipher = k.cipher := rfl
@[simp] theorem Core.setCtx_stokeNext (k : Core) (p : Nat) (c : Ctx) : (k.setCtx p c).stokeNext = k.stokeNext := rfl
@[simp] theorem Core.setCtx_stokeLast (k : Core) (p : Nat) (c : Ctx) : (k.setCtx p c).stokeLast = k.stokeLast := rfl
@[simp] theorem Core.setCtx_world (k : Core) (p : Nat) (c : Ctx) : (k.setCtx p c).world = k.world := rfl
@[simp] theorem Core.setCtx_away (k : Core) (p : Nat) (c : Ctx) : (k.setCtx p c).away = k.away := rfl

@[simp] theorem Ctx.setCreg_state (c : Ctx) (n : Nat) (v : Word) : (c.setCreg n v).state = c.state := rfl
@[simp] theorem Ctx.setCreg_regs (c : Ctx) (n : Nat) (v : Word) : (c.setCreg n v).regs = c.regs := rfl
@[simp] theorem Ctx.setCreg_flow (c : Ctx) (n : Nat) (v : Word) : (c.setCreg n v).flow = c.flow := rfl
@[simp] theorem Ctx.setCreg_micro (c : Ctx) (n : Nat) (v : Word) : (c.setCreg n v).micro = c.micro := rfl
@[simp] theorem Ctx.setCreg_shadow (c : Ctx) (n : Nat) (v : Word) : (c.setCreg n v).shadow = c.shadow := rfl
@[simp] theorem Ctx.setCreg_replays (c : Ctx) (n : Nat) (v : Word) : (c.setCreg n v).replays = c.replays := rfl
@[simp] theorem Ctx.setCreg_flights (c : Ctx) (n : Nat) (v : Word) : (c.setCreg n v).flights = c.flights := rfl
@[simp] theorem Ctx.setCreg_pending (c : Ctx) (n : Nat) (v : Word) : (c.setCreg n v).pending = c.pending := rfl
@[simp] theorem Ctx.setCreg_poison (c : Ctx) (n : Nat) (v : Word) : (c.setCreg n v).poison = c.poison := rfl
@[simp] theorem Ctx.setCreg_out (c : Ctx) (n : Nat) (v : Word) : (c.setCreg n v).out = c.out := rfl
@[simp] theorem Ctx.setCreg_flushes (c : Ctx) (n : Nat) (v : Word) : (c.setCreg n v).flushes = c.flushes := rfl
@[simp] theorem Ctx.setCreg_awaited (c : Ctx) (n : Nat) (v : Word) : (c.setCreg n v).awaited = c.awaited := rfl
@[simp] theorem Ctx.setCreg_moves (c : Ctx) (n : Nat) (v : Word) : (c.setCreg n v).moves = c.moves := rfl
@[simp] theorem Ctx.setCreg_fences (c : Ctx) (n : Nat) (v : Word) : (c.setCreg n v).fences = c.fences := rfl
@[simp] theorem Ctx.setCreg_cmds (c : Ctx) (n : Nat) (v : Word) : (c.setCreg n v).cmds = c.cmds := rfl
@[simp] theorem Ctx.setCreg_cmdSiding (c : Ctx) (n : Nat) (v : Word) : (c.setCreg n v).cmdSiding = c.cmdSiding := rfl
@[simp] theorem Ctx.setCreg_arrivals (c : Ctx) (n : Nat) (v : Word) : (c.setCreg n v).arrivals = c.arrivals := rfl
@[simp] theorem Ctx.setCreg_arrSiding (c : Ctx) (n : Nat) (v : Word) : (c.setCreg n v).arrSiding = c.arrSiding := rfl
@[simp] theorem Ctx.setCreg_chan (c : Ctx) (n : Nat) (v : Word) : (c.setCreg n v).chan = c.chan := rfl
@[simp] theorem Ctx.setCreg_rings (c : Ctx) (n : Nat) (v : Word) : (c.setCreg n v).rings = c.rings := rfl
@[simp] theorem Ctx.setCreg_nextId (c : Ctx) (n : Nat) (v : Word) : (c.setCreg n v).nextId = c.nextId := rfl
@[simp] theorem Ctx.setCreg_queue (c : Ctx) (n : Nat) (v : Word) : (c.setCreg n v).queue = c.queue := rfl
@[simp] theorem Ctx.setCreg_key (c : Ctx) (n : Nat) (v : Word) : (c.setCreg n v).key = c.key := rfl
@[simp] theorem Ctx.setCreg_qcount (c : Ctx) (n : Nat) (v : Word) : (c.setCreg n v).qcount = c.qcount := rfl
@[simp] theorem Ctx.setCreg_seeds (c : Ctx) (n : Nat) (v : Word) : (c.setCreg n v).seeds = c.seeds := rfl
@[simp] theorem Ctx.setCreg_oldKeys (c : Ctx) (n : Nat) (v : Word) : (c.setCreg n v).oldKeys = c.oldKeys := rfl
@[simp] theorem Ctx.setCreg_taken (c : Ctx) (n : Nat) (v : Word) : (c.setCreg n v).taken = c.taken := rfl
@[simp] theorem Ctx.setCreg_units (c : Ctx) (n : Nat) (v : Word) : (c.setCreg n v).units = c.units := rfl
@[simp] theorem Ctx.setCreg_needs (c : Ctx) (n : Nat) (v : Word) : (c.setCreg n v).needs = c.needs := rfl
@[simp] theorem Ctx.setCreg_seeding (c : Ctx) (n : Nat) (v : Word) : (c.setCreg n v).seeding = c.seeding := rfl
@[simp] theorem Ctx.setCreg_window (c : Ctx) (n : Nat) (v : Word) : (c.setCreg n v).window = c.window := rfl
@[simp] theorem Ctx.setCreg_bank (c : Ctx) (n : Nat) (v : Word) : (c.setCreg n v).bank = c.bank := rfl
@[simp] theorem Ctx.setCreg_bindings (c : Ctx) (n : Nat) (v : Word) : (c.setCreg n v).bindings = c.bindings := rfl
@[simp] theorem Ctx.setCreg_latch (c : Ctx) (n : Nat) (v : Word) : (c.setCreg n v).latch = c.latch := rfl
@[simp] theorem Ctx.setCreg_regions (c : Ctx) (n : Nat) (v : Word) : (c.setCreg n v).regions = c.regions := rfl
@[simp] theorem Ctx.setCreg_accMask (c : Ctx) (n : Nat) (v : Word) : (c.setCreg n v).accMask = c.accMask := rfl
@[simp] theorem Ctx.setCreg_why (c : Ctx) (n : Nat) (v : Word) : (c.setCreg n v).why = c.why := rfl
@[simp] theorem Ctx.setCreg_faultPending (c : Ctx) (n : Nat) (v : Word) : (c.setCreg n v).faultPending = c.faultPending := rfl
@[simp] theorem Ctx.setCreg_asyncFaults (c : Ctx) (n : Nat) (v : Word) : (c.setCreg n v).asyncFaults = c.asyncFaults := rfl
@[simp] theorem Ctx.setCreg_haltPending (c : Ctx) (n : Nat) (v : Word) : (c.setCreg n v).haltPending = c.haltPending := rfl
@[simp] theorem Ctx.setCreg_killPending (c : Ctx) (n : Nat) (v : Word) : (c.setCreg n v).killPending = c.killPending := rfl
@[simp] theorem Ctx.setCreg_resume (c : Ctx) (n : Nat) (v : Word) : (c.setCreg n v).resume = c.resume := rfl
@[simp] theorem Ctx.setCreg_saved (c : Ctx) (n : Nat) (v : Word) : (c.setCreg n v).saved = c.saved := rfl
@[simp] theorem Ctx.setCreg_recCloses (c : Ctx) (n : Nat) (v : Word) : (c.setCreg n v).recCloses = c.recCloses := rfl
@[simp] theorem Ctx.setCreg_recAfter (c : Ctx) (n : Nat) (v : Word) : (c.setCreg n v).recAfter = c.recAfter := rfl
@[simp] theorem Ctx.setCreg_word (c : Ctx) (n : Nat) (v : Word) : (c.setCreg n v).word = c.word := rfl
@[simp] theorem Ctx.setCreg_wordAside (c : Ctx) (n : Nat) (v : Word) : (c.setCreg n v).wordAside = c.wordAside := rfl
@[simp] theorem Ctx.setCreg_override (c : Ctx) (n : Nat) (v : Word) : (c.setCreg n v).override = c.override := rfl
@[simp] theorem Ctx.setCreg_readySince (c : Ctx) (n : Nat) (v : Word) : (c.setCreg n v).readySince = c.readySince := rfl
@[simp] theorem Ctx.setCreg_overdue (c : Ctx) (n : Nat) (v : Word) : (c.setCreg n v).overdue = c.overdue := rfl
@[simp] theorem Ctx.setCreg_wake (c : Ctx) (n : Nat) (v : Word) : (c.setCreg n v).wake = c.wake := rfl
@[simp] theorem Ctx.setCreg_yielded (c : Ctx) (n : Nat) (v : Word) : (c.setCreg n v).yielded = c.yielded := rfl
@[simp] theorem Ctx.setCreg_safe (c : Ctx) (n : Nat) (v : Word) : (c.setCreg n v).safe = c.safe := rfl
@[simp] theorem Ctx.setCreg_preempt (c : Ctx) (n : Nat) (v : Word) : (c.setCreg n v).preempt = c.preempt := rfl
@[simp] theorem Ctx.setCreg_rotating (c : Ctx) (n : Nat) (v : Word) : (c.setCreg n v).rotating = c.rotating := rfl
@[simp] theorem Ctx.setCreg_bundles (c : Ctx) (n : Nat) (v : Word) : (c.setCreg n v).bundles = c.bundles := rfl
@[simp] theorem Ctx.setCreg_place (c : Ctx) (n : Nat) (v : Word) : (c.setCreg n v).place = c.place := rfl
@[simp] theorem Ctx.setCreg_part (c : Ctx) (n : Nat) (v : Word) : (c.setCreg n v).part = c.part := rfl
@[simp] theorem Ctx.setCreg_gang (c : Ctx) (n : Nat) (v : Word) : (c.setCreg n v).gang = c.gang := rfl
@[simp] theorem Ctx.setCreg_gangSize (c : Ctx) (n : Nat) (v : Word) : (c.setCreg n v).gangSize = c.gangSize := rfl
@[simp] theorem Ctx.setCreg_launch (c : Ctx) (n : Nat) (v : Word) : (c.setCreg n v).launch = c.launch := rfl
@[simp] theorem Ctx.setCreg_world (c : Ctx) (n : Nat) (v : Word) : (c.setCreg n v).world = c.world := rfl
@[simp] theorem Ctx.setCreg_image (c : Ctx) (n : Nat) (v : Word) : (c.setCreg n v).image = c.image := rfl
@[simp] theorem Ctx.setCreg_imageCtx (c : Ctx) (n : Nat) (v : Word) : (c.setCreg n v).imageCtx = c.imageCtx := rfl
@[simp] theorem Ctx.setCreg_descs (c : Ctx) (n : Nat) (v : Word) : (c.setCreg n v).descs = c.descs := rfl
@[simp] theorem Ctx.setCreg_points (c : Ctx) (n : Nat) (v : Word) : (c.setCreg n v).points = c.points := rfl

end Sys2Proof.Machine
end

