-- ==== Sys2Proof/Laws/Issue.lean ====
section
/-! SUPPORT. What the issue of a lone slot instruction by an undisturbed context does: the one lemma `issueAlone_calm`, from
which each instruction's result follows by its own slot meaning. -/
namespace Sys2Proof.Machine

theorem alone_eq {i : Instr} {sl : SlotId} (h : i.slot = some sl) (hn : i ≠ .nop) :
    alone i = { hdr := aloneHeader sl i, slots := [(sl, i)] } := by
  unfold alone
  rw [h]
  cases i <;> first | rfl | exact absurd rfl hn

/-! ## The attempt -/

/-- The state in which a lone bundle's attempt begins. -/
def State.begun (s : State) (core : Nat) : State := s.setCore core { s.core core with acted := s.now + 1 }

/-- What the slot of a lone instruction sees. -/
def loneEnv (s : State) (core plat : Nat) (sl : SlotId) (i : Instr) : Env :=
  { core := core, plat := plat, pre := s.begun core, slot := sl, hdr := aloneHeader sl i,
    word := ((s.ctx core plat).popped i).word }

/-- The state on which it acts. -/
def State.acting (s : State) (core plat : Nat) (i : Instr) : State :=
  (s.begun core).setCtx core plat ((s.ctx core plat).popped i)

@[simp] theorem State.begun_ctx (s : State) (core plat : Nat) : (s.begun core).ctx core plat = s.ctx core plat := by
  simp [State.begun, State.ctx, Core.ctx]
@[simp] theorem State.begun_now (s : State) (core : Nat) : (s.begun core).now = s.now := rfl
@[simp] theorem loneEnv_c (s : State) (core plat : Nat) (sl : SlotId) (i : Instr) :
    (loneEnv s core plat sl i).c = s.ctx core plat := by simp [Env.c, loneEnv]
@[simp] theorem loneEnv_now (s : State) (core plat : Nat) (sl : SlotId) (i : Instr) :
    (loneEnv s core plat sl i).now = s.now := rfl
@[simp] theorem loneEnv_core (s : State) (core plat : Nat) (sl : SlotId) (i : Instr) :
    (loneEnv s core plat sl i).core = core := rfl
@[simp] theorem loneEnv_plat (s : State) (core plat : Nat) (sl : SlotId) (i : Instr) :
    (loneEnv s core plat sl i).plat = plat := rfl
@[simp] theorem loneEnv_slot (s : State) (core plat : Nat) (sl : SlotId) (i : Instr) :
    (loneEnv s core plat sl i).slot = sl := rfl

/-- What an instruction must be for a lone bundle of it to pass the checks of R99 in an undisturbed context. -/
structure Fits (c : Ctx) (i : Instr) (sl : SlotId) : Prop where
  slot : i.slot = some sl
  nop : i ≠ .nop
  bound : ∀ g cls code raw, i = .boundInstruction g cls code raw → (c.binding cls code).isSome
  vectors : i.vectorReads ≤ 6
  scalar : sl = .c ∨ sl = .x → i.vectorReads = 0
  moments : (i.reads.filter RegId.isM).length ≤ 4
  writes : (c.writes i).length ≤ 3
  off : ∀ o, i.loopOffset = some o → 1 ≤ o
  tret : ∀ g, i = .tret g → (c.creg 0x062).getLsbD 15 = true

theorem inFlight_none {c : Ctx} (h : c.flights = []) (r : RegId) : c.inFlight r = none := by
  simp [Ctx.inFlight, h]

theorem portWrites_length (c : Ctx) (b : Bool) (i : Instr) : (c.portWrites b i).length ≤ (c.writes i).length := by
  unfold Ctx.portWrites
  split
  · simp
  · exact List.length_filterMap_le _ _

theorem port_sum (sl : SlotId) (i : Instr) :
    (aloneHeader sl i).pe + (aloneHeader sl i).pt + (aloneHeader sl i).pa + (aloneHeader sl i).pv0 + (aloneHeader sl i).pv1 ≤
      i.vectorReads := by
  cases sl <;> simp [aloneHeader]

theorem dynIllegal_none {c : Ctx} {i : Instr} {sl : SlotId} {on : Bool} {sem : SlotSem} (hl : c.flow.loops = [])
    (fit : Fits c i sl) : dynIllegal c (aloneHeader sl i) [⟨sl, i, on, sem⟩] = [] := by
  have ho := fit.off
  have ht := fit.tret
  simp only [dynIllegal, List.flatMap_cons, List.flatMap_nil, List.append_nil, hl, List.append_eq_nil_iff]
  refine ⟨⟨?_, ?_⟩, ?_⟩
  · cases h : i.needsRqDyn <;> simp [aloneHeader, h]
  · cases h : i.loopOffset with
    | none => simp
    | some o =>
      have := ho o h
      simp [show ¬ o < 1 by omega]
  · split
    · simp [ht _ rfl]
    · rfl

theorem unbound_none {c : Ctx} {i : Instr} {sl : SlotId} {on : Bool} {sem : SlotSem} (fit : Fits c i sl) :
    unboundOf c [⟨sl, i, on, sem⟩] = none := by
  have hb := fit.bound
  simp only [unboundOf, List.findSome?_cons, List.findSome?_nil]
  split
  · rename_i h
    split at h
    · rename_i g cls code raw
      have := hb g cls code raw rfl
      rw [Option.isSome_iff_ne_none] at this
      simp [Option.isNone_iff_eq_none, this] at h
    · simp at h
  · rfl

theorem port_none {c : Ctx} {i : Instr} {sl : SlotId} {on : Bool} {sem : SlotSem} (hf : c.flights = []) (now : Nat)
    (fit : Fits c i sl) : portOf c now (aloneHeader sl i) [⟨sl, i, on, sem⟩] = none := by
  have hs := port_sum sl i
  have h0 : ¬ 6 < (aloneHeader sl i).pe + (aloneHeader sl i).pt + (aloneHeader sl i).pa + (aloneHeader sl i).pv0 +
      (aloneHeader sl i).pv1 := by have := fit.vectors; omega
  have hz : ∀ b n, c.portsAt b n = 0 := fun b n => by simp [Ctx.portsAt, hf]
  have hover : ∀ b l, ((c.portWrites b i).filter (fun x => decide (x = l))).length ≤ 3 := fun b l =>
    Nat.le_trans (List.length_filter_le _ _) (Nat.le_trans (portWrites_length c b i) fit.writes)
  have hv' : ¬ Header.allot (aloneHeader sl i) sl < i.vectorReads := by
    have := fit.scalar
    cases sl <;> simp_all [aloneHeader, Header.allot]
  have hm := fit.moments
  have hr : ∀ l, ¬ ((0 < ((c.portWrites false i).filter (fun x => decide (x = l))).length ∧
      4 < ((c.portWrites false i).filter (fun x => decide (x = l))).length + 0) ∨
      (0 < ((c.portWrites true i).filter (fun x => decide (x = l))).length ∧
      3 < ((c.portWrites true i).filter (fun x => decide (x = l))).length + 0)) := fun l => by
    have := hover false l
    have := hover true l
    omega
  unfold portOf
  rw [if_neg h0]
  simp only [List.find?_cons, List.find?_nil, hv', decide_false, List.flatMap_cons, List.flatMap_nil, List.append_nil, hz]
  rw [if_neg (by omega)]
  have hn : (List.range 8).find? (fun l =>
      (decide (0 < ((c.portWrites false i).filter (fun x => decide (x = l))).length) &&
        decide (4 < ((c.portWrites false i).filter (fun x => decide (x = l))).length + 0)) ||
      (decide (0 < ((c.portWrites true i).filter (fun x => decide (x = l))).length) &&
        decide (3 < ((c.portWrites true i).filter (fun x => decide (x = l))).length + 0))) = none := by
    rw [List.find?_eq_none]
    intro l _
    simpa using hr l
  rw [hn]

theorem encoding_ok {i : Instr} {sl : SlotId} {on : Bool} {sem : SlotSem} {c : Ctx}
    (hf : c.flights = []) (hl : c.flow.loops = []) (hx : c.flow.xfer = none) (fit : Fits c i sl) (now : Nat)
    (reads : Part → List RegId) :
    encodingFault c now (aloneHeader sl i) [⟨sl, i, on, sem⟩] [] reads = none := by
  have h1 : illegalOf c (aloneHeader sl i) [⟨sl, i, on, sem⟩] [] = none := by
    simp [illegalOf, dynIllegal_none hl fit]
  have h2 := unbound_none (on := on) (sem := sem) fit
  have h3 : delaybrOf c [⟨sl, i, on, sem⟩] = none := by
    simp [delaybrOf, hl, hx]
  have h4 : dupdestOf c [⟨sl, i, on, sem⟩] = none := by
    have : ∀ l : List RegId, l.find? (fun _ => false) = none := by intro l; simp
    simp [dupdestOf, this]
  have h5 := port_none (on := on) (sem := sem) hf now fit
  have h6 : shadowOf c now [⟨sl, i, on, sem⟩] reads = none := by
    have e1 : ∀ l : List RegId, l.find? (fun _ => false) = none := by intro l; simp
    simp only [shadowOf, inFlight_none hf, List.findSome?_cons, List.findSome?_nil, e1]
    cases on with
    | false => rfl
    | true =>
      simp only [Bool.not_true, Bool.false_eq_true, if_false]
      generalize hq : List.find? _ (c.writes i) = q
      cases q with
      | none => rfl
      | some w =>
        have := List.find?_some hq
        split at this <;> simp at this
  simp [encodingFault, h1, h2, h3, h4, h5, h6]

theorem pending_none {c : Ctx} (h : c.pending = []) (ps : List Part) : pendingHits c ps = [] := by
  have : ∀ r, c.isPending r = false := fun r => by simp [Ctx.isPending, h]
  simp [pendingHits, this]

theorem poison_none {c : Ctx} (h : c.poison = []) (p : Part) : poisonHit c p = none := by
  unfold poisonHit
  rw [List.findSome?_eq_none_iff]
  intro r _
  simp [h]

/-- The bundle's own random word. -/
theorem popWord_alone (c : Ctx) (i : Instr) (sl : SlotId) :
    popWord c (aloneHeader sl i).rq none = (c.popped i, (c.popped i).word) := by
  cases h : i.pops <;> simp_all [popWord, aloneHeader, Ctx.popped, Instr.pops]

/-- The bundle is counted, and its platform the last to issue. -/
def State.counted (t : State) (core plat : Nat) : State :=
  let t1 := t.setCtx core plat { t.ctx core plat with bundles := (t.ctx core plat).bundles + 1 }
  t1.setCore core { t1.core core with last := plat }

/-- The end of a lone bundle issued at a cycle, on which no slot faulted and no routine started. -/
def State.closed (t : State) (core plat at_ : Nat) : State :=
  (t.counted core plat).completeBundle core plat false at_ ⟨false, false⟩

/-- Where no safe point stands at its boundary, it does not matter what the bundle's issue found. -/
theorem completeBundle_noSp (t : State) (core plat a : Nat) (u v : Found) :
    t.completeBundle core plat false a u = t.completeBundle core plat false a v := by
  simp only [State.completeBundle, State.completeWith, Bool.false_and, Bool.false_eq_true, if_false]

@[simp] theorem actOrder_one (p : Part) : actOrder [p] = [p] := by
  unfold actOrder
  by_cases h : (p.slot == .t) = true
  · simp [List.filter, h, bne]
  · rw [Bool.not_eq_true] at h; simp [List.filter, h, bne]

@[simp] theorem meetFault_core (s : State) (core code v n : Nat) : (s.meetFault core code v).core n = s.core n := by
  unfold State.meetFault; split <;> rfl

@[simp] theorem meetFault_now (s : State) (core code v : Nat) : (s.meetFault core code v).now = s.now := by
  unfold State.meetFault; split <;> rfl

theorem meetFault_other {s : State} {core code v : Nat} (h : code ≠ cHWERR) : s.meetFault core code v = s := by
  simp [State.meetFault, h]

/-- Steps 2 to 6 of R525 on one part that passes every check. -/
theorem issueParts_ok {b t : State} {core plat : Nat} {hdr : Header} {p : Part} {c1 : Ctx} {w : Option Vec}
    (hp : pendingHits (b.ctx core plat) [p] = [])
    (hrq : (hdr.rq && true && (b.ctx core plat).queue.isEmpty) = false)
    (he : encodingFault (b.ctx core plat) b.now hdr [p] [] (partReads (b.ctx core plat)) = none)
    (hb : blockOf core plat hdr b [p] = none) (hw : popWord (b.ctx core plat) hdr.rq none = (c1, w))
    (hr : runPart core plat hdr w b (b.setCtx core plat c1, []) p = (t, [])) (ht : (t.core core).routine = none) (hsp : hdr.sp = false) :
    issueParts core plat hdr [p] [] none b = t.closed core plat b.now := by
  have hrq' : ¬ ((hdr.rq && (none : Option Nat).isNone && (b.ctx core plat).queue.isEmpty) = true) := by
    simpa using hrq
  unfold issueParts
  simp only [hp, List.isEmpty_nil, Bool.not_true, Bool.false_eq_true, if_false, hrq', he, hb, hw, actOrder_one,
    List.foldl_cons, List.foldl_nil, hr, ht, hsp, Option.any_none]
  exact completeBundle_noSp _ _ _ _ _ _

/-- An attempt that no resume and no fetch check stops. -/
theorem attempt_ok {sem : Instr → SlotSem} {fetch : Nat → Decoded} {core plat : Nat} {s : State}
    (hr : (s.ctx core plat).resume = .none) (hi : (s.ctx core plat).inRange (s.ctx core plat).flow.pc = true) :
    attempt sem fetch core plat s =
      issueParts core plat (fetch (s.ctx core plat).flow.pc).bundle.hdr
        (mkParts sem (s.ctx core plat) (fetch (s.ctx core plat).flow.pc).bundle.slots)
        (fetch (s.ctx core plat).flow.pc).illegal none (s.begun core) := by
  have hb : s.setCore core { s.core core with acted := s.now + 1 } = s.begun core := rfl
  unfold attempt
  simp only [hb, State.begun_ctx, hr, hi, Bool.not_true, Bool.false_eq_true, if_false]

/-- One part that passes every check and faults by itself. -/
theorem issueParts_fault {b : State} {core plat : Nat} {hdr : Header} {p : Part} {c1 : Ctx} {w : Option Vec} {code v : Nat}
    (hp : pendingHits (b.ctx core plat) [p] = [])
    (hrq : (hdr.rq && true && (b.ctx core plat).queue.isEmpty) = false)
    (he : encodingFault (b.ctx core plat) b.now hdr [p] [] (partReads (b.ctx core plat)) = none)
    (hb : blockOf core plat hdr b [p] = none) (hw : popWord (b.ctx core plat) hdr.rq none = (c1, w))
    (hr : runPart core plat hdr w b (b.setCtx core plat c1, []) p = ((b.setCtx core plat c1).meetFault core code v, [(p, code, v)]))
    (ht : (b.core core).routine = none) :
    issueParts core plat hdr [p] [] none b = (((b.setCtx core plat c1).meetFault core code v).counted core plat).raiseAt core plat
      ⟨code, p.slot.num, v, (b.ctx core plat).flow.pc, none⟩ (partReads (b.ctx core plat) p) (b.ctx core plat)
      (doneBut p.slot.num) := by
  have hrq' : ¬ ((hdr.rq && (none : Option Nat).isNone && (b.ctx core plat).queue.isEmpty) = true) := by
    simpa using hrq
  have hro : ((((b.setCtx core plat c1).meetFault core code v).counted core plat).core core).routine = none := by
    simp [State.counted, State.setCtx, ht]
  unfold issueParts
  simp only [hp, List.isEmpty_nil, Bool.not_true, Bool.false_eq_true, if_false, hrq', he, hb, hw, actOrder_one,
    List.foldl_cons, List.foldl_nil, hr]
  unfold State.counted at hro
  simp only [hro]
  rfl

/-- The four facts on which the attempt of a lone slot instruction of an undisturbed context rests. -/
theorem alone_parts {s : State} {core plat : Nat} {i : Instr} {sl : SlotId} {on : Bool} {sem : SlotSem}
    (hc : Calm s core plat) (fit : Fits (s.ctx core plat) i sl) (hq : i.pops = true → (s.ctx core plat).queue ≠ []) :
    pendingHits ((s.begun core).ctx core plat) [⟨sl, i, on, sem⟩] = [] ∧
    ((aloneHeader sl i).rq && true && ((s.begun core).ctx core plat).queue.isEmpty) = false ∧
    encodingFault ((s.begun core).ctx core plat) (s.begun core).now (aloneHeader sl i) [⟨sl, i, on, sem⟩] []
      (partReads ((s.begun core).ctx core plat)) = none ∧
    popWord ((s.begun core).ctx core plat) (aloneHeader sl i).rq none =
      ((s.ctx core plat).popped i, ((s.ctx core plat).popped i).word) := by
  have hrq : ((aloneHeader sl i).rq && true && (s.ctx core plat).queue.isEmpty) = false := by
    cases h : i.pops with
    | false => simp_all [aloneHeader, Instr.pops]
    | true => have := hq h; simp [this]
  refine ⟨?_, ?_, ?_, ?_⟩
  · rw [show (s.begun core).ctx core plat = _ from State.begun_ctx s core plat]
    exact pending_none hc.pending _
  · simpa using hrq
  · simp only [State.begun_ctx]
    exact encoding_ok hc.flights hc.loops hc.xfer fit _ _
  · simp only [State.begun_ctx]; exact popWord_alone _ _ _

/-- The attempt of a lone slot instruction, down to its one part. -/
theorem alone_attempt {s : State} {core plat : Nat} {i : Instr} {sl : SlotId} {g : Guard} {sem : SlotSem}
    (hc : Calm s core plat) (hg : i.guard = some g) (hs : i.slot = some sl) (hn : i ≠ .nop) :
    issueAlone i sem s = .next (issueParts core plat (aloneHeader sl i) [⟨sl, i, (s.ctx core plat).guard g, sem⟩] [] none
      (s.begun core)) := by
  unfold issueAlone
  simp only [hc.focus, hc.running, hc.state, and_self, if_true]
  rw [attempt_ok hc.resume hc.inRange]
  simp only [alone_eq hs hn, mkParts, List.map_cons, List.map_nil, hg]

theorem alone_block {s : State} {core plat : Nat} {i : Instr} {sl : SlotId} {sem : SlotSem} (hc : Calm s core plat) :
    blockOf core plat (aloneHeader sl i) (s.begun core) [⟨sl, i, true, sem⟩] =
      sem.block { loneEnv s core plat sl i with word := none } (s.begun core) := by
  simp only [blockOf, List.findSome?_cons, List.findSome?_nil, State.begun_ctx, poison_none hc.poison, Option.isNone_none,
    Bool.and_self, if_true]
  rw [show sem.block { loneEnv s core plat sl i with word := none } (s.begun core) =
    sem.block ⟨core, plat, s.begun core, sl, aloneHeader sl i, none⟩ (s.begun core) from rfl]
  cases sem.block ⟨core, plat, s.begun core, sl, aloneHeader sl i, none⟩ (s.begun core) <;> rfl

/-- A lone slot instruction of an undisturbed context, its guard true, acts on the state and closes its bundle. -/
theorem issueAlone_calm {s : State} {core plat : Nat} {i : Instr} {sl : SlotId} {g : Guard} {sem : SlotSem} {t : State}
    (hc : Calm s core plat) (hg : i.guard = some g) (hon : (s.ctx core plat).guard g = true)
    (fit : Fits (s.ctx core plat) i sl) (hq : i.pops = true → (s.ctx core plat).queue ≠ [])
    (hb : sem.block { loneEnv s core plat sl i with word := none } (s.begun core) = none)
    (hr : sem.run (loneEnv s core plat sl i) (s.acting core plat i) = .done t) (ht : (t.core core).routine = none) :
    issueAlone i sem s = .next (t.closed core plat s.now) := by
  obtain ⟨h1, h2, h3, h4⟩ := alone_parts (on := true) (sem := sem) hc fit hq
  rw [alone_attempt hc hg fit.slot fit.nop, hon,
    issueParts_ok h1 h2 h3 (by rw [alone_block hc]; exact hb) h4 (t := t) ?_ ht rfl, State.begun_now]
  simp only [runPart, State.begun_ctx, poison_none hc.poison, Bool.not_true, Bool.false_eq_true, if_false]
  have : sem.run ⟨core, plat, s.begun core, sl, aloneHeader sl i, ((s.ctx core plat).popped i).word⟩
    ((s.begun core).setCtx core plat ((s.ctx core plat).popped i)) = .done t := hr
  rw [this]

/-- A lone slot instruction of an undisturbed context that faults by itself: the fault is taken. -/
theorem issueAlone_faults {s : State} {core plat : Nat} {i : Instr} {sl : SlotId} {g : Guard} {sem : SlotSem}
    {code v : Nat} (hc : Calm s core plat) (hg : i.guard = some g) (hon : (s.ctx core plat).guard g = true)
    (fit : Fits (s.ctx core plat) i sl) (hq : i.pops = true → (s.ctx core plat).queue ≠ [])
    (hb : sem.block { loneEnv s core plat sl i with word := none } (s.begun core) = none)
    (hr : sem.run (loneEnv s core plat sl i) (s.acting core plat i) = .fault code v) :
    issueAlone i sem s = .next ((((s.acting core plat i).meetFault core code v).counted core plat).takeFault core plat
      ⟨code, sl.num, v, (s.ctx core plat).flow.pc, none⟩
      ((s.ctx core plat).capture (partReads (s.ctx core plat) ⟨sl, i, true, sem⟩) (doneBut sl.num)) s.now) := by
  obtain ⟨h1, h2, h3, h4⟩ := alone_parts (on := true) (sem := sem) hc fit hq
  rw [alone_attempt hc hg fit.slot fit.nop, hon,
    issueParts_fault h1 h2 h3 (by rw [alone_block hc]; exact hb) h4 (code := code) (v := v) ?_
      (by simp [State.begun, hc.routine])]
  · rw [State.begun_ctx, show (s.begun core).setCtx core plat ((s.ctx core plat).popped i) = s.acting core plat i from rfl]
    have hnow : (((s.acting core plat i).meetFault core code v).counted core plat).now = s.now :=
      meetFault_now (s.acting core plat i) core code v
    generalize ((s.acting core plat i).meetFault core code v).counted core plat = u at *
    unfold State.raiseAt
    rw [hnow]
  · simp only [runPart, State.begun_ctx, poison_none hc.poison, Bool.not_true, Bool.false_eq_true, if_false]
    have : sem.run ⟨core, plat, s.begun core, sl, aloneHeader sl i, ((s.ctx core plat).popped i).word⟩
      ((s.begun core).setCtx core plat ((s.ctx core plat).popped i)) = .fault code v := hr
    rw [this]; rfl

/-- A lone slot instruction of an undisturbed context that waits: its context is BLOCKED. -/
theorem issueAlone_blocks {s t : State} {core plat : Nat} {i : Instr} {sl : SlotId} {g : Guard} {sem : SlotSem}
    {why : BlockWhy} (hc : Calm s core plat) (hg : i.guard = some g) (hon : (s.ctx core plat).guard g = true)
    (fit : Fits (s.ctx core plat) i sl) (hq : i.pops = true → (s.ctx core plat).queue ≠ [])
    (hb : sem.block { loneEnv s core plat sl i with word := none } (s.begun core) = some (why, t)) :
    issueAlone i sem s = .next (t.blockCtx core plat why) := by
  obtain ⟨h1, h2, h3, h4⟩ := alone_parts (on := true) (sem := sem) hc fit hq
  rw [alone_attempt hc hg fit.slot fit.nop, hon]
  have h2' : ¬ (((aloneHeader sl i).rq && (none : Option Nat).isNone && ((s.begun core).ctx core plat).queue.isEmpty) = true) := by
    simpa using h2
  unfold issueParts
  simp only [h1, List.isEmpty_nil, Bool.not_true, Bool.false_eq_true, if_false, h2', h3]
  rw [alone_block hc, hb]

/-- The completion of a bundle that is no safe point and whose C slot has nothing more to do. -/
theorem completeWith_plain {t : State} {core plat a : Nat} {b : Found} {f : State → State}
    (h : (t.ctx core plat).flow.after = none) :
    t.completeWith core plat false a b f = t.setCtx core plat { t.ctx core plat with
      flow := (t.ctx core plat).flow.complete, resume := .none, override := [], safe := none } := by
  simp only [State.completeWith, h, Bool.false_and, Bool.false_eq_true, if_false, reduceCtorEq]

theorem complete_plain {f : Flow} (hl : f.loops = []) (hx : f.xfer = none) (ha : f.after = none) :
    f.complete = { f with pc := f.pc + 1 } := by
  cases f
  simp_all [Flow.complete, stepXfer, Flow.advance, loopNext]

/-- Closing the bundle of an undisturbed context whose slot only changed the context's own fields. -/
theorem closed_setCtx {s : State} {core plat n : Nat} {c : Ctx} (ha : c.flow.after = none) :
    ((s.begun core).setCtx core plat c).closed core plat n =
      s.setCore core ({ s.core core with acted := s.now + 1, last := plat }.setCtx plat
        { c with bundles := c.bundles + 1, safe := none, flow := c.flow.complete, resume := .none, override := [] }) := by
  have h : ∀ t : State, ((t.setCore core { t.core core with last := plat }).ctx core plat) = t.ctx core plat :=
    fun t => State.ctx_setCore_plats (k := { t.core core with last := plat }) rfl plat
  unfold State.closed State.counted State.completeBundle
  rw [completeWith_plain (by simpa only [h, State.ctx_setCtx] using ha)]
  simp only [h, State.ctx_setCtx]
  simp only [State.setCtx, State.begun, State.core_setCore, State.setCore_setCore]
  simp [Core.setCtx]

/-- A slot instruction whose effect is on its own context alone. -/
theorem exec_issued {s : State} {core plat : Nat} {i : Instr} {sl : SlotId} {g : Guard} {sem : SlotSem} {f : Ctx → Ctx}
    (hc : Calm s core plat) (hg : i.guard = some g) (hon : (s.ctx core plat).guard g = true)
    (fit : Fits (s.ctx core plat) i sl) (hq : i.pops = true → (s.ctx core plat).queue ≠ [])
    (hb : sem.block { loneEnv s core plat sl i with word := none } (s.begun core) = none)
    (hr : sem.run (loneEnv s core plat sl i) (s.acting core plat i) =
      .done ((s.begun core).setCtx core plat (f ((s.ctx core plat).popped i))))
    (hf : (f ((s.ctx core plat).popped i)).flow.after = none) :
    issueAlone i sem s = .next (s.setCore core ({ s.core core with acted := s.now + 1, last := plat }.setCtx plat
      (let c := f ((s.ctx core plat).popped i)
       { c with bundles := c.bundles + 1, safe := none, flow := c.flow.complete, resume := .none, override := [] }))) := by
  rw [issueAlone_calm hc hg hon fit hq hb hr (by simp [State.setCtx, State.begun, hc.routine]), closed_setCtx hf]

/-- Sending a result on its way from a context with nothing in flight; x0 and p0 take none (R86). -/
theorem land_acting {s : State} {core plat : Nat} {i : Instr} (hc : Calm s core plat) (sl : SlotId) (l : Nat) (v : RegWrite) :
    (loneEnv s core plat sl i).land (s.acting core plat i) l v =
      (s.begun core).setCtx core plat { (s.ctx core plat).popped i with
        flights := ([(l, v)].filter (fun w => RegWrite.kept w.2)).map (fun w => ⟨s.now, sl.num, s.now + w.1, w.2⟩) } := by
  have h3 : ((s.ctx core plat).popped i).flights = [] := hc.flights
  have hk : v.kept = false ∨ v.kept = true := by cases v.kept <;> simp
  rcases hk with h | h
  · have : (loneEnv s core plat sl i).land (s.acting core plat i) l v = s.acting core plat i := by
      cases v <;> simp_all [RegWrite.kept, Env.land]
    rw [this, State.acting]
    simp [h, ← h3]
  · have : (loneEnv s core plat sl i).land (s.acting core plat i) l v =
        (loneEnv s core plat sl i).upd (s.acting core plat i) (fun c =>
          { c with flights := c.flights ++ [⟨s.now, sl.num, s.now + l, v⟩] }) := by
      cases v <;> simp_all [RegWrite.kept, Env.land]
    rw [this]
    simp [Env.upd, State.acting, h, h3]

/-- A slot instruction that sends one result on its way. -/
theorem exec_lands {s : State} {core plat : Nat} {i : Instr} {sl : SlotId} {g : Guard} {l : Nat} {w : Env → RegWrite}
    (hc : Calm s core plat) (hg : i.guard = some g) (hon : (s.ctx core plat).guard g = true)
    (fit : Fits (s.ctx core plat) i sl) (hq : i.pops = true → (s.ctx core plat).queue ≠ []) :
    issueAlone i (lands l w) s = .next (s.sends core plat i [(l, w (loneEnv s core plat sl i))]) := by
  have hsl : i.slot.elim 0 SlotId.num = sl.num := by rw [fit.slot]; rfl
  have hp : ((s.ctx core plat).popped i).flow = (s.ctx core plat).flow := rfl
  rw [exec_issued (f := fun c => { c with
      flights := ([(l, w (loneEnv s core plat sl i))].filter (fun w => RegWrite.kept w.2)).map
        (fun w => ⟨s.now, sl.num, s.now + w.1, w.2⟩) }) hc hg hon fit hq rfl ?_ hc.after]
  · have h1 := hc.resume
    have h2 := hc.override
    have h3 := complete_plain hc.loops hc.xfer hc.after
    simp only [State.sends, State.issued, Ctx.passed, hsl, hp, h3]
    simp only [Ctx.popped, ← h1, ← h2]
  · exact congrArg SlotOut.done (land_acting hc _ _ _)

/-! ## Every slot instruction fits -/

theorem vectorReads_le (i : Instr) : i.vectorReads ≤ 3 := by
  unfold Instr.vectorReads
  split <;> first | decide | (split <;> decide)

theorem moments_le (i : Instr) : (i.reads.filter RegId.isM).length ≤ 4 := by
  unfold Instr.reads
  split <;> first
    | (refine Nat.le_trans (List.length_filter_le _ _) ?_; simp; done)
    | (split <;> simp [List.filter, RegId.isM, mr]; done)
    | (rw [List.filter_cons_of_neg (by simp [RegId.isM, ar]), List.filter_eq_nil_iff.2 (by simp [RegId.isM])]; simp)

theorem writes_le (c : Ctx) (i : Instr) : (c.writes i).length ≤ 3 := by
  unfold Ctx.writes
  split <;> first
    | (refine Nat.le_trans (List.length_filter_le _ _) ?_; simp; done)
    | (split <;> simp; done)
    | simp

theorem scalar_reads (i : Instr) (sl : SlotId) (h : i.slot = some sl) (hs : sl = .c ∨ sl = .x) : i.vectorReads = 0 := by
  unfold Instr.vectorReads
  split <;> first | rfl | (exfalso; rcases hs with rfl | rfl <;> cases h)

/-- What of `Fits` depends on the instruction. -/
theorem fits_of {c : Ctx} {i : Instr} {sl : SlotId} (hs : i.slot = some sl) (hn : i ≠ .nop)
    (hb : ∀ g cls code raw, i = .boundInstruction g cls code raw → (c.binding cls code).isSome)
    (ho : ∀ o, i.loopOffset = some o → 1 ≤ o) (ht : ∀ g, i = .tret g → (c.creg 0x062).getLsbD 15 = true) : Fits c i sl :=
  ⟨hs, hn, hb, Nat.le_trans (vectorReads_le i) (by decide), scalar_reads i sl hs, moments_le i, writes_le c i, ho, ht⟩

/-! ## Registers as an undisturbed context reads them -/

theorem rdX_calm {s : State} {core plat : Nat} (h : Calm s core plat) (n : BitVec 6) :
    (s.ctx core plat).rdX n = s.xAt core plat n := by
  simp [Ctx.rdX, Ctx.operand, h.override, Regs.bits, State.xAt]
theorem rdA_calm {s : State} {core plat : Nat} (h : Calm s core plat) (n : BitVec 5) :
    (s.ctx core plat).rdA n = s.aAt core plat n := by
  simp [Ctx.rdA, Ctx.operand, h.override, Regs.bits, State.aAt]
theorem rdV_calm {s : State} {core plat : Nat} (h : Calm s core plat) (n : BitVec 11) :
    (s.ctx core plat).rdV n = s.vAt core plat n := by
  simp [Ctx.rdV, Ctx.operand, h.override, Regs.bits, State.vAt]
theorem rdM_calm {s : State} {core plat : Nat} (h : Calm s core plat) (n : BitVec 8) :
    (s.ctx core plat).rdM n = s.mAt core plat n := by
  simp [Ctx.rdM, Ctx.operand, h.override, Regs.bits, State.mAt]
theorem rdP_calm {s : State} {core plat : Nat} (h : Calm s core plat) (n : BitVec 4) :
    (s.ctx core plat).rdP n = s.pAt core plat n := by
  simp only [Ctx.rdP, Ctx.operand, h.override, List.lookup, Regs.bits, State.pAt]
  cases (s.ctx core plat).regs.getP n.toNat <;> rfl

/-- A slot instruction that sends one result on its way, its guard true; `v` is the value as the statement writes it. -/
theorem exec_sends {s : State} {core plat : Nat} {g : Guard} {i : Instr} {sl : SlotId} {l : Nat} {w : Env → RegWrite}
    {v : RegWrite} {sem : SlotSem} (h : On s core plat g) (hx : exec i s = issueAlone i sem s) (hs : sem = lands l w)
    (hg : i.guard = some g) (fit : Fits (s.ctx core plat) i sl) (hp : i.pops = false)
    (hv : w (loneEnv s core plat sl i) = v) : exec i s = .next (s.sends core plat i [(l, v)]) := by
  rw [hx, hs, exec_lands h.calm hg h.on fit (by simp [hp]), hv]

/-! ## Slot instructions that act on their own context -/

@[simp] theorem acting_ctx (s : State) (core plat : Nat) (i : Instr) :
    (s.acting core plat i).ctx core plat = (s.ctx core plat).popped i := by simp [State.acting]

@[simp] theorem acting_setCtx (s : State) (core plat : Nat) (i : Instr) (c : Ctx) :
    (s.acting core plat i).setCtx core plat c = (s.begun core).setCtx core plat c := by simp [State.acting]

@[simp] theorem loneEnv_pre (s : State) (core plat : Nat) (sl : SlotId) (i : Instr) :
    (loneEnv s core plat sl i).pre = s.begun core := rfl

@[simp] theorem loneEnv_mpc (s : State) (core plat : Nat) (sl : SlotId) (i : Instr) :
    (loneEnv s core plat sl i).mpc = (s.ctx core plat).flow.pc := by simp [Env.mpc]

/-- A change of the context by a lone instruction, put on the state it acts on. -/
theorem upd_acting (s : State) (core plat : Nat) (sl : SlotId) (i : Instr) (f : Ctx → Ctx) :
    (loneEnv s core plat sl i).upd (s.acting core plat i) f = (s.begun core).setCtx core plat (f ((s.ctx core plat).popped i)) := by
  simp [Env.upd]

/-- The bundle of an instruction that leaves its context as `c1` is complete. -/
def Ctx.done (c1 : Ctx) : Ctx :=
  { c1 with bundles := c1.bundles + 1, safe := none, flow := c1.flow.complete, resume := .none, override := [] }

/-- A slot instruction that leaves its context as `c1`, whose flow has nothing to do after the bundle. -/
theorem exec_done {s : State} {core plat : Nat} {i : Instr} {sl : SlotId} {g : Guard} {sem : SlotSem} {c1 : Ctx}
    {F : Ctx → Ctx} (h : On s core plat g) (hx : exec i s = issueAlone i sem s) (hg : i.guard = some g)
    (fit : Fits (s.ctx core plat) i sl) (hq : i.pops = true → (s.ctx core plat).queue ≠ [])
    (hb : sem.block { loneEnv s core plat sl i with word := none } (s.begun core) = none)
    (hr : sem.run (loneEnv s core plat sl i) (s.acting core plat i) = .done ((s.begun core).setCtx core plat c1))
    (hf : c1.flow.after = none) (he : c1.done = F ((s.ctx core plat).passed i)) :
    exec i s = .next (s.issued core plat i F) := by
  rw [hx, exec_issued (f := fun _ => c1) h.calm hg h.on fit hq hb hr hf]
  exact congrArg (fun c => Host.Outcome.next (s.setCore core ({ s.core core with acted := s.now + 1, last := plat }.setCtx plat c))) he

/-- The bundle is complete where the instruction changed no field that completing it looks at. -/
theorem done_of {s : State} {core plat : Nat} (hc : Calm s core plat) {c1 : Ctx} {i : Instr}
    (h1 : c1.flow = (s.ctx core plat).flow) (h2 : c1.resume = (s.ctx core plat).resume)
    (h3 : c1.override = (s.ctx core plat).override) :
    c1.done = { c1 with bundles := c1.bundles + 1, safe := none, flow := ((s.ctx core plat).passed i).flow } := by
  have e : c1.flow.complete = ((s.ctx core plat).passed i).flow := by
    rw [h1, complete_plain hc.loops hc.xfer hc.after]; rfl
  unfold Ctx.done
  rw [e, ← hc.resume, ← h2, ← hc.override, ← h3]

/-- The bundle is complete where the instruction changed its context's flow only. -/
theorem done_flow {s : State} {core plat : Nat} (hc : Calm s core plat) (i : Instr) (fl : Flow) :
    ({ (s.ctx core plat).popped i with flow := fl }).done = { (s.ctx core plat).passed i with flow := fl.complete } := by
  have h1 : ((s.ctx core plat).popped i).resume = .none := hc.resume
  have h2 : ((s.ctx core plat).popped i).override = [] := hc.override
  unfold Ctx.done Ctx.passed
  rw [← h1, ← h2]
  rfl

/-- A slot instruction that changes its context's flow only. -/
theorem exec_flows {s : State} {core plat : Nat} {i : Instr} {sl : SlotId} {g : Guard} {sem : SlotSem} {fl : Flow}
    {F : Ctx → Ctx} (h : On s core plat g) (hx : exec i s = issueAlone i sem s) (hg : i.guard = some g)
    (fit : Fits (s.ctx core plat) i sl) (hp : i.pops = false)
    (hb : sem.block { loneEnv s core plat sl i with word := none } (s.begun core) = none)
    (hr : sem.run (loneEnv s core plat sl i) (s.acting core plat i) =
      .done ((s.begun core).setCtx core plat { (s.ctx core plat).popped i with flow := fl }))
    (hf : fl.after = none) (he : { (s.ctx core plat).passed i with flow := fl.complete } = F ((s.ctx core plat).passed i)) :
    exec i s = .next (s.issued core plat i F) :=
  exec_done h hx hg fit (by simp [hp]) hb hr hf ((done_flow h.calm i fl).trans he)

/-- A transfer just made: after its own bundle two delay bundles are left (R94). -/
theorem complete_xfer {f : Flow} {t : Nat} {b c : Bool} (hx : f.xfer = some ⟨t, b, 3, c⟩) (ha : f.after = none) :
    f.complete = { f with pc := f.pc + 1, xfer := some ⟨t, b, 2, c⟩ } := by
  cases f
  simp_all [Flow.complete, stepXfer, Flow.advance]

end Sys2Proof.Machine
end

