-- ==== Sys2Proof/Laws/Memory.lean ====
section
/-! SUPPORT. Laws of memory: reading after writing, what a write leaves alone, and that every operation on memory keeps its
canonical form. -/
namespace Sys2Proof.Machine

/-! ## Maps with a default -/

theorem SMap.wf_cons {α : Type} [DecidableEq α] {d : α} {j : Nat} {v : α} {t : SMap α} :
    SMap.wf d ((j, v) :: t) = true ↔ v ≠ d ∧ SMap.above j t = true ∧ SMap.wf d t = true := by
  simp [SMap.wf, Bool.and_eq_true, and_assoc]

theorem SMap.above_of_le {α : Type} {m : SMap α} {j k : Nat} (h : SMap.above k m = true) (hj : j ≤ k) :
    SMap.above j m = true := by
  cases m with
  | nil => rfl
  | cons p t => simp only [SMap.above, decide_eq_true_eq] at *; omega

theorem SMap.above_filter {α : Type} [DecidableEq α] {d : α} {m : SMap α} {j : Nat} (p : Nat × α → Bool)
    (h : SMap.above j m = true) (hw : SMap.wf d m = true) : SMap.above j (m.filter p) = true := by
  induction m with
  | nil => rfl
  | cons q t ih =>
    obtain ⟨i, w⟩ := q
    rw [SMap.wf_cons] at hw
    simp only [List.filter]
    split
    · exact h
    · simp only [SMap.above, decide_eq_true_eq] at h
      exact ih (SMap.above_of_le hw.2.1 (by omega)) hw.2.2

theorem SMap.wf_filter {α : Type} [DecidableEq α] {d : α} {m : SMap α} (p : Nat × α → Bool) (hw : SMap.wf d m = true) :
    SMap.wf d (m.filter p) = true := by
  induction m with
  | nil => rfl
  | cons q t ih =>
    obtain ⟨i, w⟩ := q
    rw [SMap.wf_cons] at hw
    simp only [List.filter]
    split
    · exact SMap.wf_cons.2 ⟨hw.1, SMap.above_filter p hw.2.1 hw.2.2, ih hw.2.2⟩
    · exact ih hw.2.2

theorem SMap.above_insert {α : Type} {m : SMap α} {j k : Nat} {v : α} (h : SMap.above j m = true) (hj : j < k) :
    SMap.above j (SMap.insert m k v) = true := by
  cases m with
  | nil => simp [SMap.insert, SMap.above, hj]
  | cons p t => simp only [SMap.insert]; split <;> simp_all [SMap.above]

theorem SMap.wf_insert {α : Type} [DecidableEq α] {d : α} {m : SMap α} {k : Nat} {v : α} (hw : SMap.wf d m = true)
    (hv : v ≠ d) (hk : ∀ p ∈ m, p.1 ≠ k) : SMap.wf d (SMap.insert m k v) = true := by
  induction m with
  | nil => simp [SMap.insert, SMap.wf, SMap.above, hv]
  | cons p t ih =>
    obtain ⟨i, w⟩ := p
    have h := SMap.wf_cons.1 hw
    have hi : i ≠ k := hk (i, w) (by simp)
    simp only [SMap.insert]
    split
    · exact SMap.wf_cons.2 ⟨hv, by simpa [SMap.above] using (by assumption : k < i), hw⟩
    · exact SMap.wf_cons.2 ⟨h.1, SMap.above_insert h.2.1 (by omega), ih h.2.2 (fun p hp => hk p (by simp [hp]))⟩

theorem SMap.wf_set {α : Type} [DecidableEq α] {d : α} {m : SMap α} (k : Nat) (v : α) (hw : SMap.wf d m = true) :
    SMap.wf d (SMap.set d m k v) = true := by
  simp only [SMap.set]
  split
  · exact SMap.wf_filter _ hw
  · exact SMap.wf_insert (SMap.wf_filter _ hw) (by assumption) (by simp)

theorem SMap.get_insert {α : Type} {d : α} {m : SMap α} (k j : Nat) (v : α) (hk : ∀ p ∈ m, p.1 ≠ k) :
    SMap.get d (SMap.insert m k v) j = if j = k then v else SMap.get d m j := by
  induction m with
  | nil => simp [SMap.insert, SMap.get]
  | cons p t ih =>
    obtain ⟨i, w⟩ := p
    have hi : i ≠ k := hk (i, w) (by simp)
    simp only [SMap.insert]
    split
    · simp [SMap.get]
    · simp only [SMap.get, ih (fun p hp => hk p (by simp [hp]))]
      by_cases hj : j = i
      · rw [if_pos hj, if_neg (by omega), if_pos hj]
      · rw [if_neg hj, if_neg hj]

theorem SMap.get_without {α : Type} {d : α} {m : SMap α} (k j : Nat) :
    SMap.get d (m.filter (fun p => p.1 != k)) j = if j = k then d else SMap.get d m j := by
  induction m with
  | nil => simp [SMap.get]
  | cons p t ih =>
    obtain ⟨i, w⟩ := p
    by_cases hi : i = k
    · rw [List.filter_cons_of_neg (by simp [hi]), ih]
      subst i
      by_cases hj : j = k
      · rw [if_pos hj, if_pos hj]
      · rw [if_neg hj, if_neg hj]; simp [SMap.get, hj]
    · rw [List.filter_cons_of_pos (by simpa using hi)]
      simp only [SMap.get, ih]
      by_cases hj : j = i
      · rw [if_pos hj, if_neg (by omega), if_pos hj]
      · rw [if_neg hj, if_neg hj]

/-- A value after a set: the one set at its key, the old one at every other. -/
theorem SMap.get_set {α : Type} [DecidableEq α] {d : α} {m : SMap α} (k j : Nat) (v : α) :
    SMap.get d (SMap.set d m k v) j = if j = k then v else SMap.get d m j := by
  simp only [SMap.set]
  split
  · rename_i hv; rw [SMap.get_without, hv]
  · rw [SMap.get_insert _ _ _ (by simp), SMap.get_without]
    split <;> rfl

@[simp] theorem SMap.get_set_self {α : Type} [DecidableEq α] {d : α} {m : SMap α} (k : Nat) (v : α) :
    SMap.get d (SMap.set d m k v) k = v := by simp [SMap.get_set]

/-! ## Bytes -/

theorem Mem.wf_write {m : List Host.Cell} (bs : List Byte) (p : Nat) (hw : Mem.wf m = true) :
    Mem.wf (Mem.write m p bs) = true := by
  induction bs generalizing m p with
  | nil => exact hw
  | cons b t ih => exact ih (p + 1) (SMap.wf_set p b hw)

/-- A byte after a write: the written one inside, the old one outside. -/
theorem Mem.byte_write {m : List Host.Cell} (bs : List Byte) (p q : Nat) :
    Mem.byte (Mem.write m p bs) q = if p ≤ q ∧ q < p + bs.length then bs.getD (q - p) 0#8 else Mem.byte m q := by
  induction bs generalizing m p with
  | nil => simp only [Mem.write, List.length_nil]; rw [if_neg (by omega)]
  | cons b t ih =>
    simp only [Mem.write]
    rw [ih (m := Mem.setByte m p b) (p + 1)]
    simp only [List.length_cons]
    by_cases hq : q = p
    · subst q
      rw [if_neg (by omega), if_pos (by omega)]
      simp [Mem.byte, Mem.setByte]
    · by_cases hi : p + 1 ≤ q ∧ q < p + 1 + t.length
      · rw [if_pos hi, if_pos (by omega)]
        obtain ⟨n, rfl⟩ : ∃ n, q = p + 1 + n := ⟨q - (p + 1), by omega⟩
        have h1 : p + 1 + n - (p + 1) = n := by omega
        have h2 : p + 1 + n - p = n + 1 := by omega
        rw [h1, h2]; rfl
      · rw [if_neg hi, if_neg (by omega)]
        simp only [Mem.byte, Mem.setByte]
        rw [SMap.get_set, if_neg hq]

theorem Mem.read_eq (m : List Host.Cell) (p n : Nat) : Mem.read m p n = (List.range n).map (fun i => Mem.byte m (p + i)) := by
  induction n generalizing p with
  | zero => rfl
  | succ k ih =>
    simp only [Mem.read, ih, List.range_succ_eq_map, List.map_cons, List.map_map, Nat.add_zero]
    congr 1
    apply List.map_congr_left
    intro i _
    simp only [Function.comp]
    congr 1
    omega

/-- Bytes within what was written. -/
theorem Mem.read_write {m : List Host.Cell} (bs : List Byte) (p o n : Nat) (hn : o + n ≤ bs.length) :
    Mem.read (Mem.write m p bs) (p + o) n = (bs.drop o).take n := by
  rw [Mem.read_eq]
  apply List.ext_getElem
  · simp; omega
  · intro i h1 h2
    simp only [List.length_map, List.length_range] at h1
    simp only [List.getElem_map, List.getElem_range, List.getElem_take, List.getElem_drop]
    rw [Mem.byte_write bs p _, if_pos (by omega)]
    have : p + o + i - p = o + i := by omega
    rw [this, List.getD_eq_getElem?_getD, List.getElem?_eq_getElem (by omega), Option.getD_some]

/-- Bytes apart from what was written. -/
theorem Mem.read_write_ne {m : List Host.Cell} (bs : List Byte) (p q n : Nat)
    (hn : q + n ≤ p ∨ p + bs.length ≤ q) : Mem.read (Mem.write m p bs) q n = Mem.read m q n := by
  rw [Mem.read_eq, Mem.read_eq]
  apply List.map_congr_left
  intro i hi
  have := List.mem_range.1 hi
  rw [Mem.byte_write bs p _, if_neg (by omega)]

/-! ## Stores -/

theorem State.memWf_store {s : State} (p : Nat) (bs : List Byte) (hw : Mem.wf s.mem = true) :
    Mem.wf (s.store p bs).mem = true := Mem.wf_write bs p hw

theorem State.bytes_store {s : State} (p o n : Nat) (bs : List Byte) (hn : o + n ≤ bs.length) :
    (s.store p bs).bytes (p + o) n = (bs.drop o).take n := Mem.read_write bs p o n hn

theorem State.bytes_store_ne {s : State} (p q n : Nat) (bs : List Byte)
    (hn : q + n ≤ p ∨ p + bs.length ≤ q) : (s.store p bs).bytes q n = s.bytes q n := Mem.read_write_ne bs p q n hn

theorem toBytes_length (n v : Nat) : (toBytes n v).length = n := by
  induction n generalizing v with
  | zero => rfl
  | succ k ih => simp [toBytes, ih]

theorem ofBytes_toBytes (n v : Nat) : ofBytes (toBytes n v) = v % 256 ^ n := by
  induction n generalizing v with
  | zero => simp [toBytes, ofBytes, Nat.mod_one]
  | succ k ih =>
    simp only [toBytes, ofBytes, ih, BitVec.toNat_ofNat, Nat.shiftRight_eq_div_pow]
    have h8 : (2 : Nat) ^ 8 = 256 := rfl
    rw [h8, Nat.pow_succ, Nat.mul_comm (256 ^ k) 256, Nat.mod_mul]

end Sys2Proof.Machine
end

