-- ==== Sys2Proof/Laws/PerInstr.lean ====
section
/-! SUPPORT. The round trip of every instruction through its slot's encoding, one lemma per constructor (R77 to R84). -/
set_option Elab.async false
namespace Sys2Proof.Laws.RoundTrip

/-- A well-formed instruction decodes, in its slot, from its encoding, and a vector one in the other vector slot too; a NOP is an
empty slot, and instructions that stand in no slot have no encoding. -/
def Statement (i : Instr) : Prop :=
  ∀ s, i.slot = some s → i ≠ .nop → i.wf = true →
    decodeSlot s (encode i) = .instr i [] ∧ (s = .v0 → decodeSlot .v1 (encode i) = .instr i [])


theorem nop : Statement .nop := fun _ _ h => absurd rfl h

theorem br (g : Guard) (off : BitVec 24) : Statement (.br g off) := by
  intro s h _ _
  cases h
  have he : encode (.br g off) = head 0x01 g ||| put 14 off := rfl
  have h8 : fld (encode (.br g off)) 0 8 = 0x01#8 := by simp [he]
  exact ⟨decodeSlot_of (by rw [h8]; decide) (by delta readSlot; dsimp only; rw [h8]; simp [he, readGuard]) (by delta slotBad; dsimp only; rw [h8]; rfl), nofun⟩

theorem brx (g : Guard) (xa : BitVec 6) : Statement (.brx g xa) := by
  intro s h _ _
  cases h
  have he : encode (.brx g xa) = head 0x02 g ||| put 14 xa := rfl
  have h8 : fld (encode (.brx g xa)) 0 8 = 0x02#8 := by simp [he]
  exact ⟨decodeSlot_of (by rw [h8]; decide) (by delta readSlot; dsimp only; rw [h8]; simp [he, readGuard]) (by delta slotBad; dsimp only; rw [h8]; rfl), nofun⟩

theorem call (g : Guard) (off : BitVec 24) : Statement (.call g off) := by
  intro s h _ _
  cases h
  have he : encode (.call g off) = head 0x03 g ||| put 14 off := rfl
  have h8 : fld (encode (.call g off)) 0 8 = 0x03#8 := by simp [he]
  exact ⟨decodeSlot_of (by rw [h8]; decide) (by delta readSlot; dsimp only; rw [h8]; simp [he, readGuard]) (by delta slotBad; dsimp only; rw [h8]; rfl), nofun⟩

theorem callx (g : Guard) (xa : BitVec 6) : Statement (.callx g xa) := by
  intro s h _ _
  cases h
  have he : encode (.callx g xa) = head 0x04 g ||| put 14 xa := rfl
  have h8 : fld (encode (.callx g xa)) 0 8 = 0x04#8 := by simp [he]
  exact ⟨decodeSlot_of (by rw [h8]; decide) (by delta readSlot; dsimp only; rw [h8]; simp [he, readGuard]) (by delta slotBad; dsimp only; rw [h8]; rfl), nofun⟩

theorem ret (g : Guard) : Statement (.ret g) := by
  intro s h _ _
  cases h
  have he : encode (.ret g) = head 0x05 g := rfl
  have h8 : fld (encode (.ret g)) 0 8 = 0x05#8 := by simp [he]
  exact ⟨decodeSlot_of (by rw [h8]; decide) (by delta readSlot; dsimp only; rw [h8]; simp [he, readGuard]) (by delta slotBad; dsimp only; rw [h8]; rfl), nofun⟩

theorem halt (g : Guard) : Statement (.halt g) := by
  intro s h _ _
  cases h
  have he : encode (.halt g) = head 0x08 g := rfl
  have h8 : fld (encode (.halt g)) 0 8 = 0x08#8 := by simp [he]
  exact ⟨decodeSlot_of (by rw [h8]; decide) (by delta readSlot; dsimp only; rw [h8]; simp [he, readGuard]) (by delta slotBad; dsimp only; rw [h8]; rfl), nofun⟩

theorem yield (g : Guard) : Statement (.yield g) := by
  intro s h _ _
  cases h
  have he : encode (.yield g) = head 0x09 g := rfl
  have h8 : fld (encode (.yield g)) 0 8 = 0x09#8 := by simp [he]
  exact ⟨decodeSlot_of (by rw [h8]; decide) (by delta readSlot; dsimp only; rw [h8]; simp [he, readGuard]) (by delta slotBad; dsimp only; rw [h8]; rfl), nofun⟩

theorem park (g : Guard) : Statement (.park g) := by
  intro s h _ _
  cases h
  have he : encode (.park g) = head 0x0A g := rfl
  have h8 : fld (encode (.park g)) 0 8 = 0x0A#8 := by simp [he]
  exact ⟨decodeSlot_of (by rw [h8]; decide) (by delta readSlot; dsimp only; rw [h8]; simp [he, readGuard]) (by delta slotBad; dsimp only; rw [h8]; rfl), nofun⟩

theorem tret (g : Guard) : Statement (.tret g) := by
  intro s h _ _
  cases h
  have he : encode (.tret g) = head 0x0C g := rfl
  have h8 : fld (encode (.tret g)) 0 8 = 0x0C#8 := by simp [he]
  exact ⟨decodeSlot_of (by rw [h8]; decide) (by delta readSlot; dsimp only; rw [h8]; simp [he, readGuard]) (by delta slotBad; dsimp only; rw [h8]; rfl), nofun⟩

theorem axleave (g : Guard) : Statement (.axleave g) := by
  intro s h _ _
  cases h
  have he : encode (.axleave g) = head 0x12 g := rfl
  have h8 : fld (encode (.axleave g)) 0 8 = 0x12#8 := by simp [he]
  exact ⟨decodeSlot_of (by rw [h8]; decide) (by delta readSlot; dsimp only; rw [h8]; simp [he, readGuard]) (by delta slotBad; dsimp only; rw [h8]; rfl), nofun⟩

theorem loop (g : Guard) (xa : BitVec 6) (off : BitVec 16) : Statement (.loop g xa off) := by
  intro s h _ _
  cases h
  have he : encode (.loop g xa off) = head 0x06 g ||| put 14 xa ||| put 32 off := rfl
  have h8 : fld (encode (.loop g xa off)) 0 8 = 0x06#8 := by simp [he]
  exact ⟨decodeSlot_of (by rw [h8]; decide) (by delta readSlot; dsimp only; rw [h8]; simp [he, readGuard]) (by delta slotBad; dsimp only; rw [h8]; rfl), nofun⟩

theorem loopi (g : Guard) (count : BitVec 16) (off : BitVec 16) : Statement (.loopi g count off) := by
  intro s h _ _
  cases h
  have he : encode (.loopi g count off) = head 0x07 g ||| put 14 count ||| put 32 off := rfl
  have h8 : fld (encode (.loopi g count off)) 0 8 = 0x07#8 := by simp [he]
  exact ⟨decodeSlot_of (by rw [h8]; decide) (by delta readSlot; dsimp only; rw [h8]; simp [he, readGuard]) (by delta slotBad; dsimp only; rw [h8]; rfl), nofun⟩

theorem trap (g : Guard) (imm : BitVec 16) : Statement (.trap g imm) := by
  intro s h _ _
  cases h
  have he : encode (.trap g imm) = head 0x0B g ||| put 32 imm := rfl
  have h8 : fld (encode (.trap g imm)) 0 8 = 0x0B#8 := by simp [he]
  exact ⟨decodeSlot_of (by rw [h8]; decide) (by delta readSlot; dsimp only; rw [h8]; simp [he, readGuard]) (by delta slotBad; dsimp only; rw [h8]; rfl), nofun⟩

theorem svc (g : Guard) (imm : BitVec 16) : Statement (.svc g imm) := by
  intro s h _ _
  cases h
  have he : encode (.svc g imm) = head 0x0D g ||| put 32 imm := rfl
  have h8 : fld (encode (.svc g imm)) 0 8 = 0x0D#8 := by simp [he]
  exact ⟨decodeSlot_of (by rw [h8]; decide) (by delta readSlot; dsimp only; rw [h8]; simp [he, readGuard]) (by delta slotBad; dsimp only; rw [h8]; rfl), nofun⟩

theorem fence (g : Guard) (pred : ClassSet) (succ : ClassSet) (scope : Scope) : Statement (.fence g pred succ scope) := by
  intro s h _ _
  cases h
  have he : encode (.fence g pred succ scope) = head 0x0E g ||| put 14 pred.code ||| put 18 succ.code ||| put 22 scope.code := rfl
  have h8 : fld (encode (.fence g pred succ scope)) 0 8 = 0x0E#8 := by simp [he]
  exact ⟨decodeSlot_of (by rw [h8]; decide) (by delta readSlot; dsimp only; rw [h8]; simp [he, readGuard]) (by delta slotBad; dsimp only; rw [h8]; simp [he]; cases scope <;> decide), nofun⟩

theorem drain (g : Guard) (scope : Scope) : Statement (.drain g scope) := by
  intro s h _ _
  cases h
  have he : encode (.drain g scope) = head 0x0F g ||| put 22 scope.code := rfl
  have h8 : fld (encode (.drain g scope)) 0 8 = 0x0F#8 := by simp [he]
  exact ⟨decodeSlot_of (by rw [h8]; decide) (by delta readSlot; dsimp only; rw [h8]; simp [he, readGuard]) (by delta slotBad; dsimp only; rw [h8]; simp [he]; cases scope <;> decide), nofun⟩

theorem barc (g : Guard) (xa : BitVec 6) : Statement (.barc g xa) := by
  intro s h _ _
  cases h
  have he : encode (.barc g xa) = head 0x10 g ||| put 14 xa := rfl
  have h8 : fld (encode (.barc g xa)) 0 8 = 0x10#8 := by simp [he]
  exact ⟨decodeSlot_of (by rw [h8]; decide) (by delta readSlot; dsimp only; rw [h8]; simp [he, readGuard]) (by delta slotBad; dsimp only; rw [h8]; rfl), nofun⟩

theorem axenter (g : Guard) (id : BitVec 6) (off : BitVec 16) : Statement (.axenter g id off) := by
  intro s h _ _
  cases h
  have he : encode (.axenter g id off) = head 0x11 g ||| put 14 id ||| put 32 off := rfl
  have h8 : fld (encode (.axenter g id off)) 0 8 = 0x11#8 := by simp [he]
  exact ⟨decodeSlot_of (by rw [h8]; decide) (by delta readSlot; dsimp only; rw [h8]; simp [he, readGuard]) (by delta slotBad; dsimp only; rw [h8]; rfl), nofun⟩

theorem getc (g : Guard) (xd : BitVec 6) (creg : BitVec 12) : Statement (.getc g xd creg) := by
  intro s h _ hw
  cases h
  have he : encode (.getc g xd creg) = head 0x13 g ||| put 14 xd ||| put 20 creg := rfl
  have h8 : fld (encode (.getc g xd creg)) 0 8 = 0x13#8 := by simp [he]
  exact ⟨decodeSlot_of (by rw [h8]; decide) (by delta readSlot; dsimp only; rw [h8]; simp [he, readGuard]) (by have hw : cregAssigned creg.toNat = true := hw; delta slotBad; dsimp only; rw [h8]; simp [he, hw]), nofun⟩

theorem setc (g : Guard) (creg : BitVec 12) (xa : BitVec 6) : Statement (.setc g creg xa) := by
  intro s h _ hw
  cases h
  have he : encode (.setc g creg xa) = head 0x14 g ||| put 20 creg ||| put 14 xa := rfl
  have h8 : fld (encode (.setc g creg xa)) 0 8 = 0x14#8 := by simp [he]
  exact ⟨decodeSlot_of (by rw [h8]; decide) (by delta readSlot; dsimp only; rw [h8]; simp [he, readGuard]) (by have hw : cregWritable creg.toNat = true := hw; delta slotBad; dsimp only; rw [h8]; simp [he, hw]), nofun⟩

theorem setci (g : Guard) (creg : BitVec 12) (imm : BitVec 16) : Statement (.setci g creg imm) := by
  intro s h _ hw
  cases h
  have he : encode (.setci g creg imm) = head 0x15 g ||| put 20 creg ||| put 32 imm := rfl
  have h8 : fld (encode (.setci g creg imm)) 0 8 = 0x15#8 := by simp [he]
  exact ⟨decodeSlot_of (by rw [h8]; decide) (by delta readSlot; dsimp only; rw [h8]; simp [he, readGuard]) (by have hw : cregWritable creg.toNat = true := hw; delta slotBad; dsimp only; rw [h8]; simp [he, hw]), nofun⟩

theorem add (g : Guard) (xd : BitVec 6) (xa : BitVec 6) (xb : BitVec 6) : Statement (.add g xd xa xb) := by
  intro s h _ _
  cases h
  have he : encode (.add g xd xa xb) = head 0x01 g ||| put 14 xd ||| put 20 xa ||| put 26 xb := rfl
  have h8 : fld (encode (.add g xd xa xb)) 0 8 = 0x01#8 := by simp [he]
  exact ⟨decodeSlot_of (by rw [h8]; decide) (by delta readSlot; dsimp only; rw [h8]; simp [he, readGuard]) (by rfl), nofun⟩

theorem sub (g : Guard) (xd : BitVec 6) (xa : BitVec 6) (xb : BitVec 6) : Statement (.sub g xd xa xb) := by
  intro s h _ _
  cases h
  have he : encode (.sub g xd xa xb) = head 0x02 g ||| put 14 xd ||| put 20 xa ||| put 26 xb := rfl
  have h8 : fld (encode (.sub g xd xa xb)) 0 8 = 0x02#8 := by simp [he]
  exact ⟨decodeSlot_of (by rw [h8]; decide) (by delta readSlot; dsimp only; rw [h8]; simp [he, readGuard]) (by rfl), nofun⟩

theorem addi (g : Guard) (xd : BitVec 6) (xa : BitVec 6) (imm : BitVec 16) : Statement (.addi g xd xa imm) := by
  intro s h _ _
  cases h
  have he : encode (.addi g xd xa imm) = head 0x03 g ||| put 14 xd ||| put 20 xa ||| put 32 imm := rfl
  have h8 : fld (encode (.addi g xd xa imm)) 0 8 = 0x03#8 := by simp [he]
  exact ⟨decodeSlot_of (by rw [h8]; decide) (by delta readSlot; dsimp only; rw [h8]; simp [he, readGuard]) (by rfl), nofun⟩

theorem mul (g : Guard) (xd : BitVec 6) (xa : BitVec 6) (xb : BitVec 6) : Statement (.mul g xd xa xb) := by
  intro s h _ _
  cases h
  have he : encode (.mul g xd xa xb) = head 0x04 g ||| put 14 xd ||| put 20 xa ||| put 26 xb := rfl
  have h8 : fld (encode (.mul g xd xa xb)) 0 8 = 0x04#8 := by simp [he]
  exact ⟨decodeSlot_of (by rw [h8]; decide) (by delta readSlot; dsimp only; rw [h8]; simp [he, readGuard]) (by rfl), nofun⟩

theorem mulh (g : Guard) (xd : BitVec 6) (xa : BitVec 6) (xb : BitVec 6) : Statement (.mulh g xd xa xb) := by
  intro s h _ _
  cases h
  have he : encode (.mulh g xd xa xb) = head 0x05 g ||| put 14 xd ||| put 20 xa ||| put 26 xb := rfl
  have h8 : fld (encode (.mulh g xd xa xb)) 0 8 = 0x05#8 := by simp [he]
  exact ⟨decodeSlot_of (by rw [h8]; decide) (by delta readSlot; dsimp only; rw [h8]; simp [he, readGuard]) (by rfl), nofun⟩

theorem mulhu (g : Guard) (xd : BitVec 6) (xa : BitVec 6) (xb : BitVec 6) : Statement (.mulhu g xd xa xb) := by
  intro s h _ _
  cases h
  have he : encode (.mulhu g xd xa xb) = head 0x06 g ||| put 14 xd ||| put 20 xa ||| put 26 xb := rfl
  have h8 : fld (encode (.mulhu g xd xa xb)) 0 8 = 0x06#8 := by simp [he]
  exact ⟨decodeSlot_of (by rw [h8]; decide) (by delta readSlot; dsimp only; rw [h8]; simp [he, readGuard]) (by rfl), nofun⟩

theorem div (g : Guard) (xd : BitVec 6) (xa : BitVec 6) (xb : BitVec 6) : Statement (.div g xd xa xb) := by
  intro s h _ _
  cases h
  have he : encode (.div g xd xa xb) = head 0x07 g ||| put 14 xd ||| put 20 xa ||| put 26 xb := rfl
  have h8 : fld (encode (.div g xd xa xb)) 0 8 = 0x07#8 := by simp [he]
  exact ⟨decodeSlot_of (by rw [h8]; decide) (by delta readSlot; dsimp only; rw [h8]; simp [he, readGuard]) (by rfl), nofun⟩

theorem divu (g : Guard) (xd : BitVec 6) (xa : BitVec 6) (xb : BitVec 6) : Statement (.divu g xd xa xb) := by
  intro s h _ _
  cases h
  have he : encode (.divu g xd xa xb) = head 0x08 g ||| put 14 xd ||| put 20 xa ||| put 26 xb := rfl
  have h8 : fld (encode (.divu g xd xa xb)) 0 8 = 0x08#8 := by simp [he]
  exact ⟨decodeSlot_of (by rw [h8]; decide) (by delta readSlot; dsimp only; rw [h8]; simp [he, readGuard]) (by rfl), nofun⟩

theorem rem (g : Guard) (xd : BitVec 6) (xa : BitVec 6) (xb : BitVec 6) : Statement (.rem g xd xa xb) := by
  intro s h _ _
  cases h
  have he : encode (.rem g xd xa xb) = head 0x09 g ||| put 14 xd ||| put 20 xa ||| put 26 xb := rfl
  have h8 : fld (encode (.rem g xd xa xb)) 0 8 = 0x09#8 := by simp [he]
  exact ⟨decodeSlot_of (by rw [h8]; decide) (by delta readSlot; dsimp only; rw [h8]; simp [he, readGuard]) (by rfl), nofun⟩

theorem remu (g : Guard) (xd : BitVec 6) (xa : BitVec 6) (xb : BitVec 6) : Statement (.remu g xd xa xb) := by
  intro s h _ _
  cases h
  have he : encode (.remu g xd xa xb) = head 0x0A g ||| put 14 xd ||| put 20 xa ||| put 26 xb := rfl
  have h8 : fld (encode (.remu g xd xa xb)) 0 8 = 0x0A#8 := by simp [he]
  exact ⟨decodeSlot_of (by rw [h8]; decide) (by delta readSlot; dsimp only; rw [h8]; simp [he, readGuard]) (by rfl), nofun⟩

theorem and (g : Guard) (xd : BitVec 6) (xa : BitVec 6) (xb : BitVec 6) : Statement (.and g xd xa xb) := by
  intro s h _ _
  cases h
  have he : encode (.and g xd xa xb) = head 0x0B g ||| put 14 xd ||| put 20 xa ||| put 26 xb := rfl
  have h8 : fld (encode (.and g xd xa xb)) 0 8 = 0x0B#8 := by simp [he]
  exact ⟨decodeSlot_of (by rw [h8]; decide) (by delta readSlot; dsimp only; rw [h8]; simp [he, readGuard]) (by rfl), nofun⟩

theorem or (g : Guard) (xd : BitVec 6) (xa : BitVec 6) (xb : BitVec 6) : Statement (.or g xd xa xb) := by
  intro s h _ _
  cases h
  have he : encode (.or g xd xa xb) = head 0x0C g ||| put 14 xd ||| put 20 xa ||| put 26 xb := rfl
  have h8 : fld (encode (.or g xd xa xb)) 0 8 = 0x0C#8 := by simp [he]
  exact ⟨decodeSlot_of (by rw [h8]; decide) (by delta readSlot; dsimp only; rw [h8]; simp [he, readGuard]) (by rfl), nofun⟩

theorem xor (g : Guard) (xd : BitVec 6) (xa : BitVec 6) (xb : BitVec 6) : Statement (.xor g xd xa xb) := by
  intro s h _ _
  cases h
  have he : encode (.xor g xd xa xb) = head 0x0D g ||| put 14 xd ||| put 20 xa ||| put 26 xb := rfl
  have h8 : fld (encode (.xor g xd xa xb)) 0 8 = 0x0D#8 := by simp [he]
  exact ⟨decodeSlot_of (by rw [h8]; decide) (by delta readSlot; dsimp only; rw [h8]; simp [he, readGuard]) (by rfl), nofun⟩

theorem andi (g : Guard) (xd : BitVec 6) (xa : BitVec 6) (imm : BitVec 16) : Statement (.andi g xd xa imm) := by
  intro s h _ _
  cases h
  have he : encode (.andi g xd xa imm) = head 0x0E g ||| put 14 xd ||| put 20 xa ||| put 32 imm := rfl
  have h8 : fld (encode (.andi g xd xa imm)) 0 8 = 0x0E#8 := by simp [he]
  exact ⟨decodeSlot_of (by rw [h8]; decide) (by delta readSlot; dsimp only; rw [h8]; simp [he, readGuard]) (by rfl), nofun⟩

theorem ori (g : Guard) (xd : BitVec 6) (xa : BitVec 6) (imm : BitVec 16) : Statement (.ori g xd xa imm) := by
  intro s h _ _
  cases h
  have he : encode (.ori g xd xa imm) = head 0x0F g ||| put 14 xd ||| put 20 xa ||| put 32 imm := rfl
  have h8 : fld (encode (.ori g xd xa imm)) 0 8 = 0x0F#8 := by simp [he]
  exact ⟨decodeSlot_of (by rw [h8]; decide) (by delta readSlot; dsimp only; rw [h8]; simp [he, readGuard]) (by rfl), nofun⟩

theorem xori (g : Guard) (xd : BitVec 6) (xa : BitVec 6) (imm : BitVec 16) : Statement (.xori g xd xa imm) := by
  intro s h _ _
  cases h
  have he : encode (.xori g xd xa imm) = head 0x10 g ||| put 14 xd ||| put 20 xa ||| put 32 imm := rfl
  have h8 : fld (encode (.xori g xd xa imm)) 0 8 = 0x10#8 := by simp [he]
  exact ⟨decodeSlot_of (by rw [h8]; decide) (by delta readSlot; dsimp only; rw [h8]; simp [he, readGuard]) (by rfl), nofun⟩

theorem shl (g : Guard) (xd : BitVec 6) (xa : BitVec 6) (xb : BitVec 6) : Statement (.shl g xd xa xb) := by
  intro s h _ _
  cases h
  have he : encode (.shl g xd xa xb) = head 0x11 g ||| put 14 xd ||| put 20 xa ||| put 26 xb := rfl
  have h8 : fld (encode (.shl g xd xa xb)) 0 8 = 0x11#8 := by simp [he]
  exact ⟨decodeSlot_of (by rw [h8]; decide) (by delta readSlot; dsimp only; rw [h8]; simp [he, readGuard]) (by rfl), nofun⟩

theorem shr (g : Guard) (xd : BitVec 6) (xa : BitVec 6) (xb : BitVec 6) : Statement (.shr g xd xa xb) := by
  intro s h _ _
  cases h
  have he : encode (.shr g xd xa xb) = head 0x12 g ||| put 14 xd ||| put 20 xa ||| put 26 xb := rfl
  have h8 : fld (encode (.shr g xd xa xb)) 0 8 = 0x12#8 := by simp [he]
  exact ⟨decodeSlot_of (by rw [h8]; decide) (by delta readSlot; dsimp only; rw [h8]; simp [he, readGuard]) (by rfl), nofun⟩

theorem sra (g : Guard) (xd : BitVec 6) (xa : BitVec 6) (xb : BitVec 6) : Statement (.sra g xd xa xb) := by
  intro s h _ _
  cases h
  have he : encode (.sra g xd xa xb) = head 0x13 g ||| put 14 xd ||| put 20 xa ||| put 26 xb := rfl
  have h8 : fld (encode (.sra g xd xa xb)) 0 8 = 0x13#8 := by simp [he]
  exact ⟨decodeSlot_of (by rw [h8]; decide) (by delta readSlot; dsimp only; rw [h8]; simp [he, readGuard]) (by rfl), nofun⟩

theorem shli (g : Guard) (xd : BitVec 6) (xa : BitVec 6) (imm : BitVec 6) : Statement (.shli g xd xa imm) := by
  intro s h _ _
  cases h
  have he : encode (.shli g xd xa imm) = head 0x14 g ||| put 14 xd ||| put 20 xa ||| put 32 imm := rfl
  have h8 : fld (encode (.shli g xd xa imm)) 0 8 = 0x14#8 := by simp [he]
  exact ⟨decodeSlot_of (by rw [h8]; decide) (by delta readSlot; dsimp only; rw [h8]; simp [he, readGuard]) (by rfl), nofun⟩

theorem shri (g : Guard) (xd : BitVec 6) (xa : BitVec 6) (imm : BitVec 6) : Statement (.shri g xd xa imm) := by
  intro s h _ _
  cases h
  have he : encode (.shri g xd xa imm) = head 0x15 g ||| put 14 xd ||| put 20 xa ||| put 32 imm := rfl
  have h8 : fld (encode (.shri g xd xa imm)) 0 8 = 0x15#8 := by simp [he]
  exact ⟨decodeSlot_of (by rw [h8]; decide) (by delta readSlot; dsimp only; rw [h8]; simp [he, readGuard]) (by rfl), nofun⟩

theorem srai (g : Guard) (xd : BitVec 6) (xa : BitVec 6) (imm : BitVec 6) : Statement (.srai g xd xa imm) := by
  intro s h _ _
  cases h
  have he : encode (.srai g xd xa imm) = head 0x16 g ||| put 14 xd ||| put 20 xa ||| put 32 imm := rfl
  have h8 : fld (encode (.srai g xd xa imm)) 0 8 = 0x16#8 := by simp [he]
  exact ⟨decodeSlot_of (by rw [h8]; decide) (by delta readSlot; dsimp only; rw [h8]; simp [he, readGuard]) (by rfl), nofun⟩

theorem min (g : Guard) (xd : BitVec 6) (xa : BitVec 6) (xb : BitVec 6) : Statement (.min g xd xa xb) := by
  intro s h _ _
  cases h
  have he : encode (.min g xd xa xb) = head 0x17 g ||| put 14 xd ||| put 20 xa ||| put 26 xb := rfl
  have h8 : fld (encode (.min g xd xa xb)) 0 8 = 0x17#8 := by simp [he]
  exact ⟨decodeSlot_of (by rw [h8]; decide) (by delta readSlot; dsimp only; rw [h8]; simp [he, readGuard]) (by rfl), nofun⟩

theorem max (g : Guard) (xd : BitVec 6) (xa : BitVec 6) (xb : BitVec 6) : Statement (.max g xd xa xb) := by
  intro s h _ _
  cases h
  have he : encode (.max g xd xa xb) = head 0x18 g ||| put 14 xd ||| put 20 xa ||| put 26 xb := rfl
  have h8 : fld (encode (.max g xd xa xb)) 0 8 = 0x18#8 := by simp [he]
  exact ⟨decodeSlot_of (by rw [h8]; decide) (by delta readSlot; dsimp only; rw [h8]; simp [he, readGuard]) (by rfl), nofun⟩

theorem minu (g : Guard) (xd : BitVec 6) (xa : BitVec 6) (xb : BitVec 6) : Statement (.minu g xd xa xb) := by
  intro s h _ _
  cases h
  have he : encode (.minu g xd xa xb) = head 0x19 g ||| put 14 xd ||| put 20 xa ||| put 26 xb := rfl
  have h8 : fld (encode (.minu g xd xa xb)) 0 8 = 0x19#8 := by simp [he]
  exact ⟨decodeSlot_of (by rw [h8]; decide) (by delta readSlot; dsimp only; rw [h8]; simp [he, readGuard]) (by rfl), nofun⟩

theorem maxu (g : Guard) (xd : BitVec 6) (xa : BitVec 6) (xb : BitVec 6) : Statement (.maxu g xd xa xb) := by
  intro s h _ _
  cases h
  have he : encode (.maxu g xd xa xb) = head 0x1A g ||| put 14 xd ||| put 20 xa ||| put 26 xb := rfl
  have h8 : fld (encode (.maxu g xd xa xb)) 0 8 = 0x1A#8 := by simp [he]
  exact ⟨decodeSlot_of (by rw [h8]; decide) (by delta readSlot; dsimp only; rw [h8]; simp [he, readGuard]) (by rfl), nofun⟩

theorem clz (g : Guard) (xd : BitVec 6) (xa : BitVec 6) : Statement (.clz g xd xa) := by
  intro s h _ _
  cases h
  have he : encode (.clz g xd xa) = head 0x1B g ||| put 14 xd ||| put 20 xa := rfl
  have h8 : fld (encode (.clz g xd xa)) 0 8 = 0x1B#8 := by simp [he]
  exact ⟨decodeSlot_of (by rw [h8]; decide) (by delta readSlot; dsimp only; rw [h8]; simp [he, readGuard]) (by rfl), nofun⟩

theorem popc (g : Guard) (xd : BitVec 6) (xa : BitVec 6) : Statement (.popc g xd xa) := by
  intro s h _ _
  cases h
  have he : encode (.popc g xd xa) = head 0x1C g ||| put 14 xd ||| put 20 xa := rfl
  have h8 : fld (encode (.popc g xd xa)) 0 8 = 0x1C#8 := by simp [he]
  exact ⟨decodeSlot_of (by rw [h8]; decide) (by delta readSlot; dsimp only; rw [h8]; simp [he, readGuard]) (by rfl), nofun⟩

theorem li (g : Guard) (xd : BitVec 6) (imm : BitVec 28) : Statement (.li g xd imm) := by
  intro s h _ _
  cases h
  have he : encode (.li g xd imm) = head 0x1D g ||| put 14 xd ||| put 20 imm := rfl
  have h8 : fld (encode (.li g xd imm)) 0 8 = 0x1D#8 := by simp [he]
  exact ⟨decodeSlot_of (by rw [h8]; decide) (by delta readSlot; dsimp only; rw [h8]; simp [he, readGuard]) (by rfl), nofun⟩

theorem lih (g : Guard) (xd : BitVec 6) (imm : BitVec 28) : Statement (.lih g xd imm) := by
  intro s h _ _
  cases h
  have he : encode (.lih g xd imm) = head 0x1E g ||| put 14 xd ||| put 20 imm := rfl
  have h8 : fld (encode (.lih g xd imm)) 0 8 = 0x1E#8 := by simp [he]
  exact ⟨decodeSlot_of (by rw [h8]; decide) (by delta readSlot; dsimp only; rw [h8]; simp [he, readGuard]) (by rfl), nofun⟩

theorem sel (g : Guard) (xd : BitVec 6) (pa : BitVec 4) (xa : BitVec 6) (xb : BitVec 6) : Statement (.sel g xd pa xa xb) := by
  intro s h _ _
  cases h
  have he : encode (.sel g xd pa xa xb) = head 0x1F g ||| put 14 xd ||| put 32 pa ||| put 20 xa ||| put 26 xb := rfl
  have h8 : fld (encode (.sel g xd pa xa xb)) 0 8 = 0x1F#8 := by simp [he]
  exact ⟨decodeSlot_of (by rw [h8]; decide) (by delta readSlot; dsimp only; rw [h8]; simp [he, readGuard]) (by rfl), nofun⟩

theorem cmpeq (g : Guard) (pd : BitVec 4) (xa : BitVec 6) (xb : BitVec 6) : Statement (.cmpeq g pd xa xb) := by
  intro s h _ _
  cases h
  have he : encode (.cmpeq g pd xa xb) = head 0x20 g ||| put 14 pd ||| put 20 xa ||| put 26 xb := rfl
  have h8 : fld (encode (.cmpeq g pd xa xb)) 0 8 = 0x20#8 := by simp [he]
  exact ⟨decodeSlot_of (by rw [h8]; decide) (by delta readSlot; dsimp only; rw [h8]; simp [he, readGuard]) (by rfl), nofun⟩

theorem cmpne (g : Guard) (pd : BitVec 4) (xa : BitVec 6) (xb : BitVec 6) : Statement (.cmpne g pd xa xb) := by
  intro s h _ _
  cases h
  have he : encode (.cmpne g pd xa xb) = head 0x21 g ||| put 14 pd ||| put 20 xa ||| put 26 xb := rfl
  have h8 : fld (encode (.cmpne g pd xa xb)) 0 8 = 0x21#8 := by simp [he]
  exact ⟨decodeSlot_of (by rw [h8]; decide) (by delta readSlot; dsimp only; rw [h8]; simp [he, readGuard]) (by rfl), nofun⟩

theorem cmplt (g : Guard) (pd : BitVec 4) (xa : BitVec 6) (xb : BitVec 6) : Statement (.cmplt g pd xa xb) := by
  intro s h _ _
  cases h
  have he : encode (.cmplt g pd xa xb) = head 0x22 g ||| put 14 pd ||| put 20 xa ||| put 26 xb := rfl
  have h8 : fld (encode (.cmplt g pd xa xb)) 0 8 = 0x22#8 := by simp [he]
  exact ⟨decodeSlot_of (by rw [h8]; decide) (by delta readSlot; dsimp only; rw [h8]; simp [he, readGuard]) (by rfl), nofun⟩

theorem cmpltu (g : Guard) (pd : BitVec 4) (xa : BitVec 6) (xb : BitVec 6) : Statement (.cmpltu g pd xa xb) := by
  intro s h _ _
  cases h
  have he : encode (.cmpltu g pd xa xb) = head 0x23 g ||| put 14 pd ||| put 20 xa ||| put 26 xb := rfl
  have h8 : fld (encode (.cmpltu g pd xa xb)) 0 8 = 0x23#8 := by simp [he]
  exact ⟨decodeSlot_of (by rw [h8]; decide) (by delta readSlot; dsimp only; rw [h8]; simp [he, readGuard]) (by rfl), nofun⟩

theorem cmple (g : Guard) (pd : BitVec 4) (xa : BitVec 6) (xb : BitVec 6) : Statement (.cmple g pd xa xb) := by
  intro s h _ _
  cases h
  have he : encode (.cmple g pd xa xb) = head 0x24 g ||| put 14 pd ||| put 20 xa ||| put 26 xb := rfl
  have h8 : fld (encode (.cmple g pd xa xb)) 0 8 = 0x24#8 := by simp [he]
  exact ⟨decodeSlot_of (by rw [h8]; decide) (by delta readSlot; dsimp only; rw [h8]; simp [he, readGuard]) (by rfl), nofun⟩

theorem cmpleu (g : Guard) (pd : BitVec 4) (xa : BitVec 6) (xb : BitVec 6) : Statement (.cmpleu g pd xa xb) := by
  intro s h _ _
  cases h
  have he : encode (.cmpleu g pd xa xb) = head 0x25 g ||| put 14 pd ||| put 20 xa ||| put 26 xb := rfl
  have h8 : fld (encode (.cmpleu g pd xa xb)) 0 8 = 0x25#8 := by simp [he]
  exact ⟨decodeSlot_of (by rw [h8]; decide) (by delta readSlot; dsimp only; rw [h8]; simp [he, readGuard]) (by rfl), nofun⟩

theorem cmpeqi (g : Guard) (pd : BitVec 4) (xa : BitVec 6) (imm : BitVec 16) : Statement (.cmpeqi g pd xa imm) := by
  intro s h _ _
  cases h
  have he : encode (.cmpeqi g pd xa imm) = head 0x26 g ||| put 14 pd ||| put 20 xa ||| put 32 imm := rfl
  have h8 : fld (encode (.cmpeqi g pd xa imm)) 0 8 = 0x26#8 := by simp [he]
  exact ⟨decodeSlot_of (by rw [h8]; decide) (by delta readSlot; dsimp only; rw [h8]; simp [he, readGuard]) (by rfl), nofun⟩

theorem cmplti (g : Guard) (pd : BitVec 4) (xa : BitVec 6) (imm : BitVec 16) : Statement (.cmplti g pd xa imm) := by
  intro s h _ _
  cases h
  have he : encode (.cmplti g pd xa imm) = head 0x27 g ||| put 14 pd ||| put 20 xa ||| put 32 imm := rfl
  have h8 : fld (encode (.cmplti g pd xa imm)) 0 8 = 0x27#8 := by simp [he]
  exact ⟨decodeSlot_of (by rw [h8]; decide) (by delta readSlot; dsimp only; rw [h8]; simp [he, readGuard]) (by rfl), nofun⟩

theorem pand (g : Guard) (pd : BitVec 4) (pa : BitVec 4) (pb : BitVec 4) : Statement (.pand g pd pa pb) := by
  intro s h _ _
  cases h
  have he : encode (.pand g pd pa pb) = head 0x28 g ||| put 14 pd ||| put 20 pa ||| put 26 pb := rfl
  have h8 : fld (encode (.pand g pd pa pb)) 0 8 = 0x28#8 := by simp [he]
  exact ⟨decodeSlot_of (by rw [h8]; decide) (by delta readSlot; dsimp only; rw [h8]; simp [he, readGuard]) (by rfl), nofun⟩

theorem por (g : Guard) (pd : BitVec 4) (pa : BitVec 4) (pb : BitVec 4) : Statement (.por g pd pa pb) := by
  intro s h _ _
  cases h
  have he : encode (.por g pd pa pb) = head 0x29 g ||| put 14 pd ||| put 20 pa ||| put 26 pb := rfl
  have h8 : fld (encode (.por g pd pa pb)) 0 8 = 0x29#8 := by simp [he]
  exact ⟨decodeSlot_of (by rw [h8]; decide) (by delta readSlot; dsimp only; rw [h8]; simp [he, readGuard]) (by rfl), nofun⟩

theorem pxor (g : Guard) (pd : BitVec 4) (pa : BitVec 4) (pb : BitVec 4) : Statement (.pxor g pd pa pb) := by
  intro s h _ _
  cases h
  have he : encode (.pxor g pd pa pb) = head 0x2A g ||| put 14 pd ||| put 20 pa ||| put 26 pb := rfl
  have h8 : fld (encode (.pxor g pd pa pb)) 0 8 = 0x2A#8 := by simp [he]
  exact ⟨decodeSlot_of (by rw [h8]; decide) (by delta readSlot; dsimp only; rw [h8]; simp [he, readGuard]) (by rfl), nofun⟩

theorem pnot (g : Guard) (pd : BitVec 4) (pa : BitVec 4) : Statement (.pnot g pd pa) := by
  intro s h _ _
  cases h
  have he : encode (.pnot g pd pa) = head 0x2B g ||| put 14 pd ||| put 20 pa := rfl
  have h8 : fld (encode (.pnot g pd pa)) 0 8 = 0x2B#8 := by simp [he]
  exact ⟨decodeSlot_of (by rw [h8]; decide) (by delta readSlot; dsimp only; rw [h8]; simp [he, readGuard]) (by rfl), nofun⟩

theorem movxa (g : Guard) (ad : BitVec 5) (xa : BitVec 6) : Statement (.movxa g ad xa) := by
  intro s h _ _
  cases h
  have he : encode (.movxa g ad xa) = head 0x2C g ||| put 14 ad ||| put 20 xa := rfl
  have h8 : fld (encode (.movxa g ad xa)) 0 8 = 0x2C#8 := by simp [he]
  exact ⟨decodeSlot_of (by rw [h8]; decide) (by delta readSlot; dsimp only; rw [h8]; simp [he, readGuard]) (by rfl), nofun⟩

theorem movax (g : Guard) (xd : BitVec 6) (aa : BitVec 5) : Statement (.movax g xd aa) := by
  intro s h _ _
  cases h
  have he : encode (.movax g xd aa) = head 0x2D g ||| put 14 xd ||| put 20 aa := rfl
  have h8 : fld (encode (.movax g xd aa)) 0 8 = 0x2D#8 := by simp [he]
  exact ⟨decodeSlot_of (by rw [h8]; decide) (by delta readSlot; dsimp only; rw [h8]; simp [he, readGuard]) (by rfl), nofun⟩

theorem aadd (g : Guard) (ad : BitVec 5) (ab : BitVec 5) (xa : BitVec 6) : Statement (.aadd g ad ab xa) := by
  intro s h _ _
  cases h
  have he : encode (.aadd g ad ab xa) = head 0x01 g ||| put 14 ad ||| put 19 ab ||| put 46 xa := rfl
  have h8 : fld (encode (.aadd g ad ab xa)) 0 8 = 0x01#8 := by simp [he]
  exact ⟨decodeSlot_of (by rw [h8]; decide) (by delta readSlot; dsimp only; rw [h8]; simp [he, readGuard]) (by delta slotBad; dsimp only; rw [h8]; rfl), nofun⟩

theorem aaddi (g : Guard) (ad : BitVec 5) (ab : BitVec 5) (imm : BitVec 29) : Statement (.aaddi g ad ab imm) := by
  intro s h _ _
  cases h
  have he : encode (.aaddi g ad ab imm) = head 0x02 g ||| put 14 ad ||| put 19 ab ||| put 35 imm := rfl
  have h8 : fld (encode (.aaddi g ad ab imm)) 0 8 = 0x02#8 := by simp [he]
  exact ⟨decodeSlot_of (by rw [h8]; decide) (by delta readSlot; dsimp only; rw [h8]; simp [he, readGuard]) (by delta slotBad; dsimp only; rw [h8]; rfl), nofun⟩

theorem ali (g : Guard) (ad : BitVec 5) (imm : BitVec 45) : Statement (.ali g ad imm) := by
  intro s h _ _
  cases h
  have he : encode (.ali g ad imm) = head 0x03 g ||| put 14 ad ||| put 19 imm := rfl
  have h8 : fld (encode (.ali g ad imm)) 0 8 = 0x03#8 := by simp [he]
  exact ⟨decodeSlot_of (by rw [h8]; decide) (by delta readSlot; dsimp only; rw [h8]; simp [he, readGuard]) (by delta slotBad; dsimp only; rw [h8]; rfl), nofun⟩

theorem vld (g : Guard) (vd : BitVec 11) (aa : BitVec 5) (off : BitVec 10) : Statement (.vld g vd aa off) := by
  intro s h _ _
  cases h
  have he : encode (.vld g vd aa off) = head 0x04 g ||| put 24 vd ||| put 14 aa ||| put 54 off := rfl
  have h8 : fld (encode (.vld g vd aa off)) 0 8 = 0x04#8 := by simp [he]
  exact ⟨decodeSlot_of (by rw [h8]; decide) (by delta readSlot; dsimp only; rw [h8]; simp [he, readGuard]) (by delta slotBad; dsimp only; rw [h8]; rfl), nofun⟩

theorem vst (g : Guard) (va : BitVec 11) (aa : BitVec 5) (off : BitVec 10) : Statement (.vst g va aa off) := by
  intro s h _ _
  cases h
  have he : encode (.vst g va aa off) = head 0x05 g ||| put 24 va ||| put 14 aa ||| put 54 off := rfl
  have h8 : fld (encode (.vst g va aa off)) 0 8 = 0x05#8 := by simp [he]
  exact ⟨decodeSlot_of (by rw [h8]; decide) (by delta readSlot; dsimp only; rw [h8]; simp [he, readGuard]) (by delta slotBad; dsimp only; rw [h8]; rfl), nofun⟩

theorem vlds (g : Guard) (vd : BitVec 11) (aa : BitVec 5) (off : BitVec 10) : Statement (.vlds g vd aa off) := by
  intro s h _ _
  cases h
  have he : encode (.vlds g vd aa off) = head 0x06 g ||| put 24 vd ||| put 14 aa ||| put 54 off := rfl
  have h8 : fld (encode (.vlds g vd aa off)) 0 8 = 0x06#8 := by simp [he]
  exact ⟨decodeSlot_of (by rw [h8]; decide) (by delta readSlot; dsimp only; rw [h8]; simp [he, readGuard]) (by delta slotBad; dsimp only; rw [h8]; rfl), nofun⟩

theorem vsts (g : Guard) (va : BitVec 11) (aa : BitVec 5) (off : BitVec 10) : Statement (.vsts g va aa off) := by
  intro s h _ _
  cases h
  have he : encode (.vsts g va aa off) = head 0x07 g ||| put 24 va ||| put 14 aa ||| put 54 off := rfl
  have h8 : fld (encode (.vsts g va aa off)) 0 8 = 0x07#8 := by simp [he]
  exact ⟨decodeSlot_of (by rw [h8]; decide) (by delta readSlot; dsimp only; rw [h8]; simp [he, readGuard]) (by delta slotBad; dsimp only; rw [h8]; rfl), nofun⟩

theorem vldr (g : Guard) (vd : BitVec 11) (aa : BitVec 5) (off : BitVec 10) : Statement (.vldr g vd aa off) := by
  intro s h _ _
  cases h
  have he : encode (.vldr g vd aa off) = head 0x0C g ||| put 24 vd ||| put 14 aa ||| put 54 off := rfl
  have h8 : fld (encode (.vldr g vd aa off)) 0 8 = 0x0C#8 := by simp [he]
  exact ⟨decodeSlot_of (by rw [h8]; decide) (by delta readSlot; dsimp only; rw [h8]; simp [he, readGuard]) (by delta slotBad; dsimp only; rw [h8]; rfl), nofun⟩

theorem vstr (g : Guard) (va : BitVec 11) (aa : BitVec 5) (off : BitVec 10) : Statement (.vstr g va aa off) := by
  intro s h _ _
  cases h
  have he : encode (.vstr g va aa off) = head 0x0D g ||| put 24 va ||| put 14 aa ||| put 54 off := rfl
  have h8 : fld (encode (.vstr g va aa off)) 0 8 = 0x0D#8 := by simp [he]
  exact ⟨decodeSlot_of (by rw [h8]; decide) (by delta readSlot; dsimp only; rw [h8]; simp [he, readGuard]) (by delta slotBad; dsimp only; rw [h8]; rfl), nofun⟩

theorem vgath (g : Guard) (sz : Sz) (vd : BitVec 11) (aa : BitVec 5) (vi : BitVec 11) : Statement (.vgath g sz vd aa vi) := by
  intro s h _ _
  cases h
  have he : encode (.vgath g sz vd aa vi) = head 0x08 g ||| put 52 sz.code ||| put 24 vd ||| put 14 aa ||| put 35 vi := rfl
  have h8 : fld (encode (.vgath g sz vd aa vi)) 0 8 = 0x08#8 := by simp [he]
  exact ⟨decodeSlot_of (by rw [h8]; decide) (by delta readSlot; dsimp only; rw [h8]; simp [he, readGuard]) (by delta slotBad; dsimp only; rw [h8]; rfl), nofun⟩

theorem vscat (g : Guard) (sz : Sz) (va : BitVec 11) (aa : BitVec 5) (vi : BitVec 11) : Statement (.vscat g sz va aa vi) := by
  intro s h _ _
  cases h
  have he : encode (.vscat g sz va aa vi) = head 0x09 g ||| put 52 sz.code ||| put 24 va ||| put 14 aa ||| put 35 vi := rfl
  have h8 : fld (encode (.vscat g sz va aa vi)) 0 8 = 0x09#8 := by simp [he]
  exact ⟨decodeSlot_of (by rw [h8]; decide) (by delta readSlot; dsimp only; rw [h8]; simp [he, readGuard]) (by delta slotBad; dsimp only; rw [h8]; rfl), nofun⟩

theorem ldx (g : Guard) (sz : Sz) (xd : BitVec 6) (aa : BitVec 5) (off : BitVec 10) : Statement (.ldx g sz xd aa off) := by
  intro s h _ _
  cases h
  have he : encode (.ldx g sz xd aa off) = head 0x0A g ||| put 52 sz.code ||| put 46 xd ||| put 14 aa ||| put 54 off := rfl
  have h8 : fld (encode (.ldx g sz xd aa off)) 0 8 = 0x0A#8 := by simp [he]
  exact ⟨decodeSlot_of (by rw [h8]; decide) (by delta readSlot; dsimp only; rw [h8]; simp [he, readGuard]) (by delta slotBad; dsimp only; rw [h8]; rfl), nofun⟩

theorem stx (g : Guard) (sz : Sz) (xa : BitVec 6) (aa : BitVec 5) (off : BitVec 10) : Statement (.stx g sz xa aa off) := by
  intro s h _ _
  cases h
  have he : encode (.stx g sz xa aa off) = head 0x0B g ||| put 52 sz.code ||| put 46 xa ||| put 14 aa ||| put 54 off := rfl
  have h8 : fld (encode (.stx g sz xa aa off)) 0 8 = 0x0B#8 := by simp [he]
  exact ⟨decodeSlot_of (by rw [h8]; decide) (by delta readSlot; dsimp only; rw [h8]; simp [he, readGuard]) (by delta slotBad; dsimp only; rw [h8]; rfl), nofun⟩

theorem mld (g : Guard) (md : BitVec 8) (aa : BitVec 5) (off : BitVec 10) : Statement (.mld g md aa off) := by
  intro s h _ _
  cases h
  have he : encode (.mld g md aa off) = head 0x0E g ||| put 24 md ||| put 14 aa ||| put 54 off := rfl
  have h8 : fld (encode (.mld g md aa off)) 0 8 = 0x0E#8 := by simp [he]
  exact ⟨decodeSlot_of (by rw [h8]; decide) (by delta readSlot; dsimp only; rw [h8]; simp [he, readGuard]) (by delta slotBad; dsimp only; rw [h8]; rfl), nofun⟩

theorem mst (g : Guard) (ma : BitVec 8) (aa : BitVec 5) (off : BitVec 10) : Statement (.mst g ma aa off) := by
  intro s h _ _
  cases h
  have he : encode (.mst g ma aa off) = head 0x0F g ||| put 24 ma ||| put 14 aa ||| put 54 off := rfl
  have h8 : fld (encode (.mst g ma aa off)) 0 8 = 0x0F#8 := by simp [he]
  exact ⟨decodeSlot_of (by rw [h8]; decide) (by delta readSlot; dsimp only; rw [h8]; simp [he, readGuard]) (by delta slotBad; dsimp only; rw [h8]; rfl), nofun⟩

theorem tld (g : Guard) (ad : BitVec 5) (ab : BitVec 5) (xa : BitVec 6) : Statement (.tld g ad ab xa) := by
  intro s h _ _
  cases h
  have he : encode (.tld g ad ab xa) = head 0x10 g ||| put 14 ad ||| put 19 ab ||| put 46 xa := rfl
  have h8 : fld (encode (.tld g ad ab xa)) 0 8 = 0x10#8 := by simp [he]
  exact ⟨decodeSlot_of (by rw [h8]; decide) (by delta readSlot; dsimp only; rw [h8]; simp [he, readGuard]) (by delta slotBad; dsimp only; rw [h8]; rfl), nofun⟩

theorem tst (g : Guard) (ad : BitVec 5) (ab : BitVec 5) (xa : BitVec 6) : Statement (.tst g ad ab xa) := by
  intro s h _ _
  cases h
  have he : encode (.tst g ad ab xa) = head 0x11 g ||| put 14 ad ||| put 19 ab ||| put 46 xa := rfl
  have h8 : fld (encode (.tst g ad ab xa)) 0 8 = 0x11#8 := by simp [he]
  exact ⟨decodeSlot_of (by rw [h8]; decide) (by delta readSlot; dsimp only; rw [h8]; simp [he, readGuard]) (by delta slotBad; dsimp only; rw [h8]; rfl), nofun⟩

theorem scopy (g : Guard) (ad : BitVec 5) (ab : BitVec 5) (xa : BitVec 6) : Statement (.scopy g ad ab xa) := by
  intro s h _ _
  cases h
  have he : encode (.scopy g ad ab xa) = head 0x12 g ||| put 14 ad ||| put 19 ab ||| put 46 xa := rfl
  have h8 : fld (encode (.scopy g ad ab xa)) 0 8 = 0x12#8 := by simp [he]
  exact ⟨decodeSlot_of (by rw [h8]; decide) (by delta readSlot; dsimp only; rw [h8]; simp [he, readGuard]) (by delta slotBad; dsimp only; rw [h8]; rfl), nofun⟩

theorem winset (g : Guard) (aa : BitVec 5) (va : BitVec 11) : Statement (.winset g aa va) := by
  intro s h _ _
  cases h
  have he : encode (.winset g aa va) = head 0x13 g ||| put 14 aa ||| put 24 va := rfl
  have h8 : fld (encode (.winset g aa va)) 0 8 = 0x13#8 := by simp [he]
  exact ⟨decodeSlot_of (by rw [h8]; decide) (by delta readSlot; dsimp only; rw [h8]; simp [he, readGuard]) (by delta slotBad; dsimp only; rw [h8]; rfl), nofun⟩

theorem amoadd (g : Guard) (dbl : Bool) (xd : BitVec 6) (aa : BitVec 5) (xn : BitVec 6) : Statement (.amoadd g dbl xd aa xn) := by
  intro s h _ _
  cases h
  have he : encode (.amoadd g dbl xd aa xn) = head 0x18 g ||| put 52 (amoSz dbl) ||| put 46 xd ||| put 14 aa ||| put 54 xn := rfl
  have h8 : fld (encode (.amoadd g dbl xd aa xn)) 0 8 = 0x18#8 := by simp [he]
  exact ⟨decodeSlot_of (by rw [h8]; decide) (by delta readSlot; dsimp only; rw [h8]; simp [he, readGuard, fldB_put, amoSz]; cases dbl <;> rfl) (by delta slotBad; dsimp only; rw [h8]; simp [he]; cases dbl <;> decide), nofun⟩

theorem amoand (g : Guard) (dbl : Bool) (xd : BitVec 6) (aa : BitVec 5) (xn : BitVec 6) : Statement (.amoand g dbl xd aa xn) := by
  intro s h _ _
  cases h
  have he : encode (.amoand g dbl xd aa xn) = head 0x19 g ||| put 52 (amoSz dbl) ||| put 46 xd ||| put 14 aa ||| put 54 xn := rfl
  have h8 : fld (encode (.amoand g dbl xd aa xn)) 0 8 = 0x19#8 := by simp [he]
  exact ⟨decodeSlot_of (by rw [h8]; decide) (by delta readSlot; dsimp only; rw [h8]; simp [he, readGuard, fldB_put, amoSz]; cases dbl <;> rfl) (by delta slotBad; dsimp only; rw [h8]; simp [he]; cases dbl <;> decide), nofun⟩

theorem amoor (g : Guard) (dbl : Bool) (xd : BitVec 6) (aa : BitVec 5) (xn : BitVec 6) : Statement (.amoor g dbl xd aa xn) := by
  intro s h _ _
  cases h
  have he : encode (.amoor g dbl xd aa xn) = head 0x1A g ||| put 52 (amoSz dbl) ||| put 46 xd ||| put 14 aa ||| put 54 xn := rfl
  have h8 : fld (encode (.amoor g dbl xd aa xn)) 0 8 = 0x1A#8 := by simp [he]
  exact ⟨decodeSlot_of (by rw [h8]; decide) (by delta readSlot; dsimp only; rw [h8]; simp [he, readGuard, fldB_put, amoSz]; cases dbl <;> rfl) (by delta slotBad; dsimp only; rw [h8]; simp [he]; cases dbl <;> decide), nofun⟩

theorem amomin (g : Guard) (dbl : Bool) (xd : BitVec 6) (aa : BitVec 5) (xn : BitVec 6) : Statement (.amomin g dbl xd aa xn) := by
  intro s h _ _
  cases h
  have he : encode (.amomin g dbl xd aa xn) = head 0x1B g ||| put 52 (amoSz dbl) ||| put 46 xd ||| put 14 aa ||| put 54 xn := rfl
  have h8 : fld (encode (.amomin g dbl xd aa xn)) 0 8 = 0x1B#8 := by simp [he]
  exact ⟨decodeSlot_of (by rw [h8]; decide) (by delta readSlot; dsimp only; rw [h8]; simp [he, readGuard, fldB_put, amoSz]; cases dbl <;> rfl) (by delta slotBad; dsimp only; rw [h8]; simp [he]; cases dbl <;> decide), nofun⟩

theorem amomax (g : Guard) (dbl : Bool) (xd : BitVec 6) (aa : BitVec 5) (xn : BitVec 6) : Statement (.amomax g dbl xd aa xn) := by
  intro s h _ _
  cases h
  have he : encode (.amomax g dbl xd aa xn) = head 0x1C g ||| put 52 (amoSz dbl) ||| put 46 xd ||| put 14 aa ||| put 54 xn := rfl
  have h8 : fld (encode (.amomax g dbl xd aa xn)) 0 8 = 0x1C#8 := by simp [he]
  exact ⟨decodeSlot_of (by rw [h8]; decide) (by delta readSlot; dsimp only; rw [h8]; simp [he, readGuard, fldB_put, amoSz]; cases dbl <;> rfl) (by delta slotBad; dsimp only; rw [h8]; simp [he]; cases dbl <;> decide), nofun⟩

theorem amoswap (g : Guard) (dbl : Bool) (xd : BitVec 6) (aa : BitVec 5) (xn : BitVec 6) : Statement (.amoswap g dbl xd aa xn) := by
  intro s h _ _
  cases h
  have he : encode (.amoswap g dbl xd aa xn) = head 0x1D g ||| put 52 (amoSz dbl) ||| put 46 xd ||| put 14 aa ||| put 54 xn := rfl
  have h8 : fld (encode (.amoswap g dbl xd aa xn)) 0 8 = 0x1D#8 := by simp [he]
  exact ⟨decodeSlot_of (by rw [h8]; decide) (by delta readSlot; dsimp only; rw [h8]; simp [he, readGuard, fldB_put, amoSz]; cases dbl <;> rfl) (by delta slotBad; dsimp only; rw [h8]; simp [he]; cases dbl <;> decide), nofun⟩

theorem amocas (g : Guard) (dbl : Bool) (xd : BitVec 6) (aa : BitVec 5) (xn : BitVec 6) : Statement (.amocas g dbl xd aa xn) := by
  intro s h _ _
  cases h
  have he : encode (.amocas g dbl xd aa xn) = head 0x1E g ||| put 52 (amoSz dbl) ||| put 46 xd ||| put 14 aa ||| put 54 xn := rfl
  have h8 : fld (encode (.amocas g dbl xd aa xn)) 0 8 = 0x1E#8 := by simp [he]
  exact ⟨decodeSlot_of (by rw [h8]; decide) (by delta readSlot; dsimp only; rw [h8]; simp [he, readGuard, fldB_put, amoSz]; cases dbl <;> rfl) (by delta slotBad; dsimp only; rw [h8]; simp [he]; cases dbl <;> decide), nofun⟩

theorem vadd (g : Guard) (f : Fmt) (rm : Rm) (sat : Bool) (vd : BitVec 11) (va : BitVec 11) (vb : BitVec 11) : Statement (.vadd g f rm sat vd va vb) := by
  intro s h _ hw
  cases h
  have he : encode (.vadd g f rm sat vd va vb) = head 0x01 g ||| put 14 f.code ||| put 61 rm.code ||| putB 63 sat ||| put 17 vd ||| put 28 va ||| put 39 vb := rfl
  have h8 : fld (encode (.vadd g f rm sat vd va vb)) 0 8 = 0x01#8 := by simp [he]
  have hd : decodeSlot .v0 (encode (.vadd g f rm sat vd va vb)) = .instr (.vadd g f rm sat vd va vb) [] := decodeSlot_of (by rw [h8]; decide) (by delta readSlot; dsimp only; rw [h8]; simp [he, readGuard]) (by have hw : rmOk f rm = true := hw; delta slotBad; dsimp only; rw [h8]; simp [he]; clear he h8; revert hw; cases f <;> cases rm <;> decide)
  exact ⟨hd, fun _ => (decodeSlot_v1 _).trans hd⟩

theorem vsub (g : Guard) (f : Fmt) (rm : Rm) (sat : Bool) (vd : BitVec 11) (va : BitVec 11) (vb : BitVec 11) : Statement (.vsub g f rm sat vd va vb) := by
  intro s h _ hw
  cases h
  have he : encode (.vsub g f rm sat vd va vb) = head 0x02 g ||| put 14 f.code ||| put 61 rm.code ||| putB 63 sat ||| put 17 vd ||| put 28 va ||| put 39 vb := rfl
  have h8 : fld (encode (.vsub g f rm sat vd va vb)) 0 8 = 0x02#8 := by simp [he]
  have hd : decodeSlot .v0 (encode (.vsub g f rm sat vd va vb)) = .instr (.vsub g f rm sat vd va vb) [] := decodeSlot_of (by rw [h8]; decide) (by delta readSlot; dsimp only; rw [h8]; simp [he, readGuard]) (by have hw : rmOk f rm = true := hw; delta slotBad; dsimp only; rw [h8]; simp [he]; clear he h8; revert hw; cases f <;> cases rm <;> decide)
  exact ⟨hd, fun _ => (decodeSlot_v1 _).trans hd⟩

theorem vmul (g : Guard) (f : Fmt) (rm : Rm) (sat : Bool) (vd : BitVec 11) (va : BitVec 11) (vb : BitVec 11) : Statement (.vmul g f rm sat vd va vb) := by
  intro s h _ hw
  cases h
  have he : encode (.vmul g f rm sat vd va vb) = head 0x03 g ||| put 14 f.code ||| put 61 rm.code ||| putB 63 sat ||| put 17 vd ||| put 28 va ||| put 39 vb := rfl
  have h8 : fld (encode (.vmul g f rm sat vd va vb)) 0 8 = 0x03#8 := by simp [he]
  have hd : decodeSlot .v0 (encode (.vmul g f rm sat vd va vb)) = .instr (.vmul g f rm sat vd va vb) [] := decodeSlot_of (by rw [h8]; decide) (by delta readSlot; dsimp only; rw [h8]; simp [he, readGuard]) (by have hw : rmOk f rm = true := hw; delta slotBad; dsimp only; rw [h8]; simp [he]; clear he h8; revert hw; cases f <;> cases rm <;> decide)
  exact ⟨hd, fun _ => (decodeSlot_v1 _).trans hd⟩

theorem vfma (g : Guard) (f : Fmt) (rm : Rm) (sat : Bool) (vd : BitVec 11) (va : BitVec 11) (vb : BitVec 11) (vc : BitVec 11) : Statement (.vfma g f rm sat vd va vb vc) := by
  intro s h _ hw
  cases h
  have he : encode (.vfma g f rm sat vd va vb vc) = head 0x04 g ||| put 14 f.code ||| put 61 rm.code ||| putB 63 sat ||| put 17 vd ||| put 28 va ||| put 39 vb ||| put 50 vc := rfl
  have h8 : fld (encode (.vfma g f rm sat vd va vb vc)) 0 8 = 0x04#8 := by simp [he]
  have hd : decodeSlot .v0 (encode (.vfma g f rm sat vd va vb vc)) = .instr (.vfma g f rm sat vd va vb vc) [] := decodeSlot_of (by rw [h8]; decide) (by delta readSlot; dsimp only; rw [h8]; simp [he, readGuard]) (by have hw : rmOk f rm = true := hw; delta slotBad; dsimp only; rw [h8]; simp [he]; clear he h8; revert hw; cases f <;> cases rm <;> decide)
  exact ⟨hd, fun _ => (decodeSlot_v1 _).trans hd⟩

theorem vfms (g : Guard) (f : Fmt) (rm : Rm) (sat : Bool) (vd : BitVec 11) (va : BitVec 11) (vb : BitVec 11) (vc : BitVec 11) : Statement (.vfms g f rm sat vd va vb vc) := by
  intro s h _ hw
  cases h
  have he : encode (.vfms g f rm sat vd va vb vc) = head 0x05 g ||| put 14 f.code ||| put 61 rm.code ||| putB 63 sat ||| put 17 vd ||| put 28 va ||| put 39 vb ||| put 50 vc := rfl
  have h8 : fld (encode (.vfms g f rm sat vd va vb vc)) 0 8 = 0x05#8 := by simp [he]
  have hd : decodeSlot .v0 (encode (.vfms g f rm sat vd va vb vc)) = .instr (.vfms g f rm sat vd va vb vc) [] := decodeSlot_of (by rw [h8]; decide) (by delta readSlot; dsimp only; rw [h8]; simp [he, readGuard]) (by have hw : rmOk f rm = true := hw; delta slotBad; dsimp only; rw [h8]; simp [he]; clear he h8; revert hw; cases f <;> cases rm <;> decide)
  exact ⟨hd, fun _ => (decodeSlot_v1 _).trans hd⟩

theorem vmin (g : Guard) (f : Fmt) (vd : BitVec 11) (va : BitVec 11) (vb : BitVec 11) : Statement (.vmin g f vd va vb) := by
  intro s h _ _
  cases h
  have he : encode (.vmin g f vd va vb) = head 0x06 g ||| put 14 f.code ||| put 17 vd ||| put 28 va ||| put 39 vb := rfl
  have h8 : fld (encode (.vmin g f vd va vb)) 0 8 = 0x06#8 := by simp [he]
  have hd : decodeSlot .v0 (encode (.vmin g f vd va vb)) = .instr (.vmin g f vd va vb) [] := decodeSlot_of (by rw [h8]; decide) (by delta readSlot; dsimp only; rw [h8]; simp [he, readGuard]) (by delta slotBad; dsimp only; rw [h8]; rfl)
  exact ⟨hd, fun _ => (decodeSlot_v1 _).trans hd⟩

theorem vmax (g : Guard) (f : Fmt) (vd : BitVec 11) (va : BitVec 11) (vb : BitVec 11) : Statement (.vmax g f vd va vb) := by
  intro s h _ _
  cases h
  have he : encode (.vmax g f vd va vb) = head 0x07 g ||| put 14 f.code ||| put 17 vd ||| put 28 va ||| put 39 vb := rfl
  have h8 : fld (encode (.vmax g f vd va vb)) 0 8 = 0x07#8 := by simp [he]
  have hd : decodeSlot .v0 (encode (.vmax g f vd va vb)) = .instr (.vmax g f vd va vb) [] := decodeSlot_of (by rw [h8]; decide) (by delta readSlot; dsimp only; rw [h8]; simp [he, readGuard]) (by delta slotBad; dsimp only; rw [h8]; rfl)
  exact ⟨hd, fun _ => (decodeSlot_v1 _).trans hd⟩

theorem vcmpeq (g : Guard) (f : Fmt) (vd : BitVec 11) (va : BitVec 11) (vb : BitVec 11) : Statement (.vcmpeq g f vd va vb) := by
  intro s h _ _
  cases h
  have he : encode (.vcmpeq g f vd va vb) = head 0x11 g ||| put 14 f.code ||| put 17 vd ||| put 28 va ||| put 39 vb := rfl
  have h8 : fld (encode (.vcmpeq g f vd va vb)) 0 8 = 0x11#8 := by simp [he]
  have hd : decodeSlot .v0 (encode (.vcmpeq g f vd va vb)) = .instr (.vcmpeq g f vd va vb) [] := decodeSlot_of (by rw [h8]; decide) (by delta readSlot; dsimp only; rw [h8]; simp [he, readGuard]) (by delta slotBad; dsimp only; rw [h8]; rfl)
  exact ⟨hd, fun _ => (decodeSlot_v1 _).trans hd⟩

theorem vcmplt (g : Guard) (f : Fmt) (vd : BitVec 11) (va : BitVec 11) (vb : BitVec 11) : Statement (.vcmplt g f vd va vb) := by
  intro s h _ _
  cases h
  have he : encode (.vcmplt g f vd va vb) = head 0x12 g ||| put 14 f.code ||| put 17 vd ||| put 28 va ||| put 39 vb := rfl
  have h8 : fld (encode (.vcmplt g f vd va vb)) 0 8 = 0x12#8 := by simp [he]
  have hd : decodeSlot .v0 (encode (.vcmplt g f vd va vb)) = .instr (.vcmplt g f vd va vb) [] := decodeSlot_of (by rw [h8]; decide) (by delta readSlot; dsimp only; rw [h8]; simp [he, readGuard]) (by delta slotBad; dsimp only; rw [h8]; rfl)
  exact ⟨hd, fun _ => (decodeSlot_v1 _).trans hd⟩

theorem vcmple (g : Guard) (f : Fmt) (vd : BitVec 11) (va : BitVec 11) (vb : BitVec 11) : Statement (.vcmple g f vd va vb) := by
  intro s h _ _
  cases h
  have he : encode (.vcmple g f vd va vb) = head 0x13 g ||| put 14 f.code ||| put 17 vd ||| put 28 va ||| put 39 vb := rfl
  have h8 : fld (encode (.vcmple g f vd va vb)) 0 8 = 0x13#8 := by simp [he]
  have hd : decodeSlot .v0 (encode (.vcmple g f vd va vb)) = .instr (.vcmple g f vd va vb) [] := decodeSlot_of (by rw [h8]; decide) (by delta readSlot; dsimp only; rw [h8]; simp [he, readGuard]) (by delta slotBad; dsimp only; rw [h8]; rfl)
  exact ⟨hd, fun _ => (decodeSlot_v1 _).trans hd⟩

theorem vperm (g : Guard) (f : Fmt) (vd : BitVec 11) (va : BitVec 11) (vb : BitVec 11) : Statement (.vperm g f vd va vb) := by
  intro s h _ _
  cases h
  have he : encode (.vperm g f vd va vb) = head 0x1A g ||| put 14 f.code ||| put 17 vd ||| put 28 va ||| put 39 vb := rfl
  have h8 : fld (encode (.vperm g f vd va vb)) 0 8 = 0x1A#8 := by simp [he]
  have hd : decodeSlot .v0 (encode (.vperm g f vd va vb)) = .instr (.vperm g f vd va vb) [] := decodeSlot_of (by rw [h8]; decide) (by delta readSlot; dsimp only; rw [h8]; simp [he, readGuard]) (by delta slotBad; dsimp only; rw [h8]; rfl)
  exact ⟨hd, fun _ => (decodeSlot_v1 _).trans hd⟩

theorem vrot (g : Guard) (f : Fmt) (vd : BitVec 11) (va : BitVec 11) (imm : BitVec 16) : Statement (.vrot g f vd va imm) := by
  intro s h _ _
  cases h
  have he : encode (.vrot g f vd va imm) = head 0x1B g ||| put 14 f.code ||| put 17 vd ||| put 28 va ||| put 64 imm := rfl
  have h8 : fld (encode (.vrot g f vd va imm)) 0 8 = 0x1B#8 := by simp [he]
  have hd : decodeSlot .v0 (encode (.vrot g f vd va imm)) = .instr (.vrot g f vd va imm) [] := decodeSlot_of (by rw [h8]; decide) (by delta readSlot; dsimp only; rw [h8]; simp [he, readGuard]) (by delta slotBad; dsimp only; rw [h8]; rfl)
  exact ⟨hd, fun _ => (decodeSlot_v1 _).trans hd⟩

theorem vshl (g : Guard) (f : Fmt) (vd : BitVec 11) (va : BitVec 11) (vb : BitVec 11) : Statement (.vshl g f vd va vb) := by
  intro s h _ hw
  cases h
  have he : encode (.vshl g f vd va vb) = head 0x0E g ||| put 14 f.code ||| put 17 vd ||| put 28 va ||| put 39 vb := rfl
  have h8 : fld (encode (.vshl g f vd va vb)) 0 8 = 0x0E#8 := by simp [he]
  have hd : decodeSlot .v0 (encode (.vshl g f vd va vb)) = .instr (.vshl g f vd va vb) [] := decodeSlot_of (by rw [h8]; decide) (by delta readSlot; dsimp only; rw [h8]; simp [he, readGuard]) (by have hw : f.isInt = true := hw; delta slotBad; dsimp only; rw [h8]; simp [he, hw])
  exact ⟨hd, fun _ => (decodeSlot_v1 _).trans hd⟩

theorem vshr (g : Guard) (f : Fmt) (vd : BitVec 11) (va : BitVec 11) (vb : BitVec 11) : Statement (.vshr g f vd va vb) := by
  intro s h _ hw
  cases h
  have he : encode (.vshr g f vd va vb) = head 0x0F g ||| put 14 f.code ||| put 17 vd ||| put 28 va ||| put 39 vb := rfl
  have h8 : fld (encode (.vshr g f vd va vb)) 0 8 = 0x0F#8 := by simp [he]
  have hd : decodeSlot .v0 (encode (.vshr g f vd va vb)) = .instr (.vshr g f vd va vb) [] := decodeSlot_of (by rw [h8]; decide) (by delta readSlot; dsimp only; rw [h8]; simp [he, readGuard]) (by have hw : f.isInt = true := hw; delta slotBad; dsimp only; rw [h8]; simp [he, hw])
  exact ⟨hd, fun _ => (decodeSlot_v1 _).trans hd⟩

theorem vsra (g : Guard) (f : Fmt) (vd : BitVec 11) (va : BitVec 11) (vb : BitVec 11) : Statement (.vsra g f vd va vb) := by
  intro s h _ hw
  cases h
  have he : encode (.vsra g f vd va vb) = head 0x10 g ||| put 14 f.code ||| put 17 vd ||| put 28 va ||| put 39 vb := rfl
  have h8 : fld (encode (.vsra g f vd va vb)) 0 8 = 0x10#8 := by simp [he]
  have hd : decodeSlot .v0 (encode (.vsra g f vd va vb)) = .instr (.vsra g f vd va vb) [] := decodeSlot_of (by rw [h8]; decide) (by delta readSlot; dsimp only; rw [h8]; simp [he, readGuard]) (by have hw : f.isInt = true := hw; delta slotBad; dsimp only; rw [h8]; simp [he, hw])
  exact ⟨hd, fun _ => (decodeSlot_v1 _).trans hd⟩

theorem vand (g : Guard) (vd : BitVec 11) (va : BitVec 11) (vb : BitVec 11) : Statement (.vand g vd va vb) := by
  intro s h _ _
  cases h
  have he : encode (.vand g vd va vb) = head 0x0A g ||| put 17 vd ||| put 28 va ||| put 39 vb := rfl
  have h8 : fld (encode (.vand g vd va vb)) 0 8 = 0x0A#8 := by simp [he]
  have hd : decodeSlot .v0 (encode (.vand g vd va vb)) = .instr (.vand g vd va vb) [] := decodeSlot_of (by rw [h8]; decide) (by delta readSlot; dsimp only; rw [h8]; simp [he, readGuard]) (by delta slotBad; dsimp only; rw [h8]; rfl)
  exact ⟨hd, fun _ => (decodeSlot_v1 _).trans hd⟩

theorem vor (g : Guard) (vd : BitVec 11) (va : BitVec 11) (vb : BitVec 11) : Statement (.vor g vd va vb) := by
  intro s h _ _
  cases h
  have he : encode (.vor g vd va vb) = head 0x0B g ||| put 17 vd ||| put 28 va ||| put 39 vb := rfl
  have h8 : fld (encode (.vor g vd va vb)) 0 8 = 0x0B#8 := by simp [he]
  have hd : decodeSlot .v0 (encode (.vor g vd va vb)) = .instr (.vor g vd va vb) [] := decodeSlot_of (by rw [h8]; decide) (by delta readSlot; dsimp only; rw [h8]; simp [he, readGuard]) (by delta slotBad; dsimp only; rw [h8]; rfl)
  exact ⟨hd, fun _ => (decodeSlot_v1 _).trans hd⟩

theorem vxor (g : Guard) (vd : BitVec 11) (va : BitVec 11) (vb : BitVec 11) : Statement (.vxor g vd va vb) := by
  intro s h _ _
  cases h
  have he : encode (.vxor g vd va vb) = head 0x0C g ||| put 17 vd ||| put 28 va ||| put 39 vb := rfl
  have h8 : fld (encode (.vxor g vd va vb)) 0 8 = 0x0C#8 := by simp [he]
  have hd : decodeSlot .v0 (encode (.vxor g vd va vb)) = .instr (.vxor g vd va vb) [] := decodeSlot_of (by rw [h8]; decide) (by delta readSlot; dsimp only; rw [h8]; simp [he, readGuard]) (by delta slotBad; dsimp only; rw [h8]; rfl)
  exact ⟨hd, fun _ => (decodeSlot_v1 _).trans hd⟩

theorem vnot (g : Guard) (vd : BitVec 11) (va : BitVec 11) : Statement (.vnot g vd va) := by
  intro s h _ _
  cases h
  have he : encode (.vnot g vd va) = head 0x0D g ||| put 17 vd ||| put 28 va := rfl
  have h8 : fld (encode (.vnot g vd va)) 0 8 = 0x0D#8 := by simp [he]
  have hd : decodeSlot .v0 (encode (.vnot g vd va)) = .instr (.vnot g vd va) [] := decodeSlot_of (by rw [h8]; decide) (by delta readSlot; dsimp only; rw [h8]; simp [he, readGuard]) (by delta slotBad; dsimp only; rw [h8]; rfl)
  exact ⟨hd, fun _ => (decodeSlot_v1 _).trans hd⟩

theorem vmov (g : Guard) (vd : BitVec 11) (va : BitVec 11) : Statement (.vmov g vd va) := by
  intro s h _ _
  cases h
  have he : encode (.vmov g vd va) = head 0x16 g ||| put 17 vd ||| put 28 va := rfl
  have h8 : fld (encode (.vmov g vd va)) 0 8 = 0x16#8 := by simp [he]
  have hd : decodeSlot .v0 (encode (.vmov g vd va)) = .instr (.vmov g vd va) [] := decodeSlot_of (by rw [h8]; decide) (by delta readSlot; dsimp only; rw [h8]; simp [he, readGuard]) (by delta slotBad; dsimp only; rw [h8]; rfl)
  exact ⟨hd, fun _ => (decodeSlot_v1 _).trans hd⟩

theorem vsel (g : Guard) (vd : BitVec 11) (va : BitVec 11) (vb : BitVec 11) (vc : BitVec 11) : Statement (.vsel g vd va vb vc) := by
  intro s h _ _
  cases h
  have he : encode (.vsel g vd va vb vc) = head 0x14 g ||| put 17 vd ||| put 28 va ||| put 39 vb ||| put 50 vc := rfl
  have h8 : fld (encode (.vsel g vd va vb vc)) 0 8 = 0x14#8 := by simp [he]
  have hd : decodeSlot .v0 (encode (.vsel g vd va vb vc)) = .instr (.vsel g vd va vb vc) [] := decodeSlot_of (by rw [h8]; decide) (by delta readSlot; dsimp only; rw [h8]; simp [he, readGuard]) (by delta slotBad; dsimp only; rw [h8]; rfl)
  exact ⟨hd, fun _ => (decodeSlot_v1 _).trans hd⟩

theorem vabs (g : Guard) (f : Fmt) (sat : Bool) (vd : BitVec 11) (va : BitVec 11) : Statement (.vabs g f sat vd va) := by
  intro s h _ hw
  cases h
  have he : encode (.vabs g f sat vd va) = head 0x08 g ||| put 14 f.code ||| putB 63 sat ||| put 17 vd ||| put 28 va := rfl
  have h8 : fld (encode (.vabs g f sat vd va)) 0 8 = 0x08#8 := by simp [he]
  have hd : decodeSlot .v0 (encode (.vabs g f sat vd va)) = .instr (.vabs g f sat vd va) [] := decodeSlot_of (by rw [h8]; decide) (by delta readSlot; dsimp only; rw [h8]; simp [he, readGuard]) (by have hw : (f.isInt || !sat) = true := hw; delta slotBad; dsimp only; rw [h8]; simp [he]; clear he h8; revert hw; cases f <;> cases sat <;> decide)
  exact ⟨hd, fun _ => (decodeSlot_v1 _).trans hd⟩

theorem vneg (g : Guard) (f : Fmt) (sat : Bool) (vd : BitVec 11) (va : BitVec 11) : Statement (.vneg g f sat vd va) := by
  intro s h _ hw
  cases h
  have he : encode (.vneg g f sat vd va) = head 0x09 g ||| put 14 f.code ||| putB 63 sat ||| put 17 vd ||| put 28 va := rfl
  have h8 : fld (encode (.vneg g f sat vd va)) 0 8 = 0x09#8 := by simp [he]
  have hd : decodeSlot .v0 (encode (.vneg g f sat vd va)) = .instr (.vneg g f sat vd va) [] := decodeSlot_of (by rw [h8]; decide) (by delta readSlot; dsimp only; rw [h8]; simp [he, readGuard]) (by have hw : (f.isInt || !sat) = true := hw; delta slotBad; dsimp only; rw [h8]; simp [he]; clear he h8; revert hw; cases f <;> cases sat <;> decide)
  exact ⟨hd, fun _ => (decodeSlot_v1 _).trans hd⟩

theorem vcvt (g : Guard) (fs : Fmt) (ft : Fmt) (rm : Rm) (sat : Bool) (vd : BitVec 11) (va : BitVec 11) : Statement (.vcvt g fs ft rm sat vd va) := by
  intro s h _ hw
  cases h
  have he : encode (.vcvt g fs ft rm sat vd va) = head 0x15 g ||| put 14 fs.code ||| put 64 ft.code ||| put 61 rm.code ||| putB 63 sat ||| put 17 vd ||| put 28 va := rfl
  have h8 : fld (encode (.vcvt g fs ft rm sat vd va)) 0 8 = 0x15#8 := by simp [he]
  have hd : decodeSlot .v0 (encode (.vcvt g fs ft rm sat vd va)) = .instr (.vcvt g fs ft rm sat vd va) [] := decodeSlot_of (by rw [h8]; decide) (by delta readSlot; dsimp only; rw [h8]; simp [he, readGuard]) (by have hw : (!(fs.isInt && ft.isInt) || rm == .rne) = true := hw; delta slotBad; dsimp only; rw [h8]; simp [he]; clear he h8; revert hw; cases fs <;> cases ft <;> cases rm <;> decide)
  exact ⟨hd, fun _ => (decodeSlot_v1 _).trans hd⟩

theorem vbcst (g : Guard) (f : Fmt) (vd : BitVec 11) (xa : BitVec 6) : Statement (.vbcst g f vd xa) := by
  intro s h _ _
  cases h
  have he : encode (.vbcst g f vd xa) = head 0x17 g ||| put 14 f.code ||| put 17 vd ||| put 64 xa := rfl
  have h8 : fld (encode (.vbcst g f vd xa)) 0 8 = 0x17#8 := by simp [he]
  have hd : decodeSlot .v0 (encode (.vbcst g f vd xa)) = .instr (.vbcst g f vd xa) [] := decodeSlot_of (by rw [h8]; decide) (by delta readSlot; dsimp only; rw [h8]; simp [he, readGuard]) (by delta slotBad; dsimp only; rw [h8]; rfl)
  exact ⟨hd, fun _ => (decodeSlot_v1 _).trans hd⟩

theorem vinsx (g : Guard) (f : Fmt) (vd : BitVec 11) (va : BitVec 11) (xa : BitVec 6) (lane : BitVec 7) : Statement (.vinsx g f vd va xa lane) := by
  intro s h _ hw
  cases h
  have he : encode (.vinsx g f vd va xa lane) = head 0x18 g ||| put 14 f.code ||| put 17 vd ||| put 28 va ||| put 64 xa ||| put 70 lane := rfl
  have h8 : fld (encode (.vinsx g f vd va xa lane)) 0 8 = 0x18#8 := by simp [he]
  have hd : decodeSlot .v0 (encode (.vinsx g f vd va xa lane)) = .instr (.vinsx g f vd va xa lane) [] := decodeSlot_of (by rw [h8]; decide) (by delta readSlot; dsimp only; rw [h8]; simp [he, readGuard]) (by have hw : decide (lane.toNat < 96) = true := hw; delta slotBad; dsimp only; rw [h8]; simp [he]; simpa using hw)
  exact ⟨hd, fun _ => (decodeSlot_v1 _).trans hd⟩

theorem vextx (g : Guard) (f : Fmt) (xd : BitVec 6) (va : BitVec 11) (lane : BitVec 7) : Statement (.vextx g f xd va lane) := by
  intro s h _ hw
  cases h
  have he : encode (.vextx g f xd va lane) = head 0x19 g ||| put 14 f.code ||| put 64 xd ||| put 28 va ||| put 70 lane := rfl
  have h8 : fld (encode (.vextx g f xd va lane)) 0 8 = 0x19#8 := by simp [he]
  have hd : decodeSlot .v0 (encode (.vextx g f xd va lane)) = .instr (.vextx g f xd va lane) [] := decodeSlot_of (by rw [h8]; decide) (by delta readSlot; dsimp only; rw [h8]; simp [he, readGuard]) (by have hw : decide (lane.toNat < 96) = true := hw; delta slotBad; dsimp only; rw [h8]; simp [he]; simpa using hw)
  exact ⟨hd, fun _ => (decodeSlot_v1 _).trans hd⟩

theorem viota (g : Guard) (f : Fmt) (vd : BitVec 11) (imm : BitVec 16) : Statement (.viota g f vd imm) := by
  intro s h _ _
  cases h
  have he : encode (.viota g f vd imm) = head 0x20 g ||| put 14 f.code ||| put 17 vd ||| put 64 imm := rfl
  have h8 : fld (encode (.viota g f vd imm)) 0 8 = 0x20#8 := by simp [he]
  have hd : decodeSlot .v0 (encode (.viota g f vd imm)) = .instr (.viota g f vd imm) [] := decodeSlot_of (by rw [h8]; decide) (by delta readSlot; dsimp only; rw [h8]; simp [he, readGuard]) (by delta slotBad; dsimp only; rw [h8]; rfl)
  exact ⟨hd, fun _ => (decodeSlot_v1 _).trans hd⟩

theorem vradd (g : Guard) (f : Fmt) (rm : Rm) (vd : BitVec 11) (va : BitVec 11) : Statement (.vradd g f rm vd va) := by
  intro s h _ hw
  cases h
  have he : encode (.vradd g f rm vd va) = head 0x1C g ||| put 14 f.code ||| put 61 rm.code ||| put 17 vd ||| put 28 va := rfl
  have h8 : fld (encode (.vradd g f rm vd va)) 0 8 = 0x1C#8 := by simp [he]
  have hd : decodeSlot .v0 (encode (.vradd g f rm vd va)) = .instr (.vradd g f rm vd va) [] := decodeSlot_of (by rw [h8]; decide) (by delta readSlot; dsimp only; rw [h8]; simp [he, readGuard]) (by have hw : rmOk f rm = true := hw; delta slotBad; dsimp only; rw [h8]; simp [he]; clear he h8; revert hw; cases f <;> cases rm <;> decide)
  exact ⟨hd, fun _ => (decodeSlot_v1 _).trans hd⟩

theorem vrmax (g : Guard) (f : Fmt) (rm : Rm) (vd : BitVec 11) (va : BitVec 11) : Statement (.vrmax g f rm vd va) := by
  intro s h _ hw
  cases h
  have he : encode (.vrmax g f rm vd va) = head 0x1D g ||| put 14 f.code ||| put 61 rm.code ||| put 17 vd ||| put 28 va := rfl
  have h8 : fld (encode (.vrmax g f rm vd va)) 0 8 = 0x1D#8 := by simp [he]
  have hd : decodeSlot .v0 (encode (.vrmax g f rm vd va)) = .instr (.vrmax g f rm vd va) [] := decodeSlot_of (by rw [h8]; decide) (by delta readSlot; dsimp only; rw [h8]; simp [he, readGuard]) (by have hw : (rm == .rne) = true := hw; delta slotBad; dsimp only; rw [h8]; simp [he]; clear he h8; revert hw; cases rm <;> decide)
  exact ⟨hd, fun _ => (decodeSlot_v1 _).trans hd⟩

theorem vrmin (g : Guard) (f : Fmt) (rm : Rm) (vd : BitVec 11) (va : BitVec 11) : Statement (.vrmin g f rm vd va) := by
  intro s h _ hw
  cases h
  have he : encode (.vrmin g f rm vd va) = head 0x1E g ||| put 14 f.code ||| put 61 rm.code ||| put 17 vd ||| put 28 va := rfl
  have h8 : fld (encode (.vrmin g f rm vd va)) 0 8 = 0x1E#8 := by simp [he]
  have hd : decodeSlot .v0 (encode (.vrmin g f rm vd va)) = .instr (.vrmin g f rm vd va) [] := decodeSlot_of (by rw [h8]; decide) (by delta readSlot; dsimp only; rw [h8]; simp [he, readGuard]) (by have hw : (rm == .rne) = true := hw; delta slotBad; dsimp only; rw [h8]; simp [he]; clear he h8; revert hw; cases rm <;> decide)
  exact ⟨hd, fun _ => (decodeSlot_v1 _).trans hd⟩

theorem vscan (g : Guard) (f : Fmt) (rm : Rm) (vd : BitVec 11) (va : BitVec 11) : Statement (.vscan g f rm vd va) := by
  intro s h _ hw
  cases h
  have he : encode (.vscan g f rm vd va) = head 0x1F g ||| put 14 f.code ||| put 61 rm.code ||| put 17 vd ||| put 28 va := rfl
  have h8 : fld (encode (.vscan g f rm vd va)) 0 8 = 0x1F#8 := by simp [he]
  have hd : decodeSlot .v0 (encode (.vscan g f rm vd va)) = .instr (.vscan g f rm vd va) [] := decodeSlot_of (by rw [h8]; decide) (by delta readSlot; dsimp only; rw [h8]; simp [he, readGuard]) (by have hw : rmOk f rm = true := hw; delta slotBad; dsimp only; rw [h8]; simp [he]; clear he h8; revert hw; cases f <;> cases rm <;> decide)
  exact ⟨hd, fun _ => (decodeSlot_v1 _).trans hd⟩

theorem vexp (g : Guard) (vd : BitVec 11) (va : BitVec 11) : Statement (.vexp g vd va) := by
  intro s h _ _
  cases h
  have he : encode (.vexp g vd va) = head 0x30 g ||| put 17 vd ||| put 28 va := rfl
  have h8 : fld (encode (.vexp g vd va)) 0 8 = 0x30#8 := by simp [he]
  have hd : decodeSlot .v0 (encode (.vexp g vd va)) = .instr (.vexp g vd va) [] := decodeSlot_of (by rw [h8]; decide) (by delta readSlot; dsimp only; rw [h8]; simp [he, readGuard]) (by delta slotBad; dsimp only; rw [h8]; simp [he]; decide)
  exact ⟨hd, fun _ => (decodeSlot_v1 _).trans hd⟩

theorem vlog (g : Guard) (vd : BitVec 11) (va : BitVec 11) : Statement (.vlog g vd va) := by
  intro s h _ _
  cases h
  have he : encode (.vlog g vd va) = head 0x31 g ||| put 17 vd ||| put 28 va := rfl
  have h8 : fld (encode (.vlog g vd va)) 0 8 = 0x31#8 := by simp [he]
  have hd : decodeSlot .v0 (encode (.vlog g vd va)) = .instr (.vlog g vd va) [] := decodeSlot_of (by rw [h8]; decide) (by delta readSlot; dsimp only; rw [h8]; simp [he, readGuard]) (by delta slotBad; dsimp only; rw [h8]; simp [he]; decide)
  exact ⟨hd, fun _ => (decodeSlot_v1 _).trans hd⟩

theorem vrcp (g : Guard) (vd : BitVec 11) (va : BitVec 11) : Statement (.vrcp g vd va) := by
  intro s h _ _
  cases h
  have he : encode (.vrcp g vd va) = head 0x32 g ||| put 17 vd ||| put 28 va := rfl
  have h8 : fld (encode (.vrcp g vd va)) 0 8 = 0x32#8 := by simp [he]
  have hd : decodeSlot .v0 (encode (.vrcp g vd va)) = .instr (.vrcp g vd va) [] := decodeSlot_of (by rw [h8]; decide) (by delta readSlot; dsimp only; rw [h8]; simp [he, readGuard]) (by delta slotBad; dsimp only; rw [h8]; simp [he]; decide)
  exact ⟨hd, fun _ => (decodeSlot_v1 _).trans hd⟩

theorem vrsq (g : Guard) (vd : BitVec 11) (va : BitVec 11) : Statement (.vrsq g vd va) := by
  intro s h _ _
  cases h
  have he : encode (.vrsq g vd va) = head 0x33 g ||| put 17 vd ||| put 28 va := rfl
  have h8 : fld (encode (.vrsq g vd va)) 0 8 = 0x33#8 := by simp [he]
  have hd : decodeSlot .v0 (encode (.vrsq g vd va)) = .instr (.vrsq g vd va) [] := decodeSlot_of (by rw [h8]; decide) (by delta readSlot; dsimp only; rw [h8]; simp [he, readGuard]) (by delta slotBad; dsimp only; rw [h8]; simp [he]; decide)
  exact ⟨hd, fun _ => (decodeSlot_v1 _).trans hd⟩

theorem vtanh (g : Guard) (vd : BitVec 11) (va : BitVec 11) : Statement (.vtanh g vd va) := by
  intro s h _ _
  cases h
  have he : encode (.vtanh g vd va) = head 0x34 g ||| put 17 vd ||| put 28 va := rfl
  have h8 : fld (encode (.vtanh g vd va)) 0 8 = 0x34#8 := by simp [he]
  have hd : decodeSlot .v0 (encode (.vtanh g vd va)) = .instr (.vtanh g vd va) [] := decodeSlot_of (by rw [h8]; decide) (by delta readSlot; dsimp only; rw [h8]; simp [he, readGuard]) (by delta slotBad; dsimp only; rw [h8]; simp [he]; decide)
  exact ⟨hd, fun _ => (decodeSlot_v1 _).trans hd⟩

theorem vsigm (g : Guard) (vd : BitVec 11) (va : BitVec 11) : Statement (.vsigm g vd va) := by
  intro s h _ _
  cases h
  have he : encode (.vsigm g vd va) = head 0x35 g ||| put 17 vd ||| put 28 va := rfl
  have h8 : fld (encode (.vsigm g vd va)) 0 8 = 0x35#8 := by simp [he]
  have hd : decodeSlot .v0 (encode (.vsigm g vd va)) = .instr (.vsigm g vd va) [] := decodeSlot_of (by rw [h8]; decide) (by delta readSlot; dsimp only; rw [h8]; simp [he, readGuard]) (by delta slotBad; dsimp only; rw [h8]; simp [he]; decide)
  exact ⟨hd, fun _ => (decodeSlot_v1 _).trans hd⟩

theorem madd (g : Guard) (md : BitVec 8) (ma : BitVec 8) (mb : BitVec 8) : Statement (.madd g md ma mb) := by
  intro s h _ _
  cases h
  have he : encode (.madd g md ma mb) = head 0x40 g ||| put 17 md ||| put 28 ma ||| put 39 mb := rfl
  have h8 : fld (encode (.madd g md ma mb)) 0 8 = 0x40#8 := by simp [he]
  have hd : decodeSlot .v0 (encode (.madd g md ma mb)) = .instr (.madd g md ma mb) [] := decodeSlot_of (by rw [h8]; decide) (by delta readSlot; dsimp only; rw [h8]; simp [he, readGuard]) (by delta slotBad; dsimp only; rw [h8]; rfl)
  exact ⟨hd, fun _ => (decodeSlot_v1 _).trans hd⟩

theorem msub (g : Guard) (md : BitVec 8) (ma : BitVec 8) (mb : BitVec 8) : Statement (.msub g md ma mb) := by
  intro s h _ _
  cases h
  have he : encode (.msub g md ma mb) = head 0x41 g ||| put 17 md ||| put 28 ma ||| put 39 mb := rfl
  have h8 : fld (encode (.msub g md ma mb)) 0 8 = 0x41#8 := by simp [he]
  have hd : decodeSlot .v0 (encode (.msub g md ma mb)) = .instr (.msub g md ma mb) [] := decodeSlot_of (by rw [h8]; decide) (by delta readSlot; dsimp only; rw [h8]; simp [he, readGuard]) (by delta slotBad; dsimp only; rw [h8]; rfl)
  exact ⟨hd, fun _ => (decodeSlot_v1 _).trans hd⟩

theorem mmul (g : Guard) (md : BitVec 8) (ma : BitVec 8) (mb : BitVec 8) : Statement (.mmul g md ma mb) := by
  intro s h _ _
  cases h
  have he : encode (.mmul g md ma mb) = head 0x42 g ||| put 17 md ||| put 28 ma ||| put 39 mb := rfl
  have h8 : fld (encode (.mmul g md ma mb)) 0 8 = 0x42#8 := by simp [he]
  have hd : decodeSlot .v0 (encode (.mmul g md ma mb)) = .instr (.mmul g md ma mb) [] := decodeSlot_of (by rw [h8]; decide) (by delta readSlot; dsimp only; rw [h8]; simp [he, readGuard]) (by delta slotBad; dsimp only; rw [h8]; rfl)
  exact ⟨hd, fun _ => (decodeSlot_v1 _).trans hd⟩

theorem maff (g : Guard) (md : BitVec 8) (ma : BitVec 8) (vb : BitVec 11) (vc : BitVec 11) : Statement (.maff g md ma vb vc) := by
  intro s h _ _
  cases h
  have he : encode (.maff g md ma vb vc) = head 0x43 g ||| put 17 md ||| put 28 ma ||| put 39 vb ||| put 50 vc := rfl
  have h8 : fld (encode (.maff g md ma vb vc)) 0 8 = 0x43#8 := by simp [he]
  have hd : decodeSlot .v0 (encode (.maff g md ma vb vc)) = .instr (.maff g md ma vb vc) [] := decodeSlot_of (by rw [h8]; decide) (by delta readSlot; dsimp only; rw [h8]; simp [he, readGuard]) (by delta slotBad; dsimp only; rw [h8]; rfl)
  exact ⟨hd, fun _ => (decodeSlot_v1 _).trans hd⟩

theorem msqr (g : Guard) (md : BitVec 8) (ma : BitVec 8) : Statement (.msqr g md ma) := by
  intro s h _ _
  cases h
  have he : encode (.msqr g md ma) = head 0x44 g ||| put 17 md ||| put 28 ma := rfl
  have h8 : fld (encode (.msqr g md ma)) 0 8 = 0x44#8 := by simp [he]
  have hd : decodeSlot .v0 (encode (.msqr g md ma)) = .instr (.msqr g md ma) [] := decodeSlot_of (by rw [h8]; decide) (by delta readSlot; dsimp only; rw [h8]; simp [he, readGuard]) (by delta slotBad; dsimp only; rw [h8]; rfl)
  exact ⟨hd, fun _ => (decodeSlot_v1 _).trans hd⟩

theorem mmov (g : Guard) (md : BitVec 8) (ma : BitVec 8) : Statement (.mmov g md ma) := by
  intro s h _ _
  cases h
  have he : encode (.mmov g md ma) = head 0x47 g ||| put 17 md ||| put 28 ma := rfl
  have h8 : fld (encode (.mmov g md ma)) 0 8 = 0x47#8 := by simp [he]
  have hd : decodeSlot .v0 (encode (.mmov g md ma)) = .instr (.mmov g md ma) [] := decodeSlot_of (by rw [h8]; decide) (by delta readSlot; dsimp only; rw [h8]; simp [he, readGuard]) (by delta slotBad; dsimp only; rw [h8]; rfl)
  exact ⟨hd, fun _ => (decodeSlot_v1 _).trans hd⟩

theorem mrelu (g : Guard) (md : BitVec 8) (ma : BitVec 8) : Statement (.mrelu g md ma) := by
  intro s h _ _
  cases h
  have he : encode (.mrelu g md ma) = head 0x48 g ||| put 17 md ||| put 28 ma := rfl
  have h8 : fld (encode (.mrelu g md ma)) 0 8 = 0x48#8 := by simp [he]
  have hd : decodeSlot .v0 (encode (.mrelu g md ma)) = .instr (.mrelu g md ma) [] := decodeSlot_of (by rw [h8]; decide) (by delta readSlot; dsimp only; rw [h8]; simp [he, readGuard]) (by delta slotBad; dsimp only; rw [h8]; rfl)
  exact ⟨hd, fun _ => (decodeSlot_v1 _).trans hd⟩

theorem mexp (g : Guard) (md : BitVec 8) (ma : BitVec 8) : Statement (.mexp g md ma) := by
  intro s h _ _
  cases h
  have he : encode (.mexp g md ma) = head 0x49 g ||| put 17 md ||| put 28 ma := rfl
  have h8 : fld (encode (.mexp g md ma)) 0 8 = 0x49#8 := by simp [he]
  have hd : decodeSlot .v0 (encode (.mexp g md ma)) = .instr (.mexp g md ma) [] := decodeSlot_of (by rw [h8]; decide) (by delta readSlot; dsimp only; rw [h8]; simp [he, readGuard]) (by delta slotBad; dsimp only; rw [h8]; rfl)
  exact ⟨hd, fun _ => (decodeSlot_v1 _).trans hd⟩

theorem mform (g : Guard) (md : BitVec 8) (va : BitVec 11) (vb : BitVec 11) : Statement (.mform g md va vb) := by
  intro s h _ _
  cases h
  have he : encode (.mform g md va vb) = head 0x45 g ||| put 17 md ||| put 28 va ||| put 39 vb := rfl
  have h8 : fld (encode (.mform g md va vb)) 0 8 = 0x45#8 := by simp [he]
  have hd : decodeSlot .v0 (encode (.mform g md va vb)) = .instr (.mform g md va vb) [] := decodeSlot_of (by rw [h8]; decide) (by delta readSlot; dsimp only; rw [h8]; simp [he, readGuard]) (by delta slotBad; dsimp only; rw [h8]; rfl)
  exact ⟨hd, fun _ => (decodeSlot_v1 _).trans hd⟩

theorem mcoll (g : Guard) (mode : CollMode) (vd : BitVec 11) (ma : BitVec 8) : Statement (.mcoll g mode vd ma) := by
  intro s h _ hw
  cases h
  have he : encode (.mcoll g mode vd ma) = head 0x46 g ||| put 64 mode.code ||| put 17 vd ||| put 28 ma := rfl
  have h8 : fld (encode (.mcoll g mode vd ma)) 0 8 = 0x46#8 := by simp [he]
  have hd : decodeSlot .v0 (encode (.mcoll g mode vd ma)) = .instr (.mcoll g mode vd ma) [] := decodeSlot_of (by rw [h8]; decide) (by delta readSlot; dsimp only; rw [h8]; simp [he, readGuard]) (by have hw : (mode == .sample || decide (vd.toNat < 2047)) = true := hw; delta slotBad; dsimp only; rw [h8]; simp [he]; cases mode <;> simp_all [CollMode.code] <;> omega)
  exact ⟨hd, fun _ => (decodeSlot_v1 _).trans hd⟩

theorem tmma (g : Guard) (pl : Plane) (aA : BitVec 5) (aB : BitVec 5) (xs : BitVec 6) (kcl : BitVec 4) (acc : Bool) (win : Option (BitVec 2)) : Statement (.tmma g pl aA aB xs kcl acc win) := by
  intro s h _ hw
  cases h
  have he : encode (.tmma g pl aA aB xs kcl acc win) = head 0x01 g ||| put 14 pl.code ||| put 16 aA ||| put 21 aB ||| put 26 xs ||| put 32 kcl ||| putB 36 acc ||| put 37 (winCode win) := rfl
  have h8 : fld (encode (.tmma g pl aA aB xs kcl acc win)) 0 8 = 0x01#8 := by simp [he]
  exact ⟨decodeSlot_of (by rw [h8]; decide) (by delta readSlot; dsimp only; rw [h8]; simp [he, readGuard]) (by have hw : decide (kcl.toNat < 11) = true := hw; simp only [decide_eq_true_eq] at hw; delta slotBad; dsimp only; rw [h8]; simp [he, fldB_put]; exact ⟨by cases pl <;> decide, hw, winCode_wd win⟩), nofun⟩

theorem tmmb (g : Guard) (pl : Plane) (aA : BitVec 5) (aB : BitVec 5) (xs : BitVec 6) (kcl : BitVec 4) (acc : Bool) : Statement (.tmmb g pl aA aB xs kcl acc) := by
  intro s h _ hw
  cases h
  have he : encode (.tmmb g pl aA aB xs kcl acc) = head 0x02 g ||| put 14 pl.code ||| put 16 aA ||| put 21 aB ||| put 26 xs ||| put 32 kcl ||| putB 36 acc := rfl
  have h8 : fld (encode (.tmmb g pl aA aB xs kcl acc)) 0 8 = 0x02#8 := by simp [he]
  exact ⟨decodeSlot_of (by rw [h8]; decide) (by delta readSlot; dsimp only; rw [h8]; simp [he, readGuard]) (by have hw : (decide (kcl.toNat < 11) && pl != .z01) = true := hw; delta slotBad; dsimp only; rw [h8]; simp [he]; cases pl <;> simp_all [Plane.code]), nofun⟩

theorem tmmm (g : Guard) (aA : BitVec 5) (aB : BitVec 5) (xs : BitVec 6) (kcl : BitVec 4) (acc : Bool) : Statement (.tmmm g aA aB xs kcl acc) := by
  intro s h _ hw
  cases h
  have he : encode (.tmmm g aA aB xs kcl acc) = head 0x03 g ||| put 16 aA ||| put 21 aB ||| put 26 xs ||| put 32 kcl ||| putB 36 acc ||| put 14 (2 : BitVec 2) := rfl
  have h8 : fld (encode (.tmmm g aA aB xs kcl acc)) 0 8 = 0x03#8 := by simp [he]
  exact ⟨decodeSlot_of (by rw [h8]; decide) (by delta readSlot; dsimp only; rw [h8]; simp [he, readGuard]) (by have hw : decide (kcl.toNat < 11) = true := hw; delta slotBad; dsimp only; rw [h8]; simp [he]; simpa using hw), nofun⟩

theorem tzero (g : Guard) (pl : Plane) (xs : BitVec 6) : Statement (.tzero g pl xs) := by
  intro s h _ _
  cases h
  have he : encode (.tzero g pl xs) = head 0x04 g ||| put 14 pl.code ||| put 26 xs := rfl
  have h8 : fld (encode (.tzero g pl xs)) 0 8 = 0x04#8 := by simp [he]
  exact ⟨decodeSlot_of (by rw [h8]; decide) (by delta readSlot; dsimp only; rw [h8]; simp [he, readGuard]) (by delta slotBad; dsimp only; rw [h8]; simp [he]; cases pl <;> decide), nofun⟩

theorem tdrain (g : Guard) (pl : Plane) (aA : BitVec 5) (ep : Epilogue) (vb : BitVec 11) : Statement (.tdrain g pl aA ep vb) := by
  intro s h _ hw
  cases h
  have he : encode (.tdrain g pl aA ep vb) = head 0x05 g ||| put 14 pl.code ||| put 16 aA ||| put 51 ep.code ||| put 40 vb := rfl
  have h8 : fld (encode (.tdrain g pl aA ep vb)) 0 8 = 0x05#8 := by simp [he]
  exact ⟨decodeSlot_of (by rw [h8]; decide) (by delta readSlot; dsimp only; rw [h8]; simp [he, readGuard]) (by have hw : drainVbOk ep vb = true := hw; delta slotBad; dsimp only; rw [h8]; simp [he]; refine ⟨by cases pl <;> decide, by cases ep <;> decide, fun _ => hw⟩), nofun⟩

theorem tfill (g : Guard) (plane : Bool) (aA : BitVec 5) : Statement (.tfill g plane aA) := by
  intro s h _ _
  cases h
  have he : encode (.tfill g plane aA) = head 0x06 g ||| putB 14 plane ||| put 16 aA := rfl
  have h8 : fld (encode (.tfill g plane aA)) 0 8 = 0x06#8 := by simp [he]
  exact ⟨decodeSlot_of (by rw [h8]; decide) (by delta readSlot; dsimp only; rw [h8]; simp [he, readGuard]) (by delta slotBad; dsimp only; rw [h8]; simp [he, putB]; cases plane <;> decide), nofun⟩

theorem chstart (g : Guard) (ch : BitVec 6) (aa : BitVec 5) : Statement (.chstart g ch aa) := by
  intro s h _ _
  cases h
  have he : encode (.chstart g ch aa) = head 0x01 g ||| put 14 ch ||| put 20 aa := rfl
  have h8 : fld (encode (.chstart g ch aa)) 0 8 = 0x01#8 := by simp [he]
  exact ⟨decodeSlot_of (by rw [h8]; decide) (by delta readSlot; dsimp only; rw [h8]; simp [he, readGuard]) (by rfl), nofun⟩

theorem chstop (g : Guard) (ch : BitVec 6) : Statement (.chstop g ch) := by
  intro s h _ _
  cases h
  have he : encode (.chstop g ch) = head 0x02 g ||| put 14 ch := rfl
  have h8 : fld (encode (.chstop g ch)) 0 8 = 0x02#8 := by simp [he]
  exact ⟨decodeSlot_of (by rw [h8]; decide) (by delta readSlot; dsimp only; rw [h8]; simp [he, readGuard]) (by rfl), nofun⟩

theorem ringcfg (g : Guard) (ring : BitVec 6) (xa : BitVec 6) : Statement (.ringcfg g ring xa) := by
  intro s h _ _
  cases h
  have he : encode (.ringcfg g ring xa) = head 0x03 g ||| put 14 ring ||| put 30 xa := rfl
  have h8 : fld (encode (.ringcfg g ring xa)) 0 8 = 0x03#8 := by simp [he]
  exact ⟨decodeSlot_of (by rw [h8]; decide) (by delta readSlot; dsimp only; rw [h8]; simp [he, readGuard]) (by rfl), nofun⟩

theorem awaitf (g : Guard) (ring : BitVec 6) (thr : BitVec 16) : Statement (.awaitf g ring thr) := by
  intro s h _ _
  cases h
  have he : encode (.awaitf g ring thr) = head 0x04 g ||| put 14 ring ||| put 64 thr := rfl
  have h8 : fld (encode (.awaitf g ring thr)) 0 8 = 0x04#8 := by simp [he]
  exact ⟨decodeSlot_of (by rw [h8]; decide) (by delta readSlot; dsimp only; rw [h8]; simp [he, readGuard]) (by rfl), nofun⟩

theorem rels (g : Guard) (ring : BitVec 6) (cnt : BitVec 16) : Statement (.rels g ring cnt) := by
  intro s h _ _
  cases h
  have he : encode (.rels g ring cnt) = head 0x05 g ||| put 14 ring ||| put 64 cnt := rfl
  have h8 : fld (encode (.rels g ring cnt)) 0 8 = 0x05#8 := by simp [he]
  exact ⟨decodeSlot_of (by rw [h8]; decide) (by delta readSlot; dsimp only; rw [h8]; simp [he, readGuard]) (by rfl), nofun⟩

theorem ringrd (g : Guard) (xd : BitVec 6) (ring : BitVec 6) : Statement (.ringrd g xd ring) := by
  intro s h _ _
  cases h
  have he : encode (.ringrd g xd ring) = head 0x06 g ||| put 30 xd ||| put 14 ring := rfl
  have h8 : fld (encode (.ringrd g xd ring)) 0 8 = 0x06#8 := by simp [he]
  exact ⟨decodeSlot_of (by rw [h8]; decide) (by delta readSlot; dsimp only; rw [h8]; simp [he, readGuard]) (by rfl), nofun⟩

theorem ysort (g : Guard) (aa : BitVec 5) (ring : BitVec 6) (inc : BitVec 16) : Statement (.ysort g aa ring inc) := by
  intro s h _ _
  cases h
  have he : encode (.ysort g aa ring inc) = head 0x08 g ||| put 20 aa ||| put 14 ring ||| put 64 inc := rfl
  have h8 : fld (encode (.ysort g aa ring inc)) 0 8 = 0x08#8 := by simp [he]
  exact ⟨decodeSlot_of (by rw [h8]; decide) (by delta readSlot; dsimp only; rw [h8]; simp [he, readGuard]) (by rfl), nofun⟩

theorem ygath (g : Guard) (aa : BitVec 5) (ring : BitVec 6) (inc : BitVec 16) : Statement (.ygath g aa ring inc) := by
  intro s h _ _
  cases h
  have he : encode (.ygath g aa ring inc) = head 0x09 g ||| put 20 aa ||| put 14 ring ||| put 64 inc := rfl
  have h8 : fld (encode (.ygath g aa ring inc)) 0 8 = 0x09#8 := by simp [he]
  exact ⟨decodeSlot_of (by rw [h8]; decide) (by delta readSlot; dsimp only; rw [h8]; simp [he, readGuard]) (by rfl), nofun⟩

theorem ycomb (g : Guard) (aa : BitVec 5) (ring : BitVec 6) (inc : BitVec 16) : Statement (.ycomb g aa ring inc) := by
  intro s h _ _
  cases h
  have he : encode (.ycomb g aa ring inc) = head 0x0A g ||| put 20 aa ||| put 14 ring ||| put 64 inc := rfl
  have h8 : fld (encode (.ycomb g aa ring inc)) 0 8 = 0x0A#8 := by simp [he]
  exact ⟨decodeSlot_of (by rw [h8]; decide) (by delta readSlot; dsimp only; rw [h8]; simp [he, readGuard]) (by rfl), nofun⟩

theorem xa2av (g : Guard) (aa : BitVec 5) (ring : BitVec 6) (inc : BitVec 16) : Statement (.xa2av g aa ring inc) := by
  intro s h _ _
  cases h
  have he : encode (.xa2av g aa ring inc) = head 0x10 g ||| put 20 aa ||| put 14 ring ||| put 64 inc := rfl
  have h8 : fld (encode (.xa2av g aa ring inc)) 0 8 = 0x10#8 := by simp [he]
  exact ⟨decodeSlot_of (by rw [h8]; decide) (by delta readSlot; dsimp only; rw [h8]; simp [he, readGuard]) (by rfl), nofun⟩

theorem xar (g : Guard) (aa : BitVec 5) (ring : BitVec 6) (inc : BitVec 16) : Statement (.xar g aa ring inc) := by
  intro s h _ _
  cases h
  have he : encode (.xar g aa ring inc) = head 0x11 g ||| put 20 aa ||| put 14 ring ||| put 64 inc := rfl
  have h8 : fld (encode (.xar g aa ring inc)) 0 8 = 0x11#8 := by simp [he]
  exact ⟨decodeSlot_of (by rw [h8]; decide) (by delta readSlot; dsimp only; rw [h8]; simp [he, readGuard]) (by rfl), nofun⟩

theorem xag (g : Guard) (aa : BitVec 5) (ring : BitVec 6) (inc : BitVec 16) : Statement (.xag g aa ring inc) := by
  intro s h _ _
  cases h
  have he : encode (.xag g aa ring inc) = head 0x12 g ||| put 20 aa ||| put 14 ring ||| put 64 inc := rfl
  have h8 : fld (encode (.xag g aa ring inc)) 0 8 = 0x12#8 := by simp [he]
  exact ⟨decodeSlot_of (by rw [h8]; decide) (by delta readSlot; dsimp only; rw [h8]; simp [he, readGuard]) (by rfl), nofun⟩

theorem xrun (g : Guard) (aa : BitVec 5) (xa : BitVec 6) (ring : BitVec 6) (inc : BitVec 16) : Statement (.xrun g aa xa ring inc) := by
  intro s h _ _
  cases h
  have he : encode (.xrun g aa xa ring inc) = head 0x13 g ||| put 20 aa ||| put 30 xa ||| put 14 ring ||| put 64 inc := rfl
  have h8 : fld (encode (.xrun g aa xa ring inc)) 0 8 = 0x13#8 := by simp [he]
  exact ⟨decodeSlot_of (by rw [h8]; decide) (by delta readSlot; dsimp only; rw [h8]; simp [he, readGuard]) (by rfl), nofun⟩

theorem sendh (g : Guard) (va : BitVec 11) (aa : BitVec 5) (xa : BitVec 6) (handler : BitVec 16) : Statement (.sendh g va aa xa handler) := by
  intro s h _ _
  cases h
  have he : encode (.sendh g va aa xa handler) = head 0x18 g ||| put 42 va ||| put 20 aa ||| put 30 xa ||| put 64 handler := rfl
  have h8 : fld (encode (.sendh g va aa xa handler)) 0 8 = 0x18#8 := by simp [he]
  exact ⟨decodeSlot_of (by rw [h8]; decide) (by delta readSlot; dsimp only; rw [h8]; simp [he, readGuard]) (by rfl), nofun⟩

theorem sealL (g : Guard) (aa : BitVec 5) (xa : BitVec 6) (ring : BitVec 6) (inc : BitVec 16) : Statement (.sealL g aa xa ring inc) := by
  intro s h _ _
  cases h
  have he : encode (.sealL g aa xa ring inc) = head 0x20 g ||| put 20 aa ||| put 30 xa ||| put 14 ring ||| put 64 inc := rfl
  have h8 : fld (encode (.sealL g aa xa ring inc)) 0 8 = 0x20#8 := by simp [he]
  exact ⟨decodeSlot_of (by rw [h8]; decide) (by delta readSlot; dsimp only; rw [h8]; simp [he, readGuard]) (by rfl), nofun⟩

theorem openL (g : Guard) (aa : BitVec 5) (xa : BitVec 6) (ring : BitVec 6) (inc : BitVec 16) : Statement (.openL g aa xa ring inc) := by
  intro s h _ _
  cases h
  have he : encode (.openL g aa xa ring inc) = head 0x21 g ||| put 20 aa ||| put 30 xa ||| put 14 ring ||| put 64 inc := rfl
  have h8 : fld (encode (.openL g aa xa ring inc)) 0 8 = 0x21#8 := by simp [he]
  exact ⟨decodeSlot_of (by rw [h8]; decide) (by delta readSlot; dsimp only; rw [h8]; simp [he, readGuard]) (by rfl), nofun⟩

theorem rqseed (g : Guard) (va : BitVec 11) (xa : BitVec 6) : Statement (.rqseed g va xa) := by
  intro s h _ _
  cases h
  have he : encode (.rqseed g va xa) = head 0x28 g ||| put 42 va ||| put 30 xa := rfl
  have h8 : fld (encode (.rqseed g va xa)) 0 8 = 0x28#8 := by simp [he]
  exact ⟨decodeSlot_of (by rw [h8]; decide) (by delta readSlot; dsimp only; rw [h8]; simp [he, readGuard]) (by rfl), nofun⟩

theorem axinv (g : Guard) (id : BitVec 6) : Statement (.axinv g id) := by
  intro s h _ _
  cases h
  have he : encode (.axinv g id) = head 0x30 g ||| put 14 id := rfl
  have h8 : fld (encode (.axinv g id)) 0 8 = 0x30#8 := by simp [he]
  exact ⟨decodeSlot_of (by rw [h8]; decide) (by delta readSlot; dsimp only; rw [h8]; simp [he, readGuard]) (by rfl), nofun⟩

theorem axinvAccept (core : Nat) (plat : Nat) : Statement (.axinvAccept core plat) := nofun

theorem axqry (g : Guard) (xd : BitVec 6) (id : BitVec 6) : Statement (.axqry g xd id) := by
  intro s h _ _
  cases h
  have he : encode (.axqry g xd id) = head 0x31 g ||| put 30 xd ||| put 14 id := rfl
  have h8 : fld (encode (.axqry g xd id)) 0 8 = 0x31#8 := by simp [he]
  exact ⟨decodeSlot_of (by rw [h8]; decide) (by delta readSlot; dsimp only; rw [h8]; simp [he, readGuard]) (by rfl), nofun⟩

theorem axqryReply (core : Nat) (plat : Nat) (id : Nat) : Statement (.axqryReply core plat id) := nofun

theorem boundInstruction (g : Guard) (cls : BoundClass) (code : BitVec 6) (raw : BitVec 66) :
    Statement (.boundInstruction g cls code raw) := by
  intro s h _ _
  have he : encode (.boundInstruction g cls code raw) = put 0 (0b11#2 ++ code) ||| put 8 g.pg ||| putB 12 g.pn ||| put 14 raw := rfl
  have h8 : fld (encode (.boundInstruction g cls code raw)) 0 8 = 0b11#2 ++ code := by simp [he]
  have hc : 192 ≤ (fld (encode (.boundInstruction g cls code raw)) 0 8).toNat := by rw [h8]; exact bound_code code
  have hg : readGuard (encode (.boundInstruction g cls code raw)) = g := by simp [he, readGuard]
  have hk : fld (encode (.boundInstruction g cls code raw)) 0 6 = code := by simp [he, fld_bound_code]
  have hl : fld (encode (.boundInstruction g cls code raw)) 14 66 = raw := by simp [he]
  have h0 : (fld (encode (.boundInstruction g cls code raw)) 0 8).toNat ≠ 0 := by omega
  cases cls <;> cases h
  · exact ⟨decodeSlot_of h0 (by rw [readSlot_bound_a _ hc, hg, hk, hl]) (slotBad_bound _ _ hc), nofun⟩
  · refine ⟨decodeSlot_of h0 (by rw [readSlot_bound_v _ hc, hg, hk, hl]) (slotBad_bound _ _ hc), fun _ => ?_⟩
    exact decodeSlot_of h0 ((readSlot_bound_v _ hc).trans (by rw [hg, hk, hl])) (slotBad_bound _ _ hc)
  · exact ⟨decodeSlot_of h0 (by rw [readSlot_bound_t _ hc, hg, hk, hl]) (slotBad_bound _ _ hc), nofun⟩

theorem bundleIssue (core : Nat) : Statement (.bundleIssue core) := nofun

theorem quantumExpiry (core : Nat) (plat : Nat) : Statement (.quantumExpiry core plat) := nofun

theorem timeshareHoldExpiry (core : Nat) (plat : Nat) (rank : Nat) : Statement (.timeshareHoldExpiry core plat rank) := nofun

theorem unblock (core : Nat) (plat : Nat) : Statement (.unblock core plat) := nofun

theorem fixedResultLanding (core : Nat) (plat : Nat) : Statement (.fixedResultLanding core plat) := nofun

theorem loadResultArrival (core : Nat) (plat : Nat) (id : Nat) : Statement (.loadResultArrival core plat id) := nofun

theorem routineSuspensionEnd (core : Nat) : Statement (.routineSuspensionEnd core) := nofun

theorem microStallEnd (core : Nat) : Statement (.microStallEnd core) := nofun

theorem asyncFault (core : Nat) (plat : Nat) : Statement (.asyncFault core plat) := nofun

theorem faultDelivery (core : Nat) (plat : Nat) : Statement (.faultDelivery core plat) := nofun

theorem faultQueuePost (part : Nat) : Statement (.faultQueuePost part) := nofun

theorem stokerTurn (core : Nat) : Statement (.stokerTurn core) := nofun

theorem arrivalDelivery (id : Nat) : Statement (.arrivalDelivery id) := nofun

theorem barrierOpen (cluster : Nat) (b : Nat) : Statement (.barrierOpen cluster b) := nofun

theorem launchAdmit (id : Nat) : Statement (.launchAdmit id) := nofun

theorem contextLoad (core : Nat) (plat : Nat) : Statement (.contextLoad core plat) := nofun

theorem gangRelease (gang : Nat) : Statement (.gangRelease gang) := nofun

theorem launchComplete (gang : Nat) : Statement (.launchComplete gang) := nofun

theorem haltZeroing (core : Nat) (plat : Nat) : Statement (.haltZeroing core plat) := nofun

theorem killZeroing (core : Nat) (plat : Nat) : Statement (.killZeroing core plat) := nofun

theorem contextSave (core : Nat) (plat : Nat) : Statement (.contextSave core plat) := nofun

theorem restoreComplete (core : Nat) (plat : Nat) : Statement (.restoreComplete core plat) := nofun

theorem accumulatorSpill (core : Nat) (half : Nat) : Statement (.accumulatorSpill core half) := nofun

theorem tileBusyEnd (core : Nat) (half : Nat) : Statement (.tileBusyEnd core half) := nofun

theorem tileResultReady (core : Nat) (half : Nat) : Statement (.tileResultReady core half) := nofun

theorem tdrainWrite (core : Nat) (half : Nat) : Statement (.tdrainWrite core half) := nofun

theorem tfillLoad (core : Nat) (half : Nat) : Statement (.tfillLoad core half) := nofun

theorem amoHomePerform (core : Nat) (plat : Nat) (id : Nat) : Statement (.amoHomePerform core plat id) := nofun

theorem remoteAccessPerform (core : Nat) (plat : Nat) (id : Nat) (word : Nat) : Statement (.remoteAccessPerform core plat id word) := nofun

theorem moveTransfer (core plat id word : Nat) : Statement (.moveTransfer core plat id word) := nofun

theorem eccWriteback (word : Nat) : Statement (.eccWriteback word) := nofun

theorem chstartAccept (core : Nat) (plat : Nat) : Statement (.chstartAccept core plat) := nofun

theorem waybillProcess (core plat word : Nat) : Statement (.waybillProcess core plat word) := nofun

theorem chstopAccept (core : Nat) (plat : Nat) : Statement (.chstopAccept core plat) := nofun

theorem ringSpaceAvailable (e : EngineId) : Statement (.ringSpaceAvailable e) := nofun

theorem ringAdvance (e : EngineId) : Statement (.ringAdvance e) := nofun

theorem ringcfgAccept (core : Nat) (plat : Nat) : Statement (.ringcfgAccept core plat) := nofun

theorem rqseedAccept (core : Nat) (plat : Nat) : Statement (.rqseedAccept core plat) := nofun

theorem ysortExec (cluster word : Nat) : Statement (.ysortExec cluster word) := nofun

theorem ygathExec (cluster word : Nat) : Statement (.ygathExec cluster word) := nofun

theorem ycombExec (cluster word : Nat) : Statement (.ycombExec cluster word) := nofun

theorem xa2avExec (op word : Nat) : Statement (.xa2avExec op word) := nofun

theorem xarExec (op word : Nat) : Statement (.xarExec op word) := nofun

theorem xagExec (op word : Nat) : Statement (.xagExec op word) := nofun

theorem xrunExec (op word : Nat) : Statement (.xrunExec op word) := nofun

theorem collectiveTimeout (op : Nat) : Statement (.collectiveTimeout op) := nofun

theorem sealExec (core : Nat) : Statement (.sealExec core) := nofun

theorem openExec (core : Nat) : Statement (.openExec core) := nofun

theorem tabletEmit (q : QueueId) : Statement (.tabletEmit q) := nofun

theorem tabletHop (n : Nat) : Statement (.tabletHop n) := nofun

theorem regionAllocate (die : Nat) (n : Nat) : Statement (.regionAllocate die n) := nofun

theorem pairAccept (die : Nat) : Statement (.pairAccept die) := nofun

theorem trainingStep (die : Nat) (region : Nat) : Statement (.trainingStep die region) := nofun

theorem evalWeightsComplete (core : Nat) (plat : Nat) (region : Nat) : Statement (.evalWeightsComplete core plat region) := nofun

theorem statePush (core : Nat) (plat : Nat) (region : Nat) : Statement (.statePush core plat region) := nofun

theorem notifyTailWrite (fn : Nat) (offset : Nat) (size : Nat) (value : BitVec 32) : Statement (.notifyTailWrite fn offset size value) := nofun

theorem launch (fn : Nat) (q : Nat) (k : Packet) : Statement (.launch fn q k) := nofun

theorem preempt (fn : Nat) (q : Nat) (k : Packet) : Statement (.preempt fn q k) := nofun

theorem resume (fn : Nat) (q : Nat) (k : Packet) : Statement (.resume fn q k) := nofun

theorem resumeskip (fn : Nat) (q : Nat) (k : Packet) : Statement (.resumeskip fn q k) := nofun

theorem refill (fn : Nat) (q : Nat) (k : Packet) : Statement (.refill fn q k) := nofun

theorem save (fn : Nat) (q : Nat) (k : Packet) : Statement (.save fn q k) := nofun

theorem restore (fn : Nat) (q : Nat) (k : Packet) : Statement (.restore fn q k) := nofun

theorem kill (fn : Nat) (q : Nat) (k : Packet) : Statement (.kill fn q k) := nofun

theorem revoke (fn : Nat) (q : Nat) (k : Packet) : Statement (.revoke fn q k) := nofun

theorem revokeComplete (n : Nat) : Statement (.revokeComplete n) := nofun

theorem claim (fn : Nat) (q : Nat) (k : Packet) : Statement (.claim fn q k) := nofun

theorem resync (fn : Nat) (q : Nat) (k : Packet) : Statement (.resync fn q k) := nofun

theorem attest (fn : Nat) (q : Nat) (k : Packet) : Statement (.attest fn q k) := nofun

theorem completionRecord (fn : Nat) (q : Nat) : Statement (.completionRecord fn q) := nofun

theorem interruptRequest (fn : Nat) (vec : Nat) : Statement (.interruptRequest fn vec) := nofun

theorem powerOn (ok0 : Bool) (ok1 : Bool) (digest0 : BitVec 256) (digest1 : BitVec 256) (fail : BitVec 46) : Statement (.powerOn ok0 ok1 digest0 digest1 fail) := nofun

theorem zeroComplete : Statement .zeroComplete := nofun

theorem configRequest (r : OutsideRead) : Statement (.configRequest r) := nofun

theorem functionLevelReset (fn : Nat) : Statement (.functionLevelReset fn) := nofun

theorem interchangeMessage (m : Message) : Statement (.interchangeMessage m) := nofun

theorem refusedAccess (requester : Nat) (write : Bool) : Statement (.refusedAccess requester write) := nofun

theorem linkRetryExhausted : Statement .linkRetryExhausted := nofun

theorem sensorAlarm : Statement .sensorAlarm := nofun

theorem deviceReset : Statement .deviceReset := nofun

theorem powerLoopTick (input : BitVec 16) : Statement (.powerLoopTick input) := nofun

theorem overpowerTrip : Statement .overpowerTrip := nofun

theorem phcWrite (part : Nat) (v : Word) : Statement (.phcWrite part v) := nofun

theorem ps3rWrite (part : Nat) (n : Nat) (v : Word) : Statement (.ps3rWrite part n v) := nofun

theorem pqosWrite (part : Nat) (v : Word) : Statement (.pqosWrite part v) := nofun

theorem tagbaseWrite (stack : Nat) (v : Word) : Statement (.tagbaseWrite stack v) := nofun

theorem zero (v : Word) : Statement (.zero v) := nofun

theorem pwrlimWrite (v : Word) : Statement (.pwrlimWrite v) := nofun

theorem registerWrite (r : RegTarget) (v : Word) : Statement (.registerWrite r v) := nofun

theorem bfmtWrite (n : BitVec 6) (v : Word) : Statement (.bfmtWrite n v) := nofun

theorem mcfgWrite (v : Word) : Statement (.mcfgWrite v) := nofun

theorem rmodeWrite (v : Word) : Statement (.rmodeWrite v) := nofun

theorem axcfgWrite (v : Word) : Statement (.axcfgWrite v) := nofun

theorem axwinWrite (v : Word) : Statement (.axwinWrite v) := nofun

theorem spareaWrite (v : Word) : Statement (.spareaWrite v) := nofun

theorem splimWrite (v : Word) : Statement (.splimWrite v) := nofun

theorem seqJump (target : BitVec 13) : Statement (.seqJump target) := nofun

theorem seqBrif (c : Cond) (target : BitVec 13) : Statement (.seqBrif c target) := nofun

theorem seqLoop (n : BitVec 2) (target : BitVec 13) : Statement (.seqLoop n target) := nofun

theorem seqCallrom (target : BitVec 13) : Statement (.seqCallrom target) := nofun

theorem seqRetrom : Statement .seqRetrom := nofun

theorem seqEnd : Statement .seqEnd := nofun

theorem seqRaise (c : Cond) (code : BitVec 13) : Statement (.seqRaise c code) := nofun

theorem laneMov (l : LaneArgs) : Statement (.laneMov l) := nofun

theorem laneAdd (l : LaneArgs) : Statement (.laneAdd l) := nofun

theorem laneSub (l : LaneArgs) : Statement (.laneSub l) := nofun

theorem laneMul (l : LaneArgs) : Statement (.laneMul l) := nofun

theorem laneFma (l : LaneArgs) : Statement (.laneFma l) := nofun

theorem laneFnma (l : LaneArgs) : Statement (.laneFnma l) := nofun

theorem laneHorn (l : LaneArgs) : Statement (.laneHorn l) := nofun

theorem laneMin (l : LaneArgs) : Statement (.laneMin l) := nofun

theorem laneMax (l : LaneArgs) : Statement (.laneMax l) := nofun

theorem laneAbs (l : LaneArgs) : Statement (.laneAbs l) := nofun

theorem laneNeg (l : LaneArgs) : Statement (.laneNeg l) := nofun

theorem laneClmps (l : LaneArgs) : Statement (.laneClmps l) := nofun

theorem laneAnd (l : LaneArgs) : Statement (.laneAnd l) := nofun

theorem laneOr (l : LaneArgs) : Statement (.laneOr l) := nofun

theorem laneXor (l : LaneArgs) : Statement (.laneXor l) := nofun

theorem laneShl (l : LaneArgs) : Statement (.laneShl l) := nofun

theorem laneShr (l : LaneArgs) : Statement (.laneShr l) := nofun

theorem laneSra (l : LaneArgs) : Statement (.laneSra l) := nofun

theorem laneCmplt (l : LaneArgs) : Statement (.laneCmplt l) := nofun

theorem laneCmple (l : LaneArgs) : Statement (.laneCmple l) := nofun

theorem laneCmpeq (l : LaneArgs) : Statement (.laneCmpeq l) := nofun

theorem laneSel (l : LaneArgs) : Statement (.laneSel l) := nofun

theorem laneSelz (l : LaneArgs) : Statement (.laneSelz l) := nofun

theorem laneRndi (l : LaneArgs) : Statement (.laneRndi l) := nofun

theorem laneCvt (l : LaneArgs) : Statement (.laneCvt l) := nofun

theorem laneScalb (l : LaneArgs) : Statement (.laneScalb l) := nofun

theorem laneMantc (l : LaneArgs) : Statement (.laneMantc l) := nofun

theorem laneExpc (l : LaneArgs) : Statement (.laneExpc l) := nofun

theorem laneRcpe (l : LaneArgs) : Statement (.laneRcpe l) := nofun

theorem laneRsqe (l : LaneArgs) : Statement (.laneRsqe l) := nofun

theorem laneRecs (l : LaneArgs) : Statement (.laneRecs l) := nofun

theorem laneRsqs (l : LaneArgs) : Statement (.laneRsqs l) := nofun

theorem laneResd (l : LaneArgs) : Statement (.laneResd l) := nofun

theorem laneFixrcp (l : LaneArgs) : Statement (.laneFixrcp l) := nofun

theorem laneFixrsq (l : LaneArgs) : Statement (.laneFixrsq l) := nofun

theorem laneFixlog (l : LaneArgs) : Statement (.laneFixlog l) := nofun

theorem laneNcdf (l : LaneArgs) : Statement (.laneNcdf l) := nofun

theorem laneNpdf (l : LaneArgs) : Statement (.laneNpdf l) := nofun

theorem laneNscl (l : LaneArgs) : Statement (.laneNscl l) := nofun

theorem laneRadd (l : LaneArgs) : Statement (.laneRadd l) := nofun

theorem laneRmax (l : LaneArgs) : Statement (.laneRmax l) := nofun

theorem laneBce (l : LaneArgs) : Statement (.laneBce l) := nofun

theorem laneNetu (l : LaneArgs) : Statement (.laneNetu l) := nofun

theorem laneFmab (l : LaneArgs) : Statement (.laneFmab l) := nofun

theorem aguLd (u : AguArgs) : Statement (.aguLd u) := nofun

theorem aguSt (u : AguArgs) : Statement (.aguSt u) := nofun

theorem aguLdc (u : AguArgs) : Statement (.aguLdc u) := nofun

theorem aguStc (u : AguArgs) : Statement (.aguStc u) := nofun

theorem tileFeed (t : TileArgs) : Statement (.tileFeed t) := nofun

theorem tileDrow (t : TileArgs) : Statement (.tileDrow t) := nofun

theorem tileFrow (t : TileArgs) : Statement (.tileFrow t) := nofun

theorem miscCld (n : BitVec 2) (lit : Option (BitVec 16)) : Statement (.miscCld n lit) := nofun

theorem miscRpop : Statement .miscRpop := nofun

theorem miscNegin (l : LaneArgs) : Statement (.miscNegin l) := nofun

theorem miscNegchk (l : LaneArgs) : Statement (.miscNegchk l) := nofun

theorem interruptUnmask (fn : Nat) (vec : Nat) : Statement (.interruptUnmask fn vec) := nofun

theorem adapterSlotRelease (part : Nat) (slot : Nat) : Statement (.adapterSlotRelease part slot) := nofun

end Sys2Proof.Laws.RoundTrip
end

