-- ==== Sys2Proof/Laws/Tile.lean ====
section
/-! SUPPORT. Rows of the accumulator planes: a row reads as it was last written, the other rows as before. -/
namespace Sys2Proof.Machine

theorem getAcc_row (vals : List F32) (b : Nat) : ∀ (i j : Nat), i ≤ j →
    SMap.get 0#32 (((vals.zipIdx i).filter (fun p => p.1 != 0#32)).map (fun p => (b + p.2, p.1))) (b + j) =
      vals.getD (j - i) 0#32 := by
  induction vals with
  | nil => intro i j _; simp [SMap.get]
  | cons v t ih =>
    intro i j h
    rw [List.zipIdx_cons]
    by_cases hv : v = 0#32
    · rw [List.filter_cons_of_neg (by simp [hv])]
      rcases Nat.eq_or_lt_of_le h with rfl | h'
      · simp only [Nat.sub_self, List.getD_cons_zero, hv]
        clear ih
        have : ∀ (l : List F32) (k : Nat), i < k → SMap.get 0#32 (((l.zipIdx k).filter (fun p => p.1 != 0#32)).map
            (fun p => (b + p.2, p.1))) (b + i) = 0#32 := by
          intro l
          induction l with
          | nil => intro k _; rfl
          | cons w l ihl =>
            intro k hk
            rw [List.zipIdx_cons]
            by_cases hw : w = 0#32
            · rw [List.filter_cons_of_neg (by simp [hw])]; exact ihl (k + 1) (by omega)
            · rw [List.filter_cons_of_pos (by simp [hw]), List.map_cons]
              simp only [SMap.get]
              rw [if_neg (by omega)]; exact ihl (k + 1) (by omega)
        exact this t (i + 1) (by omega)
      · rw [ih (i + 1) j h', show j - i = (j - (i + 1)) + 1 by omega, List.getD_cons_succ]
    · rw [List.filter_cons_of_pos (by simp [hv]), List.map_cons]
      simp only [SMap.get]
      rcases Nat.eq_or_lt_of_le h with rfl | h'
      · simp
      · rw [if_neg (by omega), ih (i + 1) j h', show j - i = (j - (i + 1)) + 1 by omega, List.getD_cons_succ]

/-- The entries that a write of a row puts in lie in the row's keys. -/
theorem rowEntries_range (vals : List F32) (b : Nat) {x : Nat × F32}
    (hx : x ∈ ((vals.take 192).zipIdx.filter (fun p => p.1 != 0#32)).map (fun p => (b + p.2, p.1))) :
    b ≤ x.1 ∧ x.1 < b + 192 := by
  simp only [List.mem_map, List.mem_filter, List.mem_zipIdx_iff_getElem?] at hx
  obtain ⟨⟨v, n⟩, ⟨h1, _⟩, rfl⟩ := hx
  have hn : n < (vals.take 192).length := (List.getElem?_eq_some_iff.1 h1).1
  have : (vals.take 192).length ≤ 192 := by rw [List.length_take]; omega
  exact ⟨Nat.le_add_right .., by show b + n < b + 192; omega⟩

theorem filter_none {α : Type} {p : α → Bool} {l : List α} (h : ∀ x ∈ l, p x = false) : l.filter p = [] :=
  List.filter_eq_nil_iff.2 (fun x hx => by simp [h x hx])

/-- A row that was written reads as its values, zeros beyond them. -/
theorem accRow_setAccRow_self (k : Core) (p r : Nat) (vals : List F32) :
    (k.setAccRow p r vals).accRow p r = (List.range 192).map (fun j => (vals.take 192).getD j 0#32) := by
  unfold Core.accRow Core.setAccRow
  refine List.map_congr_left (fun j _ => ?_)
  have h1 : (k.acc.filter (fun x => x.1 < accKey p r 0)).filter
      (fun x => accKey p r 0 ≤ x.1 && x.1 < accKey p r 0 + 192) = [] :=
    filter_none (fun x hx => by have := (List.mem_filter.1 hx).2; simp at this ⊢; omega)
  have h2 : (k.acc.filter (fun x => accKey p r 0 + 192 ≤ x.1)).filter
      (fun x => accKey p r 0 ≤ x.1 && x.1 < accKey p r 0 + 192) = [] :=
    filter_none (fun x hx => by have := (List.mem_filter.1 hx).2; simp at this ⊢; omega)
  simp only [List.filter_append, h1, h2, List.nil_append, List.append_nil]
  rw [List.filter_eq_self.2 (fun x hx => by have := rowEntries_range vals _ hx; simp; omega)]
  have := getAcc_row (vals.take 192) (accKey p r 0) 0 j (by omega)
  simpa using this

/-- Another row, or the row of another plane, reads as before. -/
theorem accRow_setAccRow_ne (k : Core) {p r q n : Nat} (vals : List F32) (hn : n < 96) (hr : r < 96)
    (h : q ≠ p ∨ n ≠ r) : (k.setAccRow p r vals).accRow q n = k.accRow q n := by
  have apart : accKey q n 0 + 192 ≤ accKey p r 0 ∨ accKey p r 0 + 192 ≤ accKey q n 0 := by
    unfold accKey
    rcases Nat.lt_trichotomy (q * 96 + n) (p * 96 + r) with h1 | h1 | h1
    · left; omega
    · exfalso; omega
    · right; omega
  unfold Core.accRow Core.setAccRow
  refine List.map_congr_left (fun j _ => ?_)
  congr 1
  have h1 := filter_none (p := fun x : Nat × F32 => accKey q n 0 ≤ x.1 && x.1 < accKey q n 0 + 192)
    (fun x hx => by have := rowEntries_range vals (accKey p r 0) hx; simp; omega)
  simp only [List.filter_append, h1, List.append_nil, List.filter_filter]
  rcases apart with h2 | h2
  · rw [filter_none (p := fun x : Nat × F32 => (accKey q n 0 ≤ x.1 && x.1 < accKey q n 0 + 192) && accKey p r 0 + 192 ≤ x.1)
      (fun x _ => by simp; omega), List.append_nil]
    exact List.filter_congr (fun x _ => by simp; omega)
  · rw [filter_none (p := fun x : Nat × F32 => (accKey q n 0 ≤ x.1 && x.1 < accKey q n 0 + 192) && x.1 < accKey p r 0)
      (fun x _ => by simp; omega), List.nil_append]
    exact List.filter_congr (fun x _ => by simp; omega)

end Sys2Proof.Machine
end

