-- ==== Sys2Proof/Tests/Slice0.lean ====
section
/-! SUPPORT. Tests: ill-formed terms, words written out from the spec's encodings, single steps on small states, and for every
statement about some states a state and operands that meet its hypotheses. -/
set_option maxRecDepth 100000
set_option Elab.async false
namespace Sys2Proof.Tests
open Sys2Proof Sys2Proof.Machine

/-- The guard of p0, always true (R77). -/
abbrev g : Guard := ⟨0, false⟩

/-! ## Words -/

/-- Words of the C slot, from the encodings of the instruction entries. -/
theorem test_decode_c1 : ([
    (0x2000004001, .br g 0x800001#24),
    (0x24002, .brx g 9),
    (0x48D158003, .call g 0x123456#24),
    (0x84004, .callx g 33),
    (0x5, .ret g),
    (0x10200044006, .loop g 17 0x0102#16),
    (0x320004007, .loopi g 0x8001#16 3#16),
    (0x8, .halt g),
    (0x9, .yield g),
    (0xA, .park g),
    (0x70000000B, .trap g 7#16),
    (0xC, .tret g),
    (0x80020000000D, .svc g 0x8002#16),
    (0x48C00E, .fence g ⟨true, true, false, false⟩ ⟨false, true, false, false⟩ .cluster),
    (0x40000F, .drain g .cluster),
    (0x88010, .barc g 34)] : List (SlotBits × Instr)).all (fun q => decodeSlot .c q.1 == .instr q.2 []) = true := by decide +kernel

/-- Words of the C slot, from the encodings of the instruction entries. -/
theorem test_decode_c2 : ([
    (0xC0000C011, .axenter g 3 0xC#16),
    (0x12, .axleave g),
    (0x80024013, .getc g 9 0x800#12),
    (0x8014014, .setc g 0x080#12 5),
    (0x204000015, .setci g 0x040#12 2#16)] : List (SlotBits × Instr)).all (fun q => decodeSlot .c q.1 == .instr q.2 []) = true := by decide +kernel

/-- Words of the X slot, from the encodings of the instruction entries. -/
theorem test_decode_x3 : ([
    (0x84614001, .add g 5 6 33),
    (0x84614002, .sub g 5 6 33),
    (0x84614004, .mul g 5 6 33),
    (0x84614005, .mulh g 5 6 33),
    (0x84614006, .mulhu g 5 6 33),
    (0x84614007, .div g 5 6 33),
    (0x84614008, .divu g 5 6 33),
    (0x84614009, .rem g 5 6 33),
    (0x8461400A, .remu g 5 6 33),
    (0x8461400B, .and g 5 6 33),
    (0x8461400C, .or g 5 6 33),
    (0x8461400D, .xor g 5 6 33),
    (0x84614011, .shl g 5 6 33),
    (0x84614012, .shr g 5 6 33),
    (0x84614013, .sra g 5 6 33),
    (0x84614017, .min g 5 6 33)] : List (SlotBits × Instr)).all (fun q => decodeSlot .x q.1 == .instr q.2 []) = true := by decide +kernel

/-- Words of the X slot, from the encodings of the instruction entries. -/
theorem test_decode_x4 : ([
    (0x84614018, .max g 5 6 33),
    (0x84614019, .minu g 5 6 33),
    (0x8461401A, .maxu g 5 6 33),
    (0x800300614003, .addi g 5 6 0x8003#16),
    (0x80030061400E, .andi g 5 6 0x8003#16),
    (0x80030061400F, .ori g 5 6 0x8003#16),
    (0x800300614010, .xori g 5 6 0x8003#16),
    (0x2300614014, .shli g 5 6 35),
    (0x2300614015, .shri g 5 6 35),
    (0x2300614016, .srai g 5 6 35),
    (0x221401B, .clz g 5 34),
    (0x221401C, .popc g 5 34),
    (0x7FC1401D, .li g 5 0x7FC#28),
    (0x80000011401E, .lih g 5 0x8000001#28),
    (0x31C61401F, .sel g 5 3 6 7),
    (0x84524020, .cmpeq g 9 5 33)] : List (SlotBits × Instr)).all (fun q => decodeSlot .x q.1 == .instr q.2 []) = true := by decide +kernel

/-- Words of the X slot, from the encodings of the instruction entries. -/
theorem test_decode_x5 : ([
    (0x84524021, .cmpne g 9 5 33),
    (0x84524022, .cmplt g 9 5 33),
    (0x84524023, .cmpltu g 9 5 33),
    (0x84524024, .cmple g 9 5 33),
    (0x84524025, .cmpleu g 9 5 33),
    (0xA00504026, .cmpeqi g 1 5 10#16),
    (0xA00504027, .cmplti g 1 5 10#16),
    (0x30324028, .pand g 9 3 12),
    (0x30324029, .por g 9 3 12),
    (0x3032402A, .pxor g 9 3 12),
    (0x32402B, .pnot g 9 3),
    (0x214402C, .movxa g 17 33),
    (0x118402D, .movax g 33 17)] : List (SlotBits × Instr)).all (fun q => decodeSlot .x q.1 == .instr q.2 []) = true := by decide +kernel

/-- Words of the A slot, from the encodings of the instruction entries. -/
theorem test_decode_a6 : ([
    (0x840000088C001, .aadd g 3 17 33),
    (0xC000018C002, .aaddi g 3 3 384#29),
    (0x80000000000C4003, .ali g 17 0x100000000001#45),
    (0x808000040100C004, .vld g 1025 3 0x202#10),
    (0x808000040100C005, .vst g 1025 3 0x202#10),
    (0x808000040100C006, .vlds g 1025 3 0x202#10),
    (0x808000040100C007, .vsts g 1025 3 0x202#10),
    (0x808000040100C00C, .vldr g 1025 3 0x202#10),
    (0x808000040100C00D, .vstr g 1025 3 0x202#10),
    (0x2020340100C008, .vgath g .w 1025 3 1030),
    (0x2020340100C009, .vscat g .w 1025 3 1030),
    (0xA180000000800A, .ldx g .w 6 2 2#10),
    (0xFFD840000000800B, .stx g .h 33 2 0x3FF#10),
    (0x808000008100C00E, .mld g 129 3 0x202#10),
    (0x808000008100C00F, .mst g 129 3 0x202#10),
    (0x840000088C010, .tld g 3 17 33)] : List (SlotBits × Instr)).all (fun q => decodeSlot .a q.1 == .instr q.2 []) = true := by decide +kernel

/-- Words of the A slot, from the encodings of the instruction entries. -/
theorem test_decode_a7 : ([
    (0x840000088C011, .tst g 3 17 33),
    (0x840000088C012, .scopy g 3 17 33),
    (0x401044013, .winset g 17 1025),
    (0x8E1400000008018, .amoadd g false 5 2 35),
    (0x8F1400000008019, .amoand g true 5 2 35),
    (0x8E140000000801A, .amoor g false 5 2 35),
    (0x8F140000000801B, .amomin g true 5 2 35),
    (0x8E140000000801C, .amomax g false 5 2 35),
    (0x8F140000000801D, .amoswap g true 5 2 35),
    (0x1F140000000801E, .amocas g true 5 2 7)] : List (SlotBits × Instr)).all (fun q => decodeSlot .a q.1 == .instr q.2 []) = true := by decide +kernel

/-- Words of the V slot, from the encodings of the instruction entries. -/
theorem test_decode_v8 : ([
    (0x8000010010078001, .vadd g .f8a .rne true 3 1 2),
    (0x8000010010078002, .vsub g .f8a .rne true 3 1 2),
    (0x8000010010078003, .vmul g .f8a .rne true 3 1 2),
    (0x500C010010140004, .vfma g .f32 .sr false 10 1 2 1027),
    (0x500C010010140005, .vfms g .f32 .sr false 10 1 2 1027),
    (0x1802803C006, .vmin g .f8b 1025 2 3),
    (0x1802803C007, .vmax g .f8b 1025 2 3),
    (0x1802803C011, .vcmpeq g .f8b 1025 2 3),
    (0x1802803C012, .vcmplt g .f8b 1025 2 3),
    (0x1802803C013, .vcmple g .f8b 1025 2 3),
    (0x1802803C01A, .vperm g .f8b 1025 2 3),
    (0x8000000028034008, .vabs g .i8 true 1025 2),
    (0x8000000028034009, .vneg g .i8 true 1025 2),
    (0x1802802000A, .vand g 1025 2 3),
    (0x1802802000B, .vor g 1025 2 3),
    (0x1802802000C, .vxor g 1025 2 3)] : List (SlotBits × Instr)).all (fun q => decodeSlot .v0 q.1 == .instr q.2 []) = true := by decide +kernel

/-- Words of the V slot, from the encodings of the instruction entries. -/
theorem test_decode_v9 : ([
    (0x2802000D, .vnot g 1025 2),
    (0x28020016, .vmov g 1025 2),
    (0x1802802C00E, .vshl g .i32 1025 2 3),
    (0x1802803000F, .vshr g .i16 1025 2 3),
    (0x18028034010, .vsra g .i8 1025 2 3),
    (0x1010018028020014, .vsel g 1025 2 3 1028),
    (0x60144015, .vcvt g .bf16 .f32 .rne false 10 6),
    (0x210000000008028017, .vbcst g .f16 1025 33),
    (0x17E10000000028028018, .vinsx g .f16 1025 2 33 95),
    (0x17E10000004020008019, .vextx g .f16 33 1026 95),
    (0x6000000000600E401B, .vrot g .bf16 7 6 96#16),
    (0x200000002802801C, .vradd g .f16 .rtz 1025 2),
    (0x200000002802801F, .vscan g .f16 .rtz 1025 2),
    (0x2802801D, .vrmax g .f16 .rne 1025 2),
    (0x2802801E, .vrmin g .f16 .rne 1025 2),
    (0xFFA00000000000050020, .viota g .i16 2 0xFFA0#16)] : List (SlotBits × Instr)).all (fun q => decodeSlot .v0 q.1 == .instr q.2 []) = true := by decide +kernel

/-- Words of the V slot, from the encodings of the instruction entries. -/
theorem test_decode_v10 : ([
    (0x28020030, .vexp g 1025 2),
    (0x28020031, .vlog g 1025 2),
    (0x28020032, .vrcp g 1025 2),
    (0x28020033, .vrsq g 1025 2),
    (0x28020034, .vtanh g 1025 2),
    (0x28020035, .vsigm g 1025 2),
    (0x10010080040, .madd g 4 1 2),
    (0x10010080041, .msub g 4 1 2),
    (0x10010080042, .mmul g 4 1 2),
    (0xE010011020043, .maff g 129 1 1026 3),
    (0x821020044, .msqr g 129 130),
    (0x821020047, .mmov g 129 130),
    (0x821020048, .mrelu g 129 130),
    (0x821020049, .mexp g 129 130),
    (0x1C021020045, .mform g 129 1026 3),
    (0x20000000828020046, .mcoll g .sample 1025 130)] : List (SlotBits × Instr)).all (fun q => decodeSlot .v0 q.1 == .instr q.2 []) = true := by decide +kernel

/-- Words of the T slot, from the encodings of the instruction entries. -/
theorem test_decode_t11 : ([
    (0x1224A40001, .tmma g .z0 4 5 9 2 true none),
    (0xEA24A48001, .tmma g .z01 4 5 9 10 false (some 3)),
    (0x1224A44002, .tmmb g .z1 4 5 9 2 true),
    (0x224A48003, .tmmm g 4 5 9 2 false),
    (0x84008004, .tzero g .z01 33),
    (0x1C010000114005, .tdrain g .z1 17 .sbias 1025),
    (0x114006, .tfill g true 17)] : List (SlotBits × Instr)).all (fun q => decodeSlot .t q.1 == .instr q.2 []) = true := by decide +kernel

/-- Words of the E slot, from the encodings of the instruction entries. -/
theorem test_decode_e12 : ([
    (0x110C001, .chstart g 3 17),
    (0xC002, .chstop g 3),
    (0x84000C003, .ringcfg g 3 33),
    (0x2000000000000C004, .awaitf g 3 2),
    (0x8001000000000000C005, .rels g 3 0x8001#16),
    (0x84000C006, .ringrd g 33 3),
    (0x10000000000314008, .ysort g 3 5 1),
    (0x10000000000314009, .ygath g 3 5 1),
    (0x1000000000031400A, .ycomb g 3 5 1),
    (0x10000000000314010, .xa2av g 3 5 1),
    (0x10000000000314011, .xar g 3 5 1),
    (0x10000000000314012, .xag g 3 5 1),
    (0x10000000840314013, .xrun g 3 33 5 1),
    (0x10000000840314020, .sealL g 3 33 5 1),
    (0x10000000840314021, .openL g 3 33 5 1),
    (0x400000100200700018, .sendh g 4 7 8 0x40)] : List (SlotBits × Instr)).all (fun q => decodeSlot .e q.1 == .instr q.2 []) = true := by decide +kernel

/-- Words of the E slot, from the encodings of the instruction entries. -/
theorem test_decode_e13 : ([
    (0x10040840000028, .rqseed g 1025 33),
    (0xC030, .axinv g 3),
    (0x50000C031, .axqry g 20 3)] : List (SlotBits × Instr)).all (fun q => decodeSlot .e q.1 == .instr q.2 []) = true := by decide +kernel

/-- Words of the V slot, from the encodings of the instruction entries. -/
theorem test_decode_v14 : ([
    (0x280300800800C4, .boundInstruction g .v 4 (0x00280300800800C4 >>> 14)),
    (0x300000B01502E00C8, .boundInstruction g .v 8 (0x000300000B01502E00C8 >>> 14))] : List (SlotBits × Instr)).all (fun q => decodeSlot .v0 q.1 == .instr q.2 []) = true := by decide +kernel

/-- Words of the A slot, from the encodings of the instruction entries. -/
theorem test_decode_a15 : ([
    (0x80000000000040FF, .boundInstruction g .a 0x3F 0x2000000000001)] : List (SlotBits × Instr)).all (fun q => decodeSlot .a q.1 == .instr q.2 []) = true := by decide +kernel

/-- Words of the T slot, from the encodings of the instruction entries. -/
theorem test_decode_t16 : ([
    (0x800000000000000040C0, .boundInstruction g .t 0 0x20000000000000001)] : List (SlotBits × Instr)).all (fun q => decodeSlot .t q.1 == .instr q.2 []) = true := by decide +kernel

/-- The bundle of "The assembler" (04): `(p2) VFMA.F32.SR v10, v1, v2, v3 | VST v12, [a3 + 128]`, header 0x4E. -/
theorem test_decode_bundle :
    readBundle ((0x400C010010140204 <<< 192 : BundleBits) ||| (0x008000000C00C005 <<< 128 : BundleBits) ||| (0x4E : BundleBits)) =
      ⟨⟨⟨0, 0, 1, 0, 3, true, false⟩, [(.a, .vst g 12 3 2), (.v0, .vfma ⟨2, false⟩ .f32 .sr false 10 1 2 3)]⟩, []⟩ := by
  decide +kernel

/-- Set bits that no field holds are ILLEGAL at their place, and so is an opcode that the slot does not have (R77, R99,
R100). -/
theorem test_decode_refuses :
    decodeSlot .c 0x2000#80 = .reserved 13 ∧ decodeSlot .c 0x16#80 = .reserved 0 ∧ decodeSlot .x 0x2E#80 = .reserved 0 ∧
    decodeSlot .a 0x14#80 = .reserved 0 ∧ decodeSlot .v1 0x36#80 = .reserved 0 ∧ decodeSlot .t 0x07#80 = .reserved 0 ∧
    decodeSlot .e 0x07#80 = .reserved 0 ∧ decodeSlot .x 0x11C614001#80 = .instr (.add g 5 6 7) [32] := by decide +kernel

/-- A table word: the bundle that holds one instruction. -/
theorem test_decode_table_word :
    decodeTableWord 512 (0x000204000015 * 2 ^ 32) = some (.setci g 0x040 2) ∧ decodeTableWord 512 0 = some .nop ∧
    decodeTableWord 512 (0x2000 * 2 ^ 32) = none := by decide +kernel

/-- The stitches written out in 06, 21 and 22. -/
theorem test_decode_stitches : ([
    (0xA92284200006, ⟨.stop, some (2, ⟨.i8, true, .p 0, .p 1, .p 2, none⟩),
      none, none, none, false, false, false, ⟨.i8, true, .p 0, .p 1, .p 2, none⟩, none⟩),
    (0x202229900000, ⟨.next, some (0x19, ⟨.bf16, false, .h 5, .p 1, .h 0, none⟩),
      none, none, none, false, false, false, ⟨.bf16, false, .h 5, .p 1, .h 0, none⟩, none⟩),
    (0x0861E00800108184, ⟨.callrom 0x1030, some (1, ⟨.pair, false, .h 0, .h 4, .h 0, none⟩),
      some (1, ⟨.pair, .h 6, 2, false, 0, 0, 0, none, 0⟩), none, none, false, false, false, ⟨.pair, false, .h 0, .h 4, .h 0, none⟩, none⟩),
    (0x0024E01098100006, ⟨.stop, some (1, ⟨.pair, false, .p 3, .h 8, .h 0, none⟩),
      some (4, ⟨.pair, .h 2, 0, false, 0, 0, 0, none, 0⟩), none, none, false, false, false, ⟨.pair, false, .p 3, .h 8, .h 0, none⟩, none⟩),
    (0x05000000000000000000A02200100000, ⟨.next, some (1, ⟨.i8, false, .h 0, .p 1, .h 0, none⟩),
      none, none, some 1, false, false, false, ⟨.i8, false, .h 0, .p 1, .h 0, none⟩, none⟩),
    (0xA9000421000B, ⟨.loop 1 1, some (2, ⟨.i8, true, .h 0, .h 0, .p 2, none⟩),
      none, none, none, false, false, false, ⟨.i8, true, .h 0, .h 0, .p 2, none⟩, none⟩),
    (0xA00080100006, ⟨.stop, some (1, ⟨.i8, false, .p 0, .h 0, .h 0, none⟩),
      none, none, none, false, false, false, ⟨.i8, false, .p 0, .h 0, .h 0, none⟩, none⟩)]
    : List (StitchBits × Stitch)).all (fun q => readStitch q.1 == q.2 && encodeStitch q.2 == q.1 && stitchBad q.1 == []) = true := by
  decide +kernel

/-- SEQ values 1 to 7 with target at [15:3] and condition at [19:16] (R163). -/
theorem test_decode_sequencer : ([
    (1 + 0x1030 * 8, .jump 0x1030), (2 + 5 * 8 + 5 * 65536, .brif (.zero 1) 5), (2 + 5 * 8 + 8 * 65536, .brif .nvf 5),
    (3 + 5 * 8 + 2 * 65536, .loop 2 5), (4 + 0x1FFF * 8, .callrom 0x1FFF), (5, .retrom), (6, .stop),
    (7 + 0x20 * 8 + 3 * 65536, .raise .none 0x20)]
    : List (StitchBits × Seq)).all (fun q => readSeq q.1 == q.2) = true := by decide +kernel

/-- The lane operations by their codes in [25:20] (R166). -/
theorem test_decode_lane_operations :
    let l : LaneArgs := ⟨.f32, false, .h 1, .h 2, .h 3, none⟩
    let word := fun (n : Nat) => BitVec.ofNat 128 (n * 2 ^ 20 + 1 * 2 ^ 27 + 2 * 2 ^ 33 + 3 * 2 ^ 39)
    ([(0x01, .laneMov l), (0x02, .laneAdd l), (0x03, .laneSub l), (0x04, .laneMul l), (0x05, .laneFma l), (0x06, .laneFnma l),
      (0x07, .laneHorn l), (0x08, .laneMin l), (0x09, .laneMax l), (0x0A, .laneAbs l), (0x0B, .laneNeg l), (0x0C, .laneClmps l),
      (0x0D, .laneAnd l), (0x0E, .laneOr l), (0x0F, .laneXor l), (0x10, .laneShl l), (0x11, .laneShr l), (0x12, .laneSra l),
      (0x13, .laneCmplt l), (0x14, .laneCmple l), (0x15, .laneCmpeq l), (0x16, .laneSel l)] : List (Nat × Instr)).all
        (fun q => (readStitch (word q.1)).lane == some (q.1, l) && laneParts q.2 == some (q.1, l)) = true ∧
    ([(0x17, .laneSelz l), (0x18, .laneRndi l), (0x19, .laneCvt l), (0x1A, .laneScalb l), (0x1B, .laneMantc l), (0x1C, .laneExpc l),
      (0x1D, .laneRcpe l), (0x1E, .laneRsqe l), (0x1F, .laneRecs l), (0x20, .laneRsqs l), (0x21, .laneResd l), (0x22, .laneFixrcp l),
      (0x23, .laneFixrsq l), (0x24, .laneFixlog l), (0x25, .laneNcdf l), (0x26, .laneNpdf l), (0x27, .laneNscl l),
      (0x28, .laneRadd l), (0x29, .laneRmax l), (0x2A, .laneBce l), (0x2B, .laneNetu l), (0x2C, .laneFmab l)]
      : List (Nat × Instr)).all
        (fun q => (readStitch (word q.1)).lane == some (q.1, l) && laneParts q.2 == some (q.1, l)) = true := by decide +kernel

/-- The AGU operations in [51:48], the TILE operations in [81:80], and RPOP, NEGIN and NEGCHK at [125], [123] and [124] with
source A of the LANE field (R162, R171 to R173). -/
theorem test_decode_other_fields :
    ([1, 2, 3, 4].all (fun n => (readStitch (BitVec.ofNat 128 (n * 2 ^ 48 + 0x12 * 2 ^ 52 + 4 * 2 ^ 58 + 2 ^ 61 + 2 * 2 ^ 62 +
      33 * 2 ^ 64 + 0x201 * 2 ^ 70))).agu == some (n, ⟨.f32, .p 2, 4, true, 2, 33, 0x201, none, 0⟩))) = true ∧
    ([1, 2, 3].all (fun n => (readStitch (BitVec.ofNat 128 (1 * 2 ^ 45 + n * 2 ^ 80 + 2 ^ 82 + 47 * 2 ^ 83 + 0x10 * 2 ^ 90 +
      0x02 * 2 ^ 96 + 2 ^ 102))).tile == some (n, ⟨.bf16, true, .p 0, .h 2, 47, true⟩))) = true ∧
    (readStitch (BitVec.ofNat 128 (2 ^ 125))).rpop = true ∧ (readStitch (BitVec.ofNat 128 (2 ^ 123))).negin = true ∧
    (readStitch (BitVec.ofNat 128 (2 ^ 124 + 0x11 * 2 ^ 33))).negchk = true ∧
    (readStitch (BitVec.ofNat 128 (2 ^ 124 + 0x11 * 2 ^ 33))).neg.a = .p 1 ∧
    (readStitch (BitVec.ofNat 128 (2 ^ 126 + 2 ^ 122 + 3 * 2 ^ 120 + 0x3F800000 * 2 ^ 80))).lit = some 0x3F800000 ∧
    (readStitch (BitVec.ofNat 128 (2 ^ 126 + 2 ^ 122 + 3 * 2 ^ 120 + 0x3F800000 * 2 ^ 80))).cld = some 3 ∧
    stitchBad (BitVec.ofNat 128 (2 ^ 127)) = [127] ∧ stitchBad (BitVec.ofNat 128 (2 ^ 103)) = [103] := by decide +kernel

/-! ## Ill-formed terms -/

/-- Slot instructions that a rule of their fields refuses (R77 to R84, R99). -/
theorem test_wf_refuses_slots : ([
    .loop g 1 0, .loop g 1 0xFFFF, .loopi g 5 0, .getc g 1 0x005, .getc g 1 0x801, .setc g 0x000 1, .setc g 0x140 1, .setci g 0x061 1,
    .vadd g .i32 .rtz false 1 2 3, .vsub g .i16 .sr false 1 2 3, .vmul g .i8 .dyn true 1 2 3, .vfma g .i32 .sr false 1 2 3 4,
    .vfms g .i32 .dyn false 1 2 3 4, .vshl g .f32 1 2 3, .vshr g .bf16 1 2 3, .vsra g .f8b 1 2 3, .vabs g .f32 true 1 2,
    .vneg g .f16 true 1 2, .vcvt g .i8 .i16 .rtz false 1 2, .vinsx g .f32 1 2 3 96, .vextx g .f32 1 2 127,
    .vradd g .i32 .rtz 1 2] : List Instr).all (fun i => !i.wf) = true ∧ ([
    .vscan g .i8 .sr 1 2, .mcoll g .mv 2047 1, .mcoll g .msd 2047 1, .tmma g .z0 1 2 3 11 false none, .tmmb g .z0 1 2 3 15 false,
    .tmmb g .z01 1 2 3 0 false, .tmmm g 1 2 3 11 false, .tdrain g .z0 1 .none 1, .tdrain g .z0 1 .bias 2047,
    .tdrain g .z0 1 .brelu 2047, .tdrain g .z0 1 .sbias 2045, .boundInstruction g .a 0 (2 ^ 50 : BitVec 66)] : List Instr).all
      (fun i => !i.wf) = true := by decide +kernel

/-- Stitch fields that a rule of R163 to R173 refuses. -/
theorem test_wf_refuses_stitch_fields :
    let l : LaneArgs := ⟨.f32, false, .h 1, .h 2, .h 3, none⟩
    let u : AguArgs := ⟨.f32, .h 1, 0, false, 0, 0, 0, none, 0⟩
    let t : TileArgs := ⟨.bf16, false, .h 1, .h 2, 0, false⟩
    ([.seqJump 0x0C00, .seqBrif (.reserved 9) 0, .seqBrif .any 0x0FFF, .seqLoop 0 0x0C00, .seqCallrom 0x0FFF, .seqRaise (.reserved 15) 0x20,
      .seqRaise .any 0x01, .laneMov { l with sat := true }, .laneAdd { l with d := .one }, .laneAdd { l with a := .lit },
      .laneSub { l with b := .bad 0x26 }, .laneMul { l with fmt := .pair }, .laneFma { l with fmt := .i32 }, .laneAnd l,
      .laneCmplt l, .laneCvt { l with b := .p 1 }, .laneNetu { l with b := .p 0 }, .laneScalb { l with fmt := .f16 }] : List Instr).all
      (fun i => !i.wf) = true ∧
    ([.laneMantc { l with fmt := .pair }, .laneNscl { l with fmt := .pair }, .laneFmab { l with fmt := .i8 },
      .aguLd { u with reg := .k }, .aguLdc { u with base := 5 }, .aguSt { u with reg := .bad 0x26 }, .aguStc { u with ovr := some 15 },
      .tileFeed { t with fmt := .f32 }, .tileFeed { t with a := .lit }, .tileDrow { t with b := .h 1 }, .tileFrow { t with b := .k },
      .miscNegin { l with a := .lit }, .miscNegchk { l with fmt := .pair, a := .h 1 }] : List Instr).all (fun i => !i.wf) = true := by
  decide +kernel

/-- Device steps whose numbers name no core, platform, cluster, die, queue or register (R21, R65, R266, R333, R435). -/
theorem test_wf_refuses_numbers :
    ([.bundleIssue 384, .quantumExpiry 0 4, .timeshareHoldExpiry 384 0 0, .remoteAccessPerform 0 4 1 0, .faultQueuePost 48,
      .barrierOpen 24 0, .barrierOpen 0 32, .accumulatorSpill 0 2, .ringSpaceAvailable (.marshal 24), .ringAdvance (.cipher 384),
      .ysortExec 24 0, .tabletEmit (.cmd 0 4), .tabletEmit (.engine 5 0), .regionAllocate 4 0, .pairAccept 4, .trainingStep 0 1024] :
      List Instr).all (fun i => !i.wf) = true ∧
    ([.notifyTailWrite 65536 0 4 0, .notifyTailWrite 0 4096 4 0, .notifyTailWrite 0 0 9 0, .launch 0 8 default, .completionRecord 0 8,
      .interruptRequest 0 4096, .configRequest (.config 0 4096), .functionLevelReset 65536, .phcWrite 48 0, .ps3rWrite 0 4 0, .pqosWrite 48 0,
      .tagbaseWrite 8 0, .registerWrite (.hub (.pfq 48)) 0, .registerWrite (.ctx 0x000) 0, .adapterSlotRelease 0 4096] :
      List Instr).all (fun i => !i.wf) = true := by decide +kernel

/-! ## Small states -/

/-- A context that may reach all of own S1, its fault record at 0x7C0000. -/
def ctx0 : Ctx :=
  { Ctx.empty with state := .running, place := { Placement.empty with ilen := 8192, frec := 0x7C0000, ringmask := 2, barmask := 1 }
                   cregs := [(0x020, 0xFFFFFFFFFFFFFFFF#64)] }

/-- A core that runs a context on platform 0, and nothing else in the package. -/
def coreOf (c : Ctx) : Core := { Core.empty with plats := [(0, c)], running := some 0 }
def state (c : Ctx) : State := { State.reset with cores := [(0, coreOf c)] }

/-- The state after a step, and whether the step answers one. -/
def after (o : Host.Outcome State Fault Refusal) : State := match o with | .next t => t | .fault _ | .refused _ => State.reset

theorem calm_of {s : State} {core plat : Nat}
    (h : s.focus = (core, plat) ∧ (s.core core).running = some plat ∧ (s.core core).routine = none ∧
      (s.ctx core plat).state = .running ∧ (s.ctx core plat).resume = .none ∧
      (s.ctx core plat).inRange (s.ctx core plat).flow.pc = true ∧ (s.ctx core plat).flights = [] ∧
      (s.ctx core plat).pending = [] ∧ (s.ctx core plat).poison = [] ∧ (s.ctx core plat).override = [] ∧
      (s.ctx core plat).flow.after = none ∧ (s.ctx core plat).flow.loops = [] ∧ (s.ctx core plat).flow.xfer = none) :
    Calm s core plat :=
  have ⟨h1, h2, h3, h4, h5, h6, h7, h8, h9, h10, h11, h12, h13⟩ := h
  ⟨⟨h1, h2, h3, h4, h5, h6, h7, h8, h9, h10, h11⟩, h12, h13⟩

/-- The context on core 0 issues undisturbed, with the guard of p0. -/
theorem on_of {c : Ctx} (h : c.state = .running ∧ c.resume = .none ∧ c.inRange c.flow.pc = true ∧ c.flights = [] ∧
      c.pending = [] ∧ c.poison = [] ∧ c.override = [] ∧ c.flow.after = none ∧ c.flow.loops = [] ∧ c.flow.xfer = none ∧ c.guard g = true) :
    On (state c) 0 0 g :=
  have ⟨h1, h2, h3, h4, h5, h6, h7, h8, h9, h10, h11⟩ := h
  ⟨calm_of ⟨rfl, rfl, rfl, h1, h2, h3, h4, h5, h6, h7, h8, h9, h10⟩, h11⟩

/-- The scalar, logic, compare, move and address instructions have no hypothesis but an undisturbed issue. -/
theorem wit_on : On (state ctx0) 0 0 g := on_of (by decide +kernel)

/-! ## Issue, transfers, loops -/

theorem wit_guarded_off :
    (∀ n : BitVec 6, (Instr.barc ⟨1, false⟩ n).slot = some .c ∧ (state ctx0).marked 0 0 = false) ∧
    let c := { ctx0 with queue := [0], bindings := [⟨1, 0xC4, 0, 1, 0, 0, false, false⟩] }
    let g1 : Guard := ⟨1, false⟩
    Off (state c) 0 0 g1 ∧
    (let i := Instr.vadd g1 .f32 .sr false 1 2 3
     i.guard = some g1 ∧ i.slot = some .v0 ∧ i.wf = true ∧ i.pops = true ∧ c.queue ≠ []) ∧
    (let i := Instr.boundInstruction g1 .v 4 1
     i.guard = some g1 ∧ i.slot = some .v0 ∧ i.wf = true ∧ i.pops = false ∧ (c.binding .v 4).isSome) :=
  ⟨fun _ => ⟨rfl, by decide +kernel⟩, ⟨calm_of (by decide +kernel), by decide +kernel⟩, by decide +kernel⟩

/-- A context at bundle 5 of its flow. -/
def at5 (f : Flow → Flow) : Ctx := { ctx0 with flow := f { Flow.empty with pc := 5 } }

theorem quiet_of {c : Ctx} (h : c.state = .running ∧ c.resume = .none ∧ c.inRange c.flow.pc = true ∧ c.flights = [] ∧
      c.pending = [] ∧ c.poison = [] ∧ c.override = [] ∧ c.flow.after = none) : Quiet (state c) 0 0 :=
  have ⟨h1, h2, h3, h4, h5, h6, h7, h8⟩ := h
  ⟨rfl, rfl, rfl, h1, h2, h3, h4, h5, h6, h7, h8⟩

/-- A NOP bundle in a transfer's delay bundles, the second beside the end of a loop, at a loop's end with iterations left and at
its last, and at the end of two loops, of which the outer has one left or none. -/
theorem wit_nop : ∀ f ∈ ([id,
      fun f => { f with xfer := some ⟨9, true, 2, true⟩, loops := [⟨3, 6, 1⟩] },
      fun f => { f with xfer := some ⟨9, true, 1, true⟩, loops := [⟨3, 7, 1⟩, ⟨3, 9, 1⟩] },
      fun f => { f with xfer := some ⟨9, false, 1, false⟩, loops := [⟨3, 4, 1⟩] },
      fun f => { f with loops := [⟨3, 6, 0⟩, ⟨1, 8, 0⟩] },
      fun f => { f with loops := [⟨3, 5, 1⟩] },
      fun f => { f with loops := [⟨3, 5, 0⟩] },
      fun f => { f with loops := [⟨3, 5, 0⟩, ⟨1, 5, 2⟩] },
      fun f => { f with loops := [⟨3, 5, 0⟩, ⟨1, 5, 0⟩] }] : List (Flow → Flow)),
    Quiet (state (at5 f)) 0 0 ∧ ((f { Flow.empty with pc := 5 }).xfer = none ∨ ∀ l ∈ (f { Flow.empty with pc := 5 }).loops, l.last ≠ 5) := by
  intro f hf
  simp only [List.mem_cons, List.not_mem_nil, or_false] at hf
  rcases hf with rfl | rfl | rfl | rfl | rfl | rfl | rfl | rfl | rfl <;> exact ⟨quiet_of (by decide +kernel), by decide +kernel⟩

/-- A return stack of 15 entries for the calls, one of 16 whose oldest a RET pops, and a loop of count 1 and of count 0. -/
theorem wit_transfers :
    On (state (at5 (fun f => { f with rets := List.range 15 }))) 0 0 g ∧
    On (state (at5 (fun f => { f with rets := List.range 16 }))) 0 0 g ∧ (1 : Int) ≤ (1#16).toInt ∧
    ((state ctx0).xAt 0 0 5).toNat = 0 :=
  ⟨on_of (by decide +kernel), on_of (by decide +kernel), by decide +kernel, by decide +kernel⟩

/-! ## Exceptions -/

/-- A context whose handler at 0x30 is enabled, and one within it, with SKIP clear or set and the record of a fault. -/
def handled (cause : Word) : Ctx := { at5 id with cregs := [(0x020, 0xFFFFFFFFFFFFFFFF#64), (0x060, 0x2030#64), (0x062, cause)] }

theorem wit_trap :
    (On (state (handled 0)) 0 0 g ∧ ((handled 0).creg 0x060).getLsbD 13 = true ∧ ((handled 0).creg 0x062).getLsbD 15 = false) ∧
    (On (state (handled 0x8000)) 0 0 g ∧ ((handled 0x8000).creg 0x062).getLsbD 15 = true) ∧
    (On (state ctx0) 0 0 g ∧ (ctx0.creg 0x060).getLsbD 13 = false) :=
  ⟨⟨on_of (by decide +kernel), by decide +kernel⟩, ⟨on_of (by decide +kernel), by decide +kernel⟩, on_of (by decide +kernel),
    by decide +kernel⟩

/-- The state with a fault record at FREC of the given slot, DONE and code. -/
def recorded (c : Ctx) (code slot done : Nat) : State :=
  (state c).store (s1Place 0 0x7C0000) (faultRecord c ⟨code, slot, 7, 5, none⟩ ⟨done, 0, [], []⟩ 0)

theorem wit_tret : [(0x40, 1, 0x7E, 0x8000), (0x11, 0, 0, 0x18000), (0x20, 4, 0x77, 0x8000), (0x20, 4, 0x77, 0x18000)].all
    (fun q => let c := handled (BitVec.ofNat 64 q.2.2.2)
      let s := recorded c q.1 q.2.1 q.2.2.1
      let r := readRecord s 0 c.place.frec
      decide (s.ctx 0 0 = c ∧ (c.creg 0x062).getLsbD 15 = true ∧ c.shadow = none ∧ c.recAfter = none ∧ r.upc < 32768 ∧ r.slot < 8 ∧
        r.xferB / 4 % 2 = 0 ∧ (s.bundleIn 0 c r.mpc).bundle.hdr.sp = false ∧ r.code = q.1 ∧ r.slot = q.2.1 ∧ r.done = q.2.2.1)) = true := by
  decide +kernel

/-- An empty return stack, and one with an index spilled. -/
theorem wit_spill :
    (On (state ctx0) 0 0 g ∧ ctx0.flow.rets = [] ∧ ctx0.spn = 0) ∧
    (let c := { ctx0 with cregs := [(0x090, 0x1000000001040#64), (0x091, 0x2000#64)] }
     On (state c) 0 0 g ∧ 0 < c.spn) :=
  ⟨⟨on_of (by decide +kernel), by decide +kernel⟩, on_of (by decide +kernel), by decide +kernel⟩

/-! ## Leaving the core -/

/-- PARK with an arrival, YIELD and HALT beside a READY platform; with none of them as in wit_on. -/
theorem wit_leaving :
    (On (state ctx0) 0 0 g ∧ ctx0.preempt = none ∧ ctx0.arrivals = [] ∧
      (state ctx0).otherReady 0 0 = false) ∧
    (let c := { ctx0 with arrivals := [9, 7] }
     On (state c) 0 0 g ∧ c.arrivals = [9, 7]) ∧
    (let k := { coreOf ctx0 with plats := [(0, ctx0), (3, { ctx0 with state := .ready })] }
     let s := { State.reset with cores := [(0, k)] }
     On s 0 0 g ∧ (s.ctx 0 0).preempt = none ∧ s.otherReady 0 0 = true) :=
  ⟨⟨on_of (by decide +kernel), by decide +kernel⟩, ⟨on_of (by decide +kernel), by decide +kernel⟩,
    ⟨calm_of (by decide +kernel), by decide +kernel⟩, by decide +kernel⟩

/-! ## Order and control registers -/

/-- A store of eight bytes on its way to S2 (R386). -/
def store2 : Outbound :=
  ⟨4, .w, 0x200000000, [], [⟨s2Place 0 0, 0x200000000, 8, 0, false, false, false⟩], List.replicate 8 0xA5, .none, none, none⟩

/-- A FENCE and a DRAIN with and without a store under way; a barrier that has opened for the context, and one it has not
reached; a number that is no barrier, and one outside BARMASK. -/
theorem wit_order :
    (On (state ctx0) 0 0 g ∧ (state ctx0).undrained 0 0 .core = []) ∧
    (On (state { ctx0 with out := [store2] }) 0 0 g ∧ (state { ctx0 with out := [store2] }).undrained 0 0 .core = [4]) ∧
    (let s := { state ctx0 with clusters := [(0, { Cluster.empty with passed := [(0, [(0, 0)])] })] }
     On s 0 0 g ∧ (s.xAt 0 0 0).toNat = 0 ∧ ctx0.place.barmask.getLsbD 0 = true ∧ (ctx0.ctxid, ctx0.flow.pc) ∈ SMap.get [] (s.cluster 0).passed 0) ∧
    (let s := state ctx0
     (ctx0.ctxid, ctx0.flow.pc) ∉ SMap.get [] (s.cluster 0).passed 0 ∧ SMap.get [] (s.cluster 0).barriers 0 = [] ∧
      s.settled 0 0 = true) ∧
    ([(32, true), (1, false)].all fun q =>
      let s := state { ctx0 with regs := { Regs.empty with x := [(3, BitVec.ofNat 64 q.1)] } }
      (s.xAt 0 0 3).toNat == q.1 && (decide (32 ≤ q.1) == q.2) && ctx0.place.barmask.getLsbD q.1 == false) = true :=
  ⟨⟨on_of (by decide +kernel), by decide +kernel⟩, ⟨on_of (by decide +kernel), by decide +kernel⟩,
    ⟨⟨calm_of (by decide +kernel), by decide +kernel⟩, by decide +kernel⟩, by decide +kernel, by decide +kernel⟩

/-- Values that each register with a check takes, at the ends of their ranges: the BFMT of banks 0 and 63, an MCFG whose rho is one,
an AXCFG of LR 0.5 and one of the largest LR with BATCH 8 and 64, SPAREA and SPLIM with nothing spilled; a register without one. -/
theorem wit_cregs :
    On (state ctx0) 0 0 g ∧ cregAssigned 0x010 = true ∧ cregAssigned 0x091 = true ∧
    ([(0x100, 0x5#64), (0x13F, 0x2E#64), (0x030, 3#64), (0x031, 0x1F#64), (0x040, 6#64), (0x040, 0x3F800003#64), (0x080, 0x3F00000000200000#64),
      (0x080, 0x7F7FFFFF01000000#64), (0x081, 0x0000000C00000400#64), (0x090, 0x1000#64), (0x091, 0x2000#64)] : List (Nat × Word)).all
        (fun q => let f := fun lo w => q.2.toNat / 2 ^ lo % 2 ^ w
          cregWritable q.1 &&
          (!(0x100 ≤ q.1 && q.1 ≤ 0x13F) || (ctx0.creg 0x020).getLsbD (q.1 - 0x100) && f 0 4 != 15 && f 4 2 != 3) &&
          (!(q.1 = 0x040 && f 0 2 = 3) || f 16 15 ≤ 0x3F80) &&
          (q.1 != 0x080 || f 32 32 < 0x7F800000 && (f 18 7 = 0 || 8 ≤ f 18 7 && f 18 7 ≤ 64)) && ctx0.spn == 0) = true := by
  refine ⟨wit_on, ?_⟩
  decide +kernel
theorem wit_axwin : ∀ a, 64 * (0x0000000C00000400 % 2 ^ 17) ≤ a → a < 64 * (0x0000000C00000400 % 2 ^ 17) + 64 * (0x0000000C00000400 / 2 ^ 32 % 2 ^ 17) →
    a < 0x800000 ∧ (ctx0.creg 0x020).getLsbD (a / 0x20000) = true := by
  intro a h1 h2
  have h : a / 0x20000 = 0 := by omega
  exact ⟨by omega, by rw [h]; decide +kernel⟩

/-! ## The A slot -/

/-- A context with a1 at an address with a pitch, x3 and v2 set, and its windows opened on S2. -/
def withA (a : Word) : Ctx :=
  { ctx0 with regs := { Regs.empty with a := [(1, a)], x := [(3, 0x0000000002000180#64)], v := [(2, 3#3072)] }
              cregs := [(0x020, 0xFFFFFFFFFFFFFFFF#64), (0x021, 0xFFFFFFFF00000000#64)] }

def accessOk (c : Ctx) (own wr : Bool) (i : Instr) : Bool :=
  (c.access i).any (fun a => (checkAccess (state c) (state c) 0 c a).isNone && a.own == own && !c.moveConflict 0 wr a.spans &&
    (own || (a.pieces 0 c).all (fun p => !isOwnPiece 0 p)))

/-- Loads and stores of own S1 at its last line that holds them, a row pitch of two lines, an offset of −1 line. -/
theorem wit_own_accesses :
    On (state (withA 0x0002000000000040)) 0 0 g ∧ On (state (withA 0x00000000007FFE80)) 0 0 g ∧
    ([.vld g 4 1 0x3FF, .vlds g 4 1 0, .vgath g .w 4 1 2, .ldx g .d 6 1 0, .mld g 4 1 0] : List Instr).all
      (accessOk (withA 0x0002000000000040) true false) = true ∧
    ([.vst g 4 1 0x3FF, .vsts g 4 1 0, .vscat g .h 4 1 2, .stx g .b 3 1 0, .mst g 4 1 0] : List Instr).all
      (accessOk (withA 0x0002000000000040) true true) = true ∧
    ([.vld g 4 1 0, .vst g 4 1 0] : List Instr).all (accessOk (withA 0x00000000007FFE80) true false) = true ∧
    ([.amoadd g false 5 1 3, .amoand g true 5 1 3, .amoor g false 5 1 3, .amomin g true 5 1 3, .amomax g false 5 1 3,
      .amoswap g true 5 1 3, .amocas g false 0 1 3] : List Instr).all (accessOk (withA 0x0002000000000040) true true) = true ∧
    ([4, 8].all fun n => !(state (withA 0)).badRead (s1Place 0 0x40) n && !(state (withA 0)).isCipher (s1Place 0 0x40 / 64)) = true :=
  ⟨on_of (by decide +kernel), on_of (by decide +kernel), by decide +kernel⟩

/-- The same instructions at an address of S2. -/
theorem wit_remote_accesses :
    On (state (withA 0x0001000200000040)) 0 0 g ∧ (withA 0x0001000200000040).outLive.length < 32 ∧
    ([.vld g 4 1 0, .vlds g 4 1 0, .vgath g .w 4 1 2, .ldx g .d 6 1 0, .mld g 4 1 0] : List Instr).all
      (accessOk (withA 0x0001000200000040) false false) = true ∧
    ([.vst g 4 1 0, .vsts g 4 1 0, .vscat g .h 4 1 2, .stx g .b 3 1 0, .mst g 4 1 0, .amoadd g false 5 1 3,
      .amoand g true 5 1 3, .amoor g false 5 1 3, .amomin g true 5 1 3, .amomax g false 5 1 3, .amoswap g true 5 1 3,
      .amocas g false 0 1 3] : List Instr).all (accessOk (withA 0x0001000200000040) false true) = true :=
  ⟨on_of (by decide +kernel), by decide +kernel⟩

theorem wit_scalar_faults :
    locate 0 0x800000 = .nowhere ∧
    (linePoints 0x41 Sz.w.bytes).all (inWindows (state ctx0) 0 ctx0) = true ∧ 0x41 % Sz.w.bytes ≠ 0 := by decide +kernel

/-- A move of two rows of 384 bytes from own S1 to S2, and one from S2 to own S1. -/
def withMove (a5 a6 : Word) : Ctx := { withA 0 with regs := { (withA 0).regs with a := [(5, a5), (6, a6)] } }

theorem wit_moves :
    let c := withMove 0x0000000000000040 0x0002000200000040
    let d := withMove 0x0002000200000040 0x0001000000000040
    let ok := fun (c : Ctx) (k : MoveKind) =>
      moveFault (state c) 0 c (mkMove c 0 k (c.regs.getA 5) (c.regs.getA 6) (c.regs.getX 3)) (c.regs.getX 3) == none
    On (state c) 0 0 g ∧ On (state d) 0 0 g ∧ c.moves.length < 8 ∧ ok c .tld = true ∧ ok d .tst = true ∧ ok d .scopy = true ∧
    ([.vldr g 4 6 0, .vstr g 2 6 0x3FF] : List Instr).all
      (fun i => (c.access i).any (fun a => (checkAccess (state c) (state c) 0 c a).isNone)) = true :=
  ⟨on_of (by decide +kernel), on_of (by decide +kernel), by decide +kernel⟩

/-- A descriptor for replay window 3: CN0 2, CN1 3, CH 4, CN2 1, CN3 5, strides 64, 0, 192 and −64. -/
def descriptor : Vec :=
  BitVec.ofNat 3072 (3 + (2 + 3 * 65536) * 2 ^ 32 + (4 + 1 * 65536) * 2 ^ 64 + 5 * 2 ^ 96 + 64 * 2 ^ 128 + 192 * 2 ^ 192 +
    0xFFFFFFC0 * 2 ^ 224)

theorem wit_winset :
    let v := descriptor
    let w := fun (i : Nat) => v.extractLsb' (32 * i) 32
    (w 0).toNat < 4 ∧ ((w 3).extractLsb' 16 16).toNat = 0 ∧ ((List.range 8).all fun i => w (i + 8) == 0) = true ∧
    ((w 1).extractLsb' 0 16).toNat ≠ 0 ∧ ((w 1).extractLsb' 16 16).toNat ≠ 0 ∧ ((w 2).extractLsb' 16 16).toNat ≠ 0 ∧
    ((w 3).extractLsb' 0 16).toNat ≠ 0 ∧ ((w 2).extractLsb' 0 16).toNat ≠ 0 ∧
    ((List.range 4).all fun i => (w (i + 4)).toNat % 64 == 0) = true := by decide +kernel

/-! ## The E slot -/

/-- A context of ring 1 with a1 at a descriptor of own S1, and x3 a target of the cluster. -/
theorem wit_commands :
    let c := withA 0x0000000000000040
    On (state c) 0 0 g ∧ c.cmds.length < 8 ∧ (0#6).toNat = 0 ∧ engineRead (state c) 0 c 0x40 64 = none ∧
    engineRead (state c) 0 c 0x40 128 = none ∧ c.place.ringmask.getLsbD 1 = true ∧
    (let d := { c with gang := 7, regs := { c.regs with x := [(3, 1)] } }
     let e := { ctx0 with gang := 7 }
     let s : State := { State.reset with cores := [(0, { coreOf d with plats := [(0, d), (1, e)] })] }
     On s 0 0 g ∧ (s.core 0).target 1 d.gang = some (e.ctxid, e.creg 0x020) ∧ 0x40 % 64 = 0 ∧ 0x40 + 384 ≤ 0x800000 ∧
       (linePoints 0x40 384).all (inBwin (e.creg 0x020)) = true) :=
  ⟨on_of (by decide +kernel), by decide +kernel, by decide +kernel, by decide +kernel, by decide +kernel, by decide +kernel,
    ⟨calm_of (by decide +kernel), by decide +kernel⟩, by decide +kernel⟩

/-- A full command queue of the same contexts; rings at, above and below a threshold, with no RINGCFG of them pending, and with one;
a ring outside RINGMASK; what a fence put before has not performed. -/
theorem wit_rings :
    (let d := { withA 0x0000000000000040 with gang := 7, cmds := List.replicate 8 ⟨0, [], .chstop⟩ }
     let c := { d with regs := { d.regs with x := [(3, 1)] } }
     let e := { ctx0 with gang := 7 }
     let s : State := { State.reset with cores := [(0, { coreOf c with plats := [(0, c), (1, e)] })] }
     On s 0 0 g ∧ 8 ≤ c.cmds.length ∧ c.cmdSiding ≠ 1 ∧ c.place.ringmask.getLsbD 1 = true ∧ engineRead s 0 c 0x40 64 = none ∧
       engineRead s 0 c 0x40 128 = none ∧ (s.core 0).target 1 c.gang = some (e.ctxid, e.creg 0x020) ∧
       (linePoints 0x40 384).all (inBwin (e.creg 0x020)) = true) ∧
    (let c := { ctx0 with rings := [(1, { Ring.empty with wp := 5, rp := 3, cap := 16 })] }
     On (state c) 0 0 g ∧ c.place.ringmask.getLsbD 1 = true ∧ c.ringCfgPending 1 = false ∧
      (2#16).toNat ≤ ((c.ring 1).wp - (c.ring 1).rp).toNat ∧ ((c.ring 1).wp - (c.ring 1).rp).toNat < (3#16).toNat ∧
      (state c).allDone 0 0 (c.fenceWaits .e) = true ∧ ¬ c.place.ringmask.getLsbD 2 = true) ∧
    (let c := { ctx0 with cmds := [⟨0, [], .ringcfg 1 4⟩] }
     On (state c) 0 0 g ∧ c.ringCfgPending 1 = true) ∧
    (let c := { ctx0 with out := [store2], fences := [⟨⟨false, false, false, true⟩, [4]⟩] }
     On (state c) 0 0 g ∧ (state c).allDone 0 0 (c.fenceWaits .e) = false) :=
  ⟨⟨⟨calm_of (by decide +kernel), by decide +kernel⟩, by decide +kernel⟩, ⟨on_of (by decide +kernel), by decide +kernel⟩,
    ⟨on_of (by decide +kernel), by decide +kernel⟩, on_of (by decide +kernel), by decide +kernel⟩

/-! ## The V slots -/

/-- A context whose random queue holds a word, with two vectors of numbers. -/
def ctxV : Ctx :=
  { ctx0 with queue := [0x1122334455667788#3072]
              regs := { Regs.empty with x := [(3, 0x3F80#64)], v := [(1, BitVec.ofNat 3072 0x7E3F803FC0_003F800000_7F8123), (2, BitVec.ofNat 3072 0x60BF80_4040_4000_3F000000)] } }

/-- An undisturbed issue, with a random word for the forms that pop one; the last lane of VINSX and VEXTX. -/
theorem wit_vector : On (state ctxV) 0 0 g ∧ ctxV.queue ≠ [] ∧ (Instr.vadd g .f8a .sr false 3 1 2).pops = true ∧
    (Instr.vradd g .f16 .dyn 3 1).pops = true ∧ (Instr.vcvt g .f32 .f8a .dyn false 3 1).pops = true ∧ (95#7).toNat < 96 ∧
    ([.vadd g .f8a .sr false 3 1 2, .vsub g .i8 .rne true 3 1 2, .vfms g .f32 .dyn false 3 1 2 1, .vmin g .f8b 3 1 2, .vcmple g .i32 3 1 2,
      .vabs g .i8 true 3 1, .vneg g .f16 false 3 1, .vperm g .f8b 3 1 2, .vrot g .bf16 3 1 95, .vshl g .i32 3 1 2, .vshr g .i16 3 1 2,
      .vsra g .i8 3 1 2, .vcvt g .f32 .f8a .dyn false 3 1, .vscan g .f16 .rtz 3 1, .vradd g .f16 .dyn 3 1, .vrmax g .f16 .rne 3 1,
      .vrmin g .i8 .rne 3 1] : List Instr).all Instr.wf = true :=
  ⟨on_of (by decide +kernel), by decide +kernel⟩

/-! ## Moments, routines and regions -/

/-- A context with lane 0 of m1 at (2, 1) and of m2 at (3, 4), v1 and v2 of ones and twos, and the given MCFG; lane 5 of m3 has
a variance below zero; lane 0 of m4 and m5 is that of R504, in lane 1 a variance of 2^−60 of its. -/
def ctxM (mcfg : Word) : Ctx :=
  { ctx0 with cregs := [(0x020, 0xFFFFFFFFFFFFFFFF#64), (0x040, mcfg)]
              regs := { Regs.empty with v := [(1, 0x3F800000#3072), (2, 0x40000000#3072), (3, BitVec.ofNat 3072 (0xBF800000 * 2 ^ 96))]
                                        m := [(1, 0x3F80000040000000#6144), (2, 0x4080000040400000#6144),
                                          (3, BitVec.ofNat 6144 (0xBF800000 * 2 ^ 352)),
                                          (4, 0x218013983F8000003F8013983F000000#6144), (5, 0x218013983F8000003F8013983E800000#6144)] } }

def nonneg (b : Nat → Nat) : Bool := (List.range 96).all (fun k => !(f32Val (b k)).isNeg)
def lowestNeg (b : Nat → Nat) (k : Nat) : Bool := (f32Val (b k)).isNeg && (List.range k).all (fun j => !(f32Val (b j)).isNeg)

/-- Variances not below zero, for IND and for a set correlation, and the lowest lane below zero: of a source, of the vector of
an MFORM, and, with NEG and NVF, of what MADD and MSUB compute from m4 and m5 in lane 0 (R504) and MMUL in lane 1. -/
theorem wit_moments :
    On (state (ctxM 0)) 0 0 g ∧ On (state (ctxM 0xBF800007)) 0 0 g ∧ ((ctxM 0).creg 0x060).getLsbD 13 = false ∧
    ([1, 2].all fun n => nonneg (varBits ((ctxM 0).regs.getM n))) = true ∧
    nonneg (fun k => elemBits .f32 ((ctxM 0).regs.getV 2) k) = true ∧ (4#11).toNat < 2047 ∧ (2046#11).toNat < 2047 ∧
    lowestNeg (varBits ((ctxM 0).regs.getM 3)) 5 = true ∧ lowestNeg (fun k => elemBits .f32 ((ctxM 0).regs.getV 3) k) 3 = true ∧
    ((ctxM 6).creg 0x040).getLsbD 2 = true ∧
    (let pair := fun n j => Pair.mk (f32Val (meanBits ((ctxM 6).regs.getM n) j)) (f32Val (varBits ((ctxM 6).regs.getM n) j))
     ([4, 5].all fun n => nonneg (varBits ((ctxM 6).regs.getM n))) = true ∧ (addLane 6 (pair 4 0) (pair 5 0)).var.isNeg = true ∧
     (subLane 6 (pair 4 0) (pair 5 0)).var.isNeg = true ∧ (mulLane 6 (pair 4 0) (pair 5 0)).var.isNeg = false ∧
     (mulLane 6 (pair 4 1) (pair 5 1)).var.isNeg = true) :=
  ⟨on_of (by decide +kernel), on_of (by decide +kernel), by decide +kernel⟩

/-- MADD of R504's lane under IND gives (0x3F400000, 0x40001398) (R507), and under NEG with NVF it raises NEGVAR with 0x200. -/
theorem test_madd :
    ((after (exec (.madd g 7 4 5) (state (ctxM 0)))).ctx 0 0).flights.any (fun f => f.land == 4 && (match f.write with
      | .m 7 v => v.extractLsb' 0 64 == 0x400013983F400000#64 | _ => false)) = true ∧
    (after (exec (.madd g 7 4 5) (state (ctxM 6)))).word (s1Place 0 0x7C0010) 8 = 0x200 := by decide +kernel

/-- A region of one input vector: ELEM of 2, its descriptor, and a context with a surrogate window that holds its buffers. -/
def desc1 : RegionDesc := ⟨3, 2, 4, true, [2], 0x3F800000, 1⟩
def ctxR (axcfg : Word) (l : RegionLocal) : Ctx :=
  { ctx0 with descs := [desc1], regions := [(3, l)], regs := { Regs.empty with v := [(2, 0x3F800000#3072)] }
              cregs := [(0x020, 0xFFFFFFFFFFFFFFFF#64), (0x080, axcfg), (0x081, 0x0000000C00000400#64)] }
def boxed : List (Nat × Nat) := [(0, 0x3F800000)]

/-- The routines need an undisturbed issue, SAMPLE a word, a bound code its binding with no move in its groups. The region: no
descriptor; AXEN 0; not SUBST; outside the box; in the box at a counter that samples, 1 of a rate of 2, and at one that does
not, where the buffers fit and where they do not; AXLEAVE with and without a latch. -/
theorem wit_regions :
    (let c := { ctx0 with queue := [0], bindings := [⟨1, 0xC4, 0, 30, 3, 0, false, false⟩] }
     On (state c) 0 0 g ∧ c.queue ≠ [] ∧ (c.binding .v 4).isSome ∧ c.moveInGroups 0 3 = false) ∧
    (On (state ctx0) 0 0 g ∧ ctx0.desc 3 = none) ∧
    (On (state (ctxR 0 ⟨3, 0, 0, none, 1, 0, 0, []⟩)) 0 0 g ∧ (ctxR 0 ⟨3, 0, 0, none, 1, 0, 0, []⟩).axen = false ∧
      (ctxR 0 ⟨3, 0, 0, none, 1, 0, 0, []⟩).desc 3 = some desc1) ∧
    (On (state (ctxR 0x10000 ⟨5, 0, 0, none, 1, 0, 0, []⟩)) 0 0 g ∧ (ctxR 0x10000 ⟨5, 0, 0, none, 1, 0, 0, []⟩).axen = true ∧
      ((ctxR 0x10000 ⟨5, 0, 0, none, 1, 0, 0, []⟩).region 3).state ≠ 3) ∧
    (let c := ctxR 0x10000 ⟨3, 0, 0, none, 1, 0, 0, []⟩
     On (state c) 0 0 g ∧ inBox desc1 (c.region 3).box (desc1.inputs (c.regs.getV 2)) = false) ∧
    ([(0, false), (1, true)].all fun q =>
      let c := ctxR 0x10000 ⟨3, q.1, 0, none, 1, 0, 0, boxed⟩
      inBox desc1 (c.region 3).box (desc1.inputs (c.regs.getV 2)) && c.fits desc1 && !({ c with cregs := [(0x020, 0xFFFFFFFFFFFFFFFF#64), (0x080, 0x10000)] } : Ctx).fits desc1 &&
        ((c.region 3).counter % 2 ^ desc1.rate == 2 ^ desc1.rate - 1) == q.2) = true ∧
    On (state (ctxR 0x10000 ⟨3, 0, 0, none, 1, 0, 0, boxed⟩)) 0 0 g ∧ On (state (ctxR 0x10000 ⟨3, 1, 0, none, 1, 0, 0, boxed⟩)) 0 0 g ∧
    (let c := { ctxR 0x10000 ⟨3, 1, 0, none, 1, 0, 0, boxed⟩ with latch := some ⟨3, 5, true, false⟩ }
     On (state c) 0 0 g ∧ c.latch = some ⟨3, 5, true, false⟩ ∧ c.desc 3 = some desc1) :=
  ⟨⟨on_of (by decide +kernel), by decide +kernel⟩, ⟨on_of (by decide +kernel), by decide +kernel⟩,
    ⟨on_of (by decide +kernel), by decide +kernel⟩, ⟨on_of (by decide +kernel), by decide +kernel⟩,
    ⟨on_of (by decide +kernel), by decide +kernel⟩, by decide +kernel, on_of (by decide +kernel), on_of (by decide +kernel),
    on_of (by decide +kernel), by decide +kernel⟩

/-! ## The T slot -/

/-- A context with BF16 operands at 0 and in group 1, ones and twos, the shape M = 2, N = 3, K = 3 in x9, and a replay window of
32 blocks. -/
def ctxT (fa fb shape : Word) : Ctx :=
  { ctx0 with regs := { Regs.empty with a := [(4, 0), (5, 0x200000)], x := [(9, shape)] }
              replays := [(1, ⟨0x40, 2, 1, 1, 1, 32, 64, 0, 0, 0⟩)]
              cregs := [(0x020, 0xFFFFFFFFFFFFFFFF#64), (0x100, fa), (0x110, fb)] }
def stateT (fa fb shape : Word) : State :=
  (state (ctxT fa fb shape)).store (s1Place 0 0) ((List.range 128).map (fun n => if n % 2 = 1 then 0x3F#8 else 0x80#8))
    |>.store (s1Place 0 0x200000) ((List.range 24).map (fun n => if n % 2 = 1 then 0x40#8 else 0x00#8))

theorem tile_of {s : State} (h : (s.halfAt 0 0).busy ≤ s.now ∧ ownsHalf (s.halfAt 0 0) (s.ctx 0 0) 0 = true ∧ (s.ctx 0 0).moves = []) :
    TileFree s 0 0 := ⟨h.1, h.2.1, h.2.2⟩

/-- The operands of TMMA, plain and replayed, TMMB and TMMM pass their checks; a TDRAIN to F32 rows and a TFILL. -/
theorem wit_tile :
    let s := stateT 2 2 0x30201
    let c := ctxT 2 2 0x30201
    let d := ctxT 1 2 0x30201
    On s 0 0 g ∧ TileFree s 0 0 ∧ (s.poisoned = [] ∧ s.uncorrectable = []) ∧ On (stateT 2 2 0x30111) 0 0 g ∧
    shapeA 96 (some 64) 0x30201 = some ⟨2, 3, 3, 0, 0, 0⟩ ∧ shapeB 96 64 0x30111 = some ⟨96, 192, 3, 2, 2, 2⟩ ∧
    shapeA 96 none 0x30201 = some ⟨2, 3, 3, 0, 0, 0⟩ ∧
    (let a := packedOperand 0 c 0 2 3
     let b := packedOperand 0 c 0x200000 3 3
     operandFault s 0 c false a b = none ∧ operandFault s 0 c true a b = none) ∧
    (match replayOperand 0 c (SMap.get Replay.empty c.replays 1) 0 0x30201 ⟨2, 3, 3, 0, 0, 0⟩ with
      | .ok a => operandFault s 0 c false a (packedOperand 0 c 0x200000 3 3) == none
      | _ => false) = true ∧
    (let a := packedOperand 0 (ctxT 2 2 0x30111) 0 96 3
     let b := packedOperand 0 (ctxT 2 2 0x30111) 0x200000 3 192
     operandFault (stateT 2 2 0x30111) 0 (ctxT 2 2 0x30111) false a b = none) ∧
    (let dr := drainRuns 0 d 0 96
     drainFault (stateT 1 2 0x30201) 0 d .z0 .none dr.1 dr.2 = none ∧ fmtCode dr.1 = 1) ∧
    (let e := ctxT 0 2 0x30201
     drainFault (stateT 0 2 0x30201) 0 e .z0 .none (drainRuns 0 e 0 96).1 (drainRuns 0 e 0 96).2 = none ∧
       fmtCode (drainRuns 0 e 0 96).1 = 0 ∧ fillFault (stateT 0 2 0x30201) 0 e (fillRuns 0 96) = none) :=
  ⟨⟨calm_of (by decide +kernel), by decide +kernel⟩, tile_of (by decide +kernel), by decide +kernel,
    ⟨calm_of (by decide +kernel), by decide +kernel⟩, by decide +kernel⟩

/-- Two rows of A against three columns of B, of ones and twos, K = 3: each cell 6, its neighbours 0 (R243). -/
theorem test_tmma :
    let t := after (exec (.tmma g .z0 4 5 9 0 false none) (stateT 2 2 0x30201))
    [t.accAt 0 0 0 0, t.accAt 0 0 1 2, t.accAt 0 0 2 0, t.accAt 0 0 0 3, t.accAt 0 1 0 0] =
      [0x40C00000, 0x40C00000, 0, 0, 0] := by decide +kernel

/-- A core with its array's first half as given, and some cells. -/
def stateH (h : Half) : State :=
  { State.reset with cores := [(0, { coreOf { ctx0 with place := { ctx0.place with accsave := 0x600000 } } with half0 := h, acc := [(0, 0x3F800000), (193, 0x40000000), (18432, 0x40400000)] })] }

/-- A drain of one run without and with random bytes still to be generated, and a fill of one row, that are due, a result that stands, a busy window that ends with a claim and a
poisoned operand, and a spill of platform 0's row for platform 1. -/
theorem wit_tile_ends :
    ((stateH { Half.empty with drain := some ⟨0, 0, 0, [(64, [1, 2, 3])], 0, 0⟩ }).core 0).half 0 =
      { Half.empty with drain := some ⟨0, 0, 0, [(64, [1, 2, 3])], 0, 0⟩ } ∧
    0 ≤ 384 * (ctx0.unitsOf 0 2) ∧ 384 * (ctx0.unitsOf 0 2) < 385 ∧
    ((stateH { Half.empty with drain := some ⟨0, 0, 0, [(64, [1, 2, 3])], 0, 385⟩ }).core 0).half 0 =
      { Half.empty with drain := some ⟨0, 0, 0, [(64, [1, 2, 3])], 0, 385⟩ } ∧
    State.reset.badWrite 64 3 = false ∧
    (let f : Fill := ⟨0, 1, 95, [[0x3F800000]]⟩
     f.due ≤ 0 ∧ f.plane < 2 ∧ f.firstRow + f.rows.length ≤ 96 ∧
       (((stateH { Half.empty with fill := some f }).core 0).half 0).fill = some f) ∧
    (let s := { stateH { Half.empty with ready := 5, busy := 5, claims := [⟨1, 5⟩, ⟨2, 9⟩], owner := some 0, hwerr := some 64 } with now := 5 }
     let h := (s.core 0).half 0
     0 < h.ready ∧ h.ready ≤ s.now ∧ h.busy ≤ s.now ∧ h.claims.any (fun q => q.till ≤ s.now) = true ∧ h.hwerr = some 64) ∧
    (let h := { Half.empty with owner := some 0, mask0 := 3, spill := some (1, none) }
     ((stateH h).core 0).half 0 = h ∧ h.busy ≤ 0 ∧ h.ready = 0 ∧ h.drain = none ∧ h.fill = none) ∧
    (let h := { Half.empty with owner := some 0, mask0 := 3, mask1 := 1, spill := some (1, some 0) }
     let s := stateH h
     (s.core 0).half 0 = h ∧ 0 ≤ s.now ∧ s.saveClaimed 0 0 = false ∧
       (s.ctx 0 1).accMask.all (· = 0#96) = true) := by decide +kernel

/-! ## Stitches -/

/-- A routine of the core's platform 0 at its next stitch, with parameters 4, 1, 2 and 3. -/
def routine0 (rom : Bool) : Routine :=
  { plat := 0, args := { slot := 4, cls := 1, p0 := 4, p1 := 1, p2 := 2, p3 := 3, k := 7, fmt := 0, rm := 0, sat := false, pl := 0, acc := false,
                         bind := ⟨1, 0xC4, 0, 30, 15, 3, true, true⟩, region := none, rom := rom, own := [], seed := 0, preds := 1 }
    start := 0, stall := 0, next := 0, ended := false, span := 31, loads := [], stalled := false, waitHbm := none, waiting := [], mpc := 5,
    completes := true, sp := false, found := ⟨false, false⟩ }

def ctxS (cfg : Word) : Ctx :=
  { ctx0 with place := { ctx0.place with cslen := 0xC00 }, queue := [0x55#3072], micro := { Micro.empty with pc := 9, link := some 0x30, flags := 2, word := some 0x66#3072 }
              cregs := [(0x020, 0xFFFFFFFFFFFFFFFF#64), (0x040, cfg), (0x102, 2)]
              regs := { Regs.empty with v := [(1, 0x3F800000#3072), (2, 0x40000000#3072)], n := [(1, 2)], a := [(4, 0x40000), (1, 0x40000)]
                                        h := [(2, 0xBF8000003F800000#3072), (3, 0x40400000#3072), (14, 1), (15, 0x3F80000040000000#3072)] } }
def stateS (cfg : Word) : State := { State.reset with cores := [(0, { coreOf (ctxS cfg) with routine := some (routine0 false), half0 := { Half.empty with owner := some 0 }, half1 := { Half.empty with owner := some 0 } })] }

theorem stitching : Stitching (stateS 0) 0 (routine0 false) :=
  ⟨rfl, rfl, by decide +kernel, by decide +kernel, by decide +kernel, by decide +kernel, by decide +kernel⟩

/-- The stitch of a lane operation, alone, passes its checks. -/
def lanePasses (op : Nat) (l : LaneArgs) : Bool :=
  (stitchFault (stateS 0) 0 (ctxS 0) (routine0 false) { romIdle with lane := some (op, l), neg := l, lit := l.lit } []).isNone

def laneF32 : LaneArgs := ⟨.f32, false, .h 1, .h 2, .h 3, none⟩

/-- Each lane operation passes with the operands R166 to R170 admit: the element-wise ones in F32 but the bitwise ones and shifts in
I16, ADD also in PAIR, and NEG in I8 with its literal. -/
theorem wit_lanes :
    [0x01, 0x02, 0x03, 0x04, 0x05, 0x06, 0x07, 0x08, 0x09, 0x0A, 0x0B, 0x0C, 0x16, 0x17, 0x18, 0x1A, 0x1B, 0x1C, 0x1D, 0x1E, 0x1F, 0x20, 0x21,
      0x22, 0x23, 0x24, 0x25, 0x26, 0x27, 0x28, 0x29].all (fun op => lanePasses op laneF32) = true ∧
    [0x0D, 0x0E, 0x0F, 0x10, 0x11, 0x12].all (fun op => lanePasses op { laneF32 with fmt := .i16 }) = true ∧
    [0x13, 0x14, 0x15].all (fun op => lanePasses op { laneF32 with d := .zero }) = true ∧
    [0x19, 0x2A, 0x2B, 0x2C].all (fun op => lanePasses op { laneF32 with b := .h 2 }) = true ∧
    lanePasses 0x02 ⟨.pair, false, .h 2, .h 4, .one, none⟩ = true ∧ lanePasses 0x0B ⟨.i8, true, .p 0, .lit, .h 0, some 5⟩ = true ∧
    (∃ w, (ctxS 0).micro.word = some w) :=
  ⟨by decide +kernel, by decide +kernel, by decide +kernel, by decide +kernel, by decide +kernel, by decide +kernel, ⟨_, rfl⟩⟩

/-- The sequencer's values with targets at the end of the bank, a CALLROM without and a RETROM with a link; a RAISE whose condition
holds and one whose does not. -/
theorem wit_sequencer :
    let passes := fun (q : Seq) => (stitchFault (stateS 0) 0 (ctxS 0) (routine0 false) { romIdle with seq := q } []).isNone
    let c := { ctxS 0 with micro := { (ctxS 0).micro with link := none } }
    [.jump 0x0BFF, .brif .any 0, .brif .none 0x0BFF, .loop 1 0x0BFF, .stop, .raise .always 0x20, .raise .none 0x20, .retrom].all passes = true ∧
    (stitchFault (state c) 0 c (routine0 false) { romIdle with seq := .callrom 0x1000 } []).isNone = true ∧
    (ctxS 0).micro.link = some 0x30 ∧ condHolds (ctxS 0) .any = true ∧ condHolds (ctxS 0) .none = false := by decide +kernel

/-- LD, LDC, ST and STC of S1 with the base of P2 at 0x40000, and LD of the last line; FEED of BF16, DROW and FROW of row 47 and of
row n1; CLD, RPOP, and NEGIN and NEGCHK with and without a negative element. -/
theorem wit_stitch_fields :
    let u : AguArgs := ⟨.f32, .h 1, 0, false, 0, 0, 1, none, 0⟩
    let t : TileArgs := ⟨.bf16, true, .h 2, .h 2, 47, false⟩
    let l := { laneF32 with a := .h 3 }
    let passes := fun (q : Stitch) => (stitchFault (stateS 0) 0 (ctxS 0) (routine0 false) q []).isNone
    ([1, 2, 3, 4].all fun op => passes { romIdle with agu := some (op, u) } && !(aguPlan 0 (ctxS 0) (routine0 false).args op u).hbm) = true ∧
    (aguStored 0 (ctxS 0) (routine0 false).args (aguPlan 0 (ctxS 0) (routine0 false).args 4 u) u.fmt 0).scales = [] ∧
    ([1, 2, 3].all fun op => passes { romIdle with tile := some (op, t) }) = true ∧
    ((stateS 0).core 0).rowField 0 t.row = some 47 ∧
    passes { romIdle with cld := some 3 } = true ∧ passes { romIdle with cld := some 3, lit := some 5 } = true ∧
    passes { romIdle with rpop := true } = true ∧ (ctxS 0).queue ≠ [] ∧
    passes { romIdle with neg := l, lit := l.lit, negin := true } = true ∧
    passes { romIdle with neg := laneF32, lit := none, negchk := true } = true ∧
    (negElemAt .f32 (selRead (ctxS 0) (routine0 false).args .f32 none (.h 2))).isSome = true ∧
    (negElemAt .f32 (selRead (ctxS 0) (routine0 false).args .f32 none (.h 3))).isSome = false := by decide +kernel

/-! ## Results, accesses, moves -/

/-- A result due; a load whose pieces have all performed, clean and poisoned; a ring whose value may be sampled. -/
theorem wit_results :
    (let f : Flight := ⟨0, 0, 0, .x 3 5⟩
     ((state { ctx0 with flights := [f] }).ctx 0 0).flights = [f] ∧ f.land ≤ 0) ∧
    ([none, some (64, 0x30)].all fun bad =>
      let o : Outbound := ⟨5, .r, 64, [], [], [1, 2], .x 3, none, bad⟩
      ((state { ctx0 with out := [o] }).ctx 0 0).out.find? (fun o => o.id = 5 && o.pieces.isEmpty) == some o &&
        o.dest.write o.data == some (.x 3 0x201)) = true ∧
    (let a : Awaited := ⟨5, .ring 3 1, none, [4]⟩
     let s := state { ctx0 with awaited := [a], rings := [(1, { Ring.empty with wp := 2, cap := 4 })] }
     (s.ctx 0 0).out.find? (fun o => o.id = 5 && o.pieces.isEmpty) = none ∧ (s.ctx 0 0).awaited.find? (·.id = 5) = some a ∧
       a.value = none ∧ s.allDone 0 0 a.waits = true ∧ s.sample 0 0 a = some 2 ∧ (s.ctx 0 0).cmds = []) ∧
    (let a : Awaited := ⟨5, .ring 3 1, some 2, []⟩
     ((state { ctx0 with awaited := [a] }).ctx 0 0).awaited.find? (·.id = 5) = some a) := by decide +kernel

/-- A load and a store with two words left in S2, the second of either ready, and an atomic; each level's first and last word. -/
theorem wit_accesses :
    let ps : List Piece := [⟨2 ^ 36 + 60, 0x20000003C, 4, 0, false, false, false⟩, ⟨2 ^ 36 + 64, 0x200000040, 4, 4, false, false, false⟩]
    let o := fun (cl : AccClass) (amo : Option (AmoOp × Word × Word)) => (⟨5, cl, 0x20000003C, [], ps, List.replicate 8 7, .x 3, amo, none⟩ : Outbound)
    let s := fun q => state { ctx0 with out := [q] }
    ([(AccClass.r, none), (.w, none), (.a, some (AmoOp.add, 1#64, 0#64))].all fun q =>
      let o := o q.1 q.2
      (s o).findOut 0 0 5 == some o && (List.range 2).all (fun n =>
        let p := ps.getD n default
        (s o).pieceReady 0 0 o n p && !noFrame p.place && !(s o).badRead p.place p.len && !(s o).badRead p.place 8 && !(s o).badWrite p.place p.len && !(s o).isCipher (p.place / 64))) = true ∧
    (let s := { state { ctx0 with flushes := [6] } with hub := { Hub.empty with linkUp := true } }
     s.findOut 0 0 6 = none ∧ 6 ∈ (s.ctx 0 0).flushes ∧ s.isOutstanding 0 0 5 = false ∧ s.hub.linkUp = true) ∧
    (0 * 8 < 384 * 0x800000 ∧ 402653183 * 8 < 384 * 0x800000) ∧
    (2 ^ 36 ≤ 2 ^ 33 * 8 ∧ (2 ^ 33 + 24 * 2 ^ 25 - 1) * 8 < 2 ^ 36 + 24 * 2 ^ 28) ∧
    (2 ^ 40 ≤ 2 ^ 37 * 8 ∧ (2 ^ 37 + 4 * 2 ^ 29 - 1) * 8 < 2 ^ 40 + 4 * 2 ^ 32) ∧
    isHbmPlace (2 ^ 57 * 8) = true ∧ isHbmPlace ((2 ^ 59 - 1) * 8) = true := by decide +kernel

/-- A word of own S1 that a move or an engine reads. -/
def piece0 (a : Nat) (off : Nat) : Piece := ⟨a, a, 8, off, false, false, false⟩

theorem readable_of {s : State} {p : Piece} (h : s.claimedPlace p.place = false ∧ noFrame p.place = false ∧ p.prot = false ∧
    s.badRead p.place p.len = false) : s.readable p := h

/-- A move of own S1, at its first or its last row, with what it has read and a write that has not performed. -/
def move0 (k : MoveKind) (row : Nat) (fetch : Fetch) (stores : List Store) : Move :=
  { id := 5, kind := k, waitsR := [], waitsW := [], src := 0x10000, dst := 0x200040, len := 64, rows := 2, spitch := 64,
    dpitch := 128, dpLen := 64, row := row, at_ := 0, fetch := fetch, stores := stores, reg := 3, fmts := [], seed := 0,
    window := [] }
def stateMove (m : Move) : State := state { ctx0 with moves := [m] }
def write0 : Store := ⟨0x200040, 0x200040, List.replicate 8 3, false, false, false, false, false⟩

/-- A chunk of a row of every kind of move can be begun, and written once it is read: one line, plain, without random bytes. -/
def moveGoes (k : MoveKind) (row : Nat) (fetch : Fetch) : Bool :=
  let m := move0 k row fetch []
  let s := stateMove m
  let v := m.view (s.ctx 0 0)
  (s.ctx 0 0).moves.find? (·.id = 5) == some m && (m.chunk 0).any (fun ch =>
    m.chunkReady s 0 0 ch && !hostAt 0 v ch.dst && (ch.formBad s 0 v (m.rowAt 0 m.row)).isNone &&
      (s.ctx 0 0).hasUnits m.seed 1 ch.draws && !cipherAt s 0 v ch.src &&
      (ch.convert (List.replicate 64 9#8) [] ((s.ctx 0 0).drawByte m.seed 1)).bytes != [])

theorem wit_move_chunks : ([MoveKind.tld, .tst, .scopy].all fun k => (List.range 2).all fun row =>
    moveGoes k row .empty && moveGoes k row ⟨[(List.replicate 64 9, none)], [], []⟩) = true := by decide +kernel

/-- The words of a TLD and of a VLDR that are left to read, two and one. -/
theorem wit_move_words : ∀ k ∈ [MoveKind.tld, .vldr],
    (let m := move0 k 1 ⟨[], [piece0 0x10000 0, piece0 0x10008 8], List.replicate 16 0⟩ []
     let s := stateMove m
     (s.ctx 0 0).moves.find? (·.id = 5) = some m ∧ m.row < m.rows ∧ ∀ n < 2, ∃ p, m.fetch.pieces[n]? = some p ∧
       m.readReady s 0 0 p = true ∧ s.readable p) ∧
    (let m := move0 k 1 ⟨[], [piece0 0x10008 8], List.replicate 16 0⟩ []
     let s := stateMove m
     (s.ctx 0 0).moves.find? (·.id = 5) = some m ∧ m.row < m.rows ∧ m.fetch.pieces[0]? = some (piece0 0x10008 8) ∧
       m.readReady s 0 0 (piece0 0x10008 8) = true ∧ s.readable (piece0 0x10008 8)) := by
  intro k hk
  simp only [List.mem_cons, List.not_mem_nil, or_false] at hk
  refine ⟨⟨by rcases hk with rfl | rfl <;> decide +kernel, by rcases hk with rfl | rfl <;> decide +kernel, fun n hn => ?_⟩,
    by rcases hk with rfl | rfl <;> decide +kernel, by rcases hk with rfl | rfl <;> decide +kernel, rfl,
    by rcases hk with rfl | rfl <;> decide +kernel, readable_of (by rcases hk with rfl | rfl <;> decide +kernel)⟩
  match n, hn with
  | 0, _ => exact ⟨piece0 0x10000 0, rfl, by rcases hk with rfl | rfl <;> decide +kernel,
      readable_of (by rcases hk with rfl | rfl <;> decide +kernel)⟩
  | 1, _ => exact ⟨piece0 0x10008 8, rfl, by rcases hk with rfl | rfl <;> decide +kernel,
      readable_of (by rcases hk with rfl | rfl <;> decide +kernel)⟩

/-- The only and the first of two writes of a move that has read its rows. -/
theorem wit_move_writes : [[write0], [write0, { write0 with place := 0x200048, addr := 0x200048 }]].all (fun ws =>
    let m := move0 .tld 2 .empty ws
    let s := stateMove m
    (s.ctx 0 0).moves.find? (·.id = 5) == some m && m.stores[0]? == some write0 && m.storeReady s 0 0 0 write0 &&
      !noFrame write0.place && !write0.prot && !write0.poison && !s.badWrite write0.place write0.data.length &&
      decide (m.rows ≤ m.row)) = true := by decide +kernel

/-! ## A core by itself -/

/-- A READY platform and a held member past the quantum of 4,096; a block that has cleared; an ended routine and a stalled stitch;
an empty bundle. -/
theorem wit_waits :
    (let s := { state { ctx0 with state := .ready } with now := 4097 }
     let c := s.ctx 0 0
     c.state = .ready ∧ c.overdue = false ∧ (s.partition c.part).quantum < s.now - c.readySince) ∧
    (let h : Held := ⟨0, ctx0, 0, false, 0, false⟩
     let s : State := { State.reset with cores := [(0, { coreOf ctx0 with held := [h] })], now := 4097, launches := [⟨0, 0, default, 0, 0, [], 2, [], [], 0⟩] }
     s.launches.any (fun l => l.id = h.ctx.gang && l.phase = 2) = true ∧ h.ctx.place.rank = 0 ∧ h.due = false ∧ (s.partition h.ctx.part).quantum < s.now - h.since) ∧
    (let s := state { ctx0 with state := .blocked, why := some .moves }
     (s.ctx 0 0).state = .blocked ∧ (s.ctx 0 0).why = some .moves ∧ (s.ctx 0 0).killPending = false ∧ s.cleared 0 0 .moves = true) ∧
    (let s := state { ctx0 with state := .blocked, why := some (.barrier 0) }
     (s.ctx 0 0).state = .blocked ∧ (s.ctx 0 0).why = some (.barrier 0) ∧ (s.ctx 0 0).killPending = false ∧ s.arrivesAt 0 0 0 = true) ∧
    Calm (state ctx0) 0 0 ∧ ((state ctx0).core 0).next 0 = some 0 ∧ SMap.get 0#512 ((state ctx0).core 0).imem ctx0.flow.pc = 0#512 :=
  ⟨by decide +kernel, by decide +kernel, by decide +kernel, by decide +kernel, calm_of (by decide +kernel), by decide +kernel,
    by decide +kernel⟩

theorem wit_suspension :
    let r := { routine0 false with ended := true }
    let s := { State.reset with cores := [(0, { coreOf ctx0 with routine := some r })], now := 40 }
    (s.core 0).routine = some r ∧ r.start + r.span + r.stall ≤ s.now ∧ r.completes = true ∧ r.args.region = none ∧ r.sp = false ∧
      (s.ctx 0 0).flow.loops = [] ∧ (s.ctx 0 0).flow.xfer = none ∧ (s.ctx 0 0).flow.after = none := by decide +kernel

theorem wit_faults :
    ([0x30, 0x13].all fun code =>
      let s := state { ctx0 with asyncFaults := [⟨code, 8, 64, 0, none⟩] }
      (s.ctx 0 0).asyncFaults == [⟨code, 8, 64, 0, none⟩] && (s.core 0).next s.now == some 0) = true ∧
    (let c := { ctx0 with faultPending := some ⟨0x30, 8, 64, 0, none⟩, state := .blocked, why := some .fault }
     (state c).ctx 0 0 = c ∧ c.pending = [] ∧ c.killPending = false) ∧
    (let s := { State.reset with partitions := [(1, { Partition.empty with faultWait := [List.replicate 32 7] })] }
     (s.partition 1).faultWait = [List.replicate 32 7]) := by decide +kernel

/-- A queue with room and a unit owed to a stream; a seeding and a ring's setting at the head. -/
theorem wit_stoker :
    ((state ctx0).core 0).stokerWork = some (0, none) ∧
    ((state { ctx0 with needs := [(0, 0, 2)] }).core 0).stokerWork = some (0, some (0, 0, 2)) ∧
    ([Command.rqseed 5 9, .ringcfg 1 16].all fun q =>
      (state { ctx0 with cmds := [⟨3, [], q⟩], nextId := 4 }).headCmd 0 0 == some ⟨3, [], q⟩) = true := by decide +kernel

/-- The context 0 of rank 1 as target, RUNNING or PARKED, of an arrival from the queue of platform 0 or from the router. -/
def stateA (st : PlatState) : State :=
  let d := { ctx0 with state := st, place := { ctx0.place with rank := 1 } }
  { State.reset with cores := [(0, { coreOf { ctx0 with cmds := [⟨3, [], .sendh (List.replicate 384 5) 0x80 0 1 1 7⟩], nextId := 4 } with
      plats := [(0, { ctx0 with cmds := [⟨3, [], .sendh (List.replicate 384 5) 0x80 0 1 1 7⟩], nextId := 4 }), (1, d)] })]
                     arrivals := [⟨9, 5, 0, 0, 1, 0x80, List.replicate 384 5, 7, 1⟩] }

theorem wit_arrivals :
    [PlatState.running, .parked].all (fun st =>
      let s := stateA st
      s.headCmd 0 0 == some ⟨3, [], .sendh (List.replicate 384 5) 0x80 0 1 1 7⟩ && !s.queuedBefore 0 0 1 s.nextId &&
        s.delivery 1 0x80 == .deliver 0 1 && (s.arrivals.find? (·.id = 9)).any (fun a => !s.queuedBefore a.fromCore a.fromPlat a.ctxid a.id) &&
        (s.ctx 0 1).arrivals.isEmpty) = true := by decide +kernel

/-- A barrier with both participants of a gang arrived. -/
def stateB : State :=
  { stateA .running with
    launches := [⟨1, 0, default, 0, 0, [{ ctx0.place with rank := 0 }, { ctx0.place with rank := 1 }], 2, [0, 1], [], 0⟩]
    clusters := [(0, { Cluster.empty with barriers := [(0, [(0, 0), (1, 0)])] })] }

theorem wit_barrier :
    (stateB.participants 0 0 == [0, 1] && [0, 1].all (fun id => (SMap.get [] (stateB.cluster 0).barriers 0).any (·.1 = id))) = true := by
  decide +kernel

/-- A command queue full since 1,024 cycles, whose head waits for an arrival queue; tablets that have come home, and one at its
62nd queue. -/
def stateC : State :=
  { state { ctx0 with cmds := List.replicate 8 ⟨0, [], .sendh [] 0 0 1 1 7⟩ } with
    fullSince := [(.cmd 0 0, 0)], now := 1024
    tablets := [⟨.cmd 0 0, .cmd 0 0, 2⟩, ⟨.arrival 0 0, .arrival 0 0, 2⟩, ⟨.arrival 3 0, .cmd 0 0, 62⟩] }

theorem wit_tablets :
    (stateC.fullSince.find? (·.1 = .cmd 0 0) == some (.cmd 0 0, 0) && stateC.queueFull (.cmd 0 0) &&
      stateC.waitsOn (.cmd 0 0) == some (.arrival 0 1) && !({ stateC with tablets := [] } : State).tablets.any (·.origin = .cmd 0 0)) = true := by
  decide +kernel

/-- A stitch that stalled and now passes. -/
def stalledOk : Bool :=
  let r := { routine0 false with stalled := true }
  let s := { stateS 0 with cores := [(0, { coreOf (ctxS 0) with routine := some r })] }
  match stitchStep s 0 r ((s.ctx 0 0).stitchAt r.args) with
  | .done _ => true
  | _ => false

theorem wit_stalled : stalledOk = true := by decide +kernel

/-! ## Engines -/

/-- A gang of one context on core 0, with ring 1 of capacity 16. -/
def launch0 : Launch := ⟨7, 0, default, 0, 0, [{ ctx0.place with rank := 0 }], 2, [0], [], 0⟩
def ctxE (cmds : List Command) : Ctx :=
  { ctx0 with gang := 7, cmds := cmds.map (fun q => ⟨0, [], q⟩), nextId := 1, rings := [(1, { Ring.empty with cap := 16 })] }
def stateE (c : Ctx) : State := { state c with launches := [launch0] }

/-- A waybill of one row of 64 bytes, owned or not, that names ring 1 of core 0 or none; its NEXT. -/
def billBytes (own rv : Bool) (next : Nat) : List Byte :=
  toBytes 8 (next + own.toNat * 2 ^ 48) ++ toBytes 8 0x2000 ++ toBytes 8 0x3000 ++ toBytes 4 64 ++ toBytes 4 1 ++ toBytes 16 0 ++
    toBytes 2 0 ++ toBytes 1 (rv.toNat * 128) ++ toBytes 1 1 ++ toBytes 2 1 ++ toBytes 10 0
def stateChan (own rv : Bool) (next : Nat) (cur : Option Nat) (started : Bool) (fetch : Fetch) : State :=
  let w := readWaybill 0x1000 (billBytes own rv next)
  (stateE { ctxE [] with chan := ⟨.run, 0x1000, cur.map (fun row => (w, row)), 0, fetch, [], started, [], 0⟩ }).store (s1Place 0 0x1000)
    (billBytes own rv next)

theorem performable_of {s : State} {ws : List Store} {n : Nat} {x : Store} (h : ws[n]? = some x ∧ wordBefore ws n x = false ∧
    s.writable x.place x.begun = true ∧ noFrame x.place = false ∧ x.prot = false ∧ x.poison = false ∧
    (x.whole = true ∨ s.badWrite x.place x.data.length = false)) : s.performable ws n x := h

/-- What an engine has read of one run, and two words of the next that are still to be read. -/
def got (bs : List Byte) : Fetch := ⟨[(bs, none)], [], []⟩
def twoWords : Fetch := ⟨[], [piece0 0x10000 0, piece0 0x10008 8], List.replicate 16 0⟩

/-- A CHSTART at the head; a CHSTOP there, with a waybill in progress. -/
theorem wit_channel_commands :
    ((stateE (ctxE [.chstart 0x1000 0])).headCmd 0 0 = some ⟨0, [], .chstart 0x1000 0⟩ ∧
      ((stateE (ctxE [.chstart 0x1000 0])).ctx 0 0).chan.state ≠ .run) ∧
    (let w := readWaybill 0x1000 (billBytes true true 0)
     let s := stateE { ctxE [.chstop] with chan := ⟨.run, 0x1000, some (w, 0), 0, .empty, [write0], true, [], 0⟩ }
     s.headCmd 0 0 = some ⟨0, [], .chstop⟩ ∧ (∀ x ∈ (s.ctx 0 0).chan.stores, x.begun = false) ∧ 0 ≤ w.rows ∧ w.rv = true ∧
       s.waybillRing 0 (s.ctx 0 0) w = some 0) := by decide +kernel

/-- The channel before a waybill: nothing of it read, and one that it owns, does not own or that is bad. -/
theorem wit_channel_bills : ([.empty, got (billBytes true true 0), got (billBytes false true 0),
      got ((billBytes true false 0).set 24 0)] : List Fetch).all (fun f =>
    let s := stateChan true true 0 none false f
    let c := s.ctx 0 0
    c.state == .running && c.chan.state == .run && c.chan.cur == none && c.chan.head % 64 == 0 && c.chan.fetch == f &&
      (engineCheck s 0 c true false c.chan.head 64).isNone &&
      f.got.all (fun q => let w := readWaybill 0x1000 q.1
        (!w.rv || (s.waybillRing 0 c w).isSome) && !w.blockBad 0 && (w.bad == !w.rv))) = true := by decide +kernel

/-- Its one row of 64 bytes, before it is read, with its words to read, and once it is read; a write of it that performs. -/
def bill0 : Waybill := readWaybill 0x1000 (billBytes true true 0)
def row0 : Row := bill0.rowAt [] 0 0
def chunk0 : Chunk := (chunkAt row0.parts 0).getD default
theorem wit_channel_row :
    ([.empty, got (List.replicate 64 5)] : List Fetch).all (fun f =>
      let s := stateChan true true 0 (some 0) true f
      let c := s.ctx 0 0
      c.chan.cur == some (bill0, 0) && decide (0 < bill0.rows) && c.chan.fetch == f && (rowStatus s 0 c row0).isNone &&
       chunkAt row0.parts 0 == some chunk0 && !chunk0.plainToHost s 0 c && (chunk0.formBad s 0 c row0).isNone &&
       c.hasUnits 0 3 chunk0.draws && !cipherAt s 0 c chunk0.src) = true ∧
    (let s := stateChan true true 0 (some 0) true twoWords
     (s.ctx 0 0).chan.fetch.pieces[1]? = some (piece0 0x10008 8) ∧ s.readable (piece0 0x10008 8)) ∧
    (let s := stateE { ctxE [] with chan := ⟨.run, 0x1000, some (bill0, 1), 0, .empty, [write0], true, [], 0⟩ }
     (s.ctx 0 0).chan.stores = [write0] ∧ s.performable [write0] 0 write0) :=
  ⟨by decide +kernel, ⟨by decide +kernel, readable_of (by decide +kernel)⟩, by decide +kernel, performable_of (by decide +kernel)⟩

/-- All its rows copied; with and without a ring, at the end of its list and not. -/
theorem wit_channel_end : [(true, 0), (false, 0), (false, 0x1040)].all (fun q =>
    let s := stateChan true q.1 q.2 (some 1) true .empty
    let c := s.ctx 0 0
    let w := readWaybill 0x1000 (billBytes true q.1 q.2)
    c.chan.cur == some (w, w.rows) && c.chan.stores == [] && c.chan.fetch.pieces == [] && w.rv == q.1 &&
      s.word (placeOf 0 c w.addr) 8 % 2 ^ 48 == q.2 && s.runFree 0 c w.addr 8 && !badFrame 0 c w.addr &&
      (engineCheck s 0 c true true w.addr 8).isNone && !s.badRead (placeOf 0 c w.addr) 8 && !protAt 0 c w.addr) = true := by
  decide +kernel

/-- Each of the four engines waiting for its ring, which has room, and at its advance. -/
theorem wit_engine_rings :
    (let s := stateChan true true 0 (some 0) false .empty
     let w := readWaybill 0x1000 (billBytes true true 0)
     (s.ctx 0 0).chan.cur = some (w, 0) ∧ s.waybillRing 0 (s.ctx 0 0) w = some 0 ∧ s.ringRoom 0 w.ring w.inc = true ∧
       ((stateChan true true 0 (some 2) true .empty).ctx 0 0).chan.cur = some (w, 2) ∧ w.rows < 2 ∧ w.rv = true) ∧
    ([2, 4].all fun ph =>
      let j : MarshalJob := ⟨0, 0, 0, .ysort 0x1000 1 1, ph, [], 0, 0, [], .empty, []⟩
      let s := { stateE (ctxE []) with clusters := [(0, { Cluster.empty with marshal := some j })] }
      (s.cluster 0).marshal == some j && j.cmd.marshal == some (0, 0x1000, 1, 1) && s.ringRoom 0 1 1) = true ∧
    ([(0, 0, []), (1, 1, []), (1, 1, [0])].all fun q =>
      let j : Joined := ⟨0, 0, 0, 0, 2, 0, 0, 0, 0, 0, 0, [], 1, 1, q.1⟩
      let o : Collective := ⟨3, 0, 0, [(0, 0, 0)], [j], [0], 0, q.2.1, 0, [], [], .empty, 0, q.2.2, [], [], 0⟩
      let s := { stateE (ctxE []) with collectives := [o] }
      s.findColl 3 == some o && o.member 0 == some j && s.ringRoom 0 1 1 && o.quiet 0 && o.ended (s.stepsOf o j.prog)) = true ∧
    ([(false, 1), (true, 0)].all fun q =>
      let j : CipherJob := ⟨0, 0, false, q.1, 0x40, q.2, 1, 1, .empty⟩
      let s0 := stateE (ctxE [])
      let s := s0.setCore 0 { s0.core 0 with cipher := some j }
      (s.core 0).cipher == some j && s.ringRoom 0 1 1) = true := by decide +kernel

/-- Descriptors and arrays of a YSORT of 4 assignments to 3 experts and a YGATH of 2 rows of 64 bytes (R295, R297). -/
def descBytes (ws : List Nat) : List Byte := (ws ++ List.replicate (16 - ws.length) 0).flatMap (toBytes 8)
def descY : List Byte := descBytes [0x2000, 0, 0x3000, 0x4000, 0x5000, 0x6000, 0x7000, 0, 4 + 2 * 2 ^ 20, 0]
def descG : List Byte := descBytes [0x10000, 0x2100, 0x20000, 0, 0, 0, 0, 0, 64, 2]
/-- A job of the engine of cluster 0, at a phase, with what it has read and its writes. -/
def job (cmd : Command) (ph : Nat) (desc : List Byte) (fetch : Fetch) (stores : List Store) : MarshalJob :=
  ⟨0, 0, 0, cmd, ph, desc, 0, 0, [], fetch, stores⟩
def stateJ (j : MarshalJob) : State :=
  { stateE (ctxE []) with clusters := [(0, { Cluster.empty with marshal := some j })] }

/-- How the engine's work on a job of a kind ends: done, in need of bytes, or failed; with the state as it was. -/
def workEnds (kind d : Nat) (j : MarshalJob) : Option (Option Nat) :=
  let s := stateJ j
  if s.present 0 == some (0, 0, s.ctx 0 0) && j.cmd.marshal == some (kind, d, 1, 1) && j.fits && j.fetch.pieces == [] then
    match s.engine j.fetch (marshalWork 0 (s.ctx 0 0) j kind d) with
    | (s1, .ok _) => if s1 = s then some none else none
    | (s1, .error (.need ps _)) => if s1 = s then some (some ps.length) else none
    | (_, .error (.status st)) => some (some (1000 + st))
  else none

/-- A YSORT at the head of a queue; its descriptor to be read; read and checked; a YGATH's read as a YSORT's, which fails; a
piece of a row that YGATH has read; words to read and a write that performs. -/
theorem wit_marshal :
    (let s := stateE (ctxE [.ysort 0x1000 1 1])
     (s.cluster 0).marshal = none ∧ (s.nextMarshal 0).map (fun q => (q.1, q.2.1)) = some (0, 0)) ∧
    workEnds 0 0x1000 (job (.ysort 0x1000 1 1) 0 [] .empty []) = some (some 16) ∧
    workEnds 0 0x1000 (job (.ysort 0x1000 1 1) 0 [] (got descY) []) = some none ∧
    workEnds 2 0x1000 (job (.ycomb 0x1000 1 1) 0 [] (got descY) []) = some (some (1000 + rBADWB)) ∧
    (let j := job (.ygath 0x1100 1 1) 3 descG ⟨[(toBytes 4 1, none), (List.replicate 64 7, none)], [], []⟩ []
     let s := stateJ j
     let c := s.ctx 0 0
     j.fits = true ∧ descWord descG 8 % 2 ^ 32 = 64 ∧ descWord descG 9 ≠ 0 ∧ 0 ≤ sext (ofBytes (toBytes 4 1)) 32 ∧
       engineCheck s 0 c true false 0x2100 4 = none ∧ engineCheck s 0 c true false 0x10040 64 = none ∧
       engineCheck s 0 c false true 0x20000 64 = none) ∧
    (let s := stateJ (job (.ygath 0x1100 1 1) 1 descG twoWords [write0])
     twoWords.pieces[1]? = some (piece0 0x10008 8) ∧ s.readable (piece0 0x10008 8) ∧ s.performable [write0] 0 write0) :=
  ⟨by decide +kernel, by decide +kernel, by decide +kernel, by decide +kernel, by decide +kernel, rfl, readable_of (by decide +kernel),
    performable_of (by decide +kernel)⟩

/-- The rows that YSORT sorts stably: the assignment 3 to expert 2 has one earlier of its own and one of a lower expert. -/
theorem wit_sorted : [2, -1, 0, 2][3]? = some (2 : Int) ∧ (0 : Int) ≤ 2 ∧ (2 : Int) < (3 : Nat) := by decide

/-- A group of one member, which holds programs 16 to 19 of one step: a copy, a barrier, a send to and a receipt from itself. -/
def progStep (op : Nat) : BitVec 128 := BitVec.ofNat 128 (8 * 2 ^ 96 + 16 * 2 ^ 64 + 4 * 2 ^ 32 + 2 ^ 24 + op)
def stateX (cmds : List Command) (joins : List Join) (ops : List Collective) : State :=
  let p := { Partition.empty with groups := [(0, ⟨[(0, 0, 0)]⟩)], programs := [4, 5, 1, 2].zipIdx.map (fun q => (16 + q.2, [progStep q.1, 0])) }
  { stateE (ctxE cmds) with partitions := [(0, p)], joins := joins, collectives := ops }

def joined0 (prog word ph : Nat) : Joined := ⟨0, 0, 0, 0, prog, 0x10000, 0x20000, 0x30000, 64, word, 0, [16], 1, 1, ph⟩
def coll0 (prog word ph stage : Nat) (work : List Transfer) (fetch : Fetch) (stores : List (Nat × Store)) : Collective :=
  ⟨3, 0, 0, [(0, 0, 0)], [joined0 prog word ph], [0], 0, stage, 0, work, stores, fetch, 0, [], [(0, 0)], [], 0⟩

/-- Descriptors of an XA2AV, of 12 elements of F32, and of a group that is none. -/
def descX (kind : Nat) : List Byte :=
  if kind = 0 then descBytes [0x10000, 0x20000, 0x2000, 0x30000, 64, 0, 0]
  else descBytes [0x10000, 0x20000, 0, 0, 0, if kind = 9 then 5 else 0, 1 + 12 * 2 ^ 32]

/-- How the reading of a command's descriptor ends: with a member of a group and rank, in need of bytes, or failed. -/
def joinEnds (cmd : Command) (fetch : Fetch) : Option ((Nat × Nat) ⊕ Nat) :=
  let a : Join := ⟨0, 0, 0, cmd, fetch⟩
  let s := stateX [] [a] []
  match s.joins.find? (·.ctxid = (s.ctx 0 0).ctxid), cmd.collective with
  | some b, some (_, prog, d, ring, inc) =>
    if b = a ∧ s.present 0 = some (0, 0, s.ctx 0 0) then
      match s.engine fetch (readJoin 0 0 (s.ctx 0 0) prog d ring inc) with
      | (s1, .ok (g, _, j)) => if s1 = s then some (.inl (g, j.rank)) else none
      | (s1, .error (.need ps _)) => if s1 = s then some (.inr ps.length) else none
      | (_, .error (.status st)) => some (.inr (1000 + st))
    else none
  | _, _ => none

/-- Each command at the head; its descriptor to be read, and read: the member of rank 0 of group 0; of a group that does not
hold it; words to read; an operation that waits, and one that has timed out. -/
theorem wit_joins :
    ([Command.xa2av 0x1000 1 1, .xar 0x1000 1 1, .xag 0x1000 1 1, .xrun 0x1000 16 1 1].all fun q =>
      (stateX [q] [] []).headCmd 0 0 == some ⟨0, [], q⟩ && (stateX [q] [] []).joins == [] && joinEnds q .empty == some (.inr 16)) = true ∧
    joinEnds (.xa2av 0x1000 1 1) ⟨[(descX 0, none), (toBytes 8 16, none)], [], []⟩ = some (.inl (0, 0)) ∧
    ([Command.xar 0x1000 1 1, .xag 0x1000 1 1, .xrun 0x1000 16 1 1].all fun q =>
      joinEnds q (got (descX 1)) == some (.inl (0, 0)) && joinEnds q (got (descX 9)) == some (.inr (1000 + rNOGRP))) = true ∧
    (let s := stateX [] [⟨0, 0, 0, .xag 0x1000 1 1, twoWords⟩] []
     s.joins.find? (·.ctxid = (s.ctx 0 0).ctxid) = some ⟨0, 0, 0, .xag 0x1000 1 1, twoWords⟩ ∧
       s.present 0 = some (0, 0, s.ctx 0 0) ∧ s.readable (piece0 0x10008 8)) ∧
    ([0, 2].all fun stage =>
      let o : Collective := ⟨3, 0, 0, [(0, 0, 0)], [], [], 0, stage, 0, [], [], .empty, 0, [], [], [], 0⟩
      (stateX [] [] [o]).collectives.find? (fun o => o.part = 0 && o.group = 0 && !o.ranks.contains 0) == some o) = true :=
  ⟨by decide +kernel, by decide +kernel, by decide +kernel, ⟨by decide +kernel, by decide +kernel, readable_of (by decide +kernel)⟩,
    by decide +kernel⟩

/-- The member of core 0 may read a run of an operation, and write one. -/
def mayAt (o : Collective) (rd : Bool) (a n : Nat) : Bool :=
  let s := stateX [] [] [o]
  s.findColl 3 == some o && match s.memberAt o 0 with
  | some (core, _, c) => (engineCheck s core c rd (!rd) a n).isNone && (runLines a n).all (fun q => !cipherAt s core c q.1) &&
      !hostAt core c a && c.world == 0 && o.remote == false
  | none => false

/-- An operation of each kind whose one member is here with room; one past its time. -/
theorem wit_collectives :
    ([(0, 0), (1, 1 + 12 * 2 ^ 32), (2, 1 + 12 * 2 ^ 32), (16, 1 + 12 * 2 ^ 32)].all fun q =>
      let o := coll0 q.1 q.2 1 0 [] .empty []
      let s := stateX [] [] [o]
      s.findColl 3 == some o && o.ready s && !o.remote && !o.disagree && (o.member 0).isSome &&
        decide ((o.member 0).all (fun m => m.sends.sum ≤ m.rlim))) = true ∧
    (let o := { coll0 0 0 1 0 [] .empty [] with joined := [{ joined0 0 0 1 with rlim := 8 }] }
     (o.member 0).any (fun m => m.rlim < m.sends.sum) && o.ready (stateX [] [] [o])) = true ∧
    (let o := coll0 2 0 1 0 [] .empty []
     let s := { stateX [] [] [o] with now := 2 ^ 28 }
     o.since + 2 ^ 26 ≤ (htime s).toNat ∧ o.joined = [joined0 2 0 1]) := by decide +kernel

/-- A transfer at its first and its last bytes, and a reduction, before they are read and read; words to read, and a write. -/
theorem wit_transfers_go :
    ([(0, 48), (32, 16)].all fun q => [Fetch.empty, got (List.replicate q.2 3)].all fun f =>
      let o := coll0 2 (1 + 12 * 2 ^ 32) 1 1 [⟨.memory 0 0x10000, .memory 0 0x20000, 48, q.1⟩] f []
      o.stage == 1 && o.reader == 0 && mayAt o true (0x10000 + q.1) q.2 && mayAt o false (0x20000 + q.1) q.2) = true ∧
    ([Fetch.empty, got (List.replicate 48 0)].all fun f =>
      let o := coll0 1 (1 + 12 * 2 ^ 32) 1 1 [⟨.reduced, .everyone, 48, 0⟩] f []
      o.stage == 1 && o.reader == 0 && mayAt o true 0x10000 48 && mayAt o false 0x20000 48) = true ∧
    (let o := coll0 2 0 1 1 [] twoWords [(0, write0)]
     let s := stateX [] [] [o]
     o.fetch.pieces[1]? = some (piece0 0x10008 8) ∧ s.readable (piece0 0x10008 8) ∧ (s.memberAt o 0).isSome = true ∧
       s.performable (o.stores.map (·.2)) 0 write0) :=
  ⟨by decide +kernel, by decide +kernel, rfl, readable_of (by decide +kernel), by decide +kernel, performable_of (by decide +kernel)⟩

/-- A step of a member's program: a copy to RBUF, to SBUF and to the buffers, a barrier, a send before and after its read, and a
receipt of the block that was sent. -/
theorem wit_program_steps :
    ([(4, 0), (4, 1), (4, 2), (5, 1), (1, 1), (2, 1)].all fun q =>
      let b := progStep q.1 + BitVec.ofNat 128 (q.2 * 2 ^ 24) - BitVec.ofNat 128 (2 ^ 24)
      stepOp b == q.1 && stepBuf b == q.2 && stepPeer b == 0 && stepLen b == 16) = true ∧
    ([(16, 4), (17, 5), (18, 1), (19, 2)].all fun q => [Fetch.empty, got (List.replicate 16 1)].all fun f =>
      let o := { coll0 q.1 (1 + 12 * 2 ^ 32) 1 1 [] f [] with reader := 1, sent := [(0, 0, ⟨List.replicate 16 1, [], none⟩)] }
      let s := stateX [] [] [o]
      SMap.find (s.partition 0).programs q.1 == some [progStep q.2, 0] && o.pcOf 0 == 0 && o.quiet 0 &&
        o.pcs.all (fun p => decide (0 ≤ p.2)) && mayAt o true (0x10000 + stepSoff (progStep q.2)) 16) = true := by decide +kernel

/-- A cipher command of one line, plaintext or sealed, under the key of world 1, with what is read of it. -/
def cipher0 (opening : Bool) (f : Fetch) : CipherJob := ⟨0, 0, opening, true, 0x40, 1, 1, 1, f⟩
def stateCipher (opening sealed : Bool) (f : Fetch) : State :=
  let c := { ctxE [] with world := 1 }
  let s0 := stateE c
  let s := { s0.setCore 0 { s0.core 0 with cipher := some (cipher0 opening f) } with
    keys := { KeyStore.empty with keys := [(1, 5)] } }
  if sealed then { s with form := [1] } else s

theorem wit_cipher :
    ([(true, true), (true, false), (false, true), (false, false)].all fun q =>
      [Fetch.empty, got (List.replicate 64 7), twoWords].all fun f =>
      let s := stateCipher q.1 q.2 f
      let c := s.ctx 0 0
      (s.core 0).cipher == some (cipher0 q.1 f) && s.issuer 0 0 0 == some c && (SMap.find s.keys.keys c.world).isSome &&
        s.runFree 0 c 0x40 64 && (entryAt 0 c 0x40).isNone && (engineCheck s 0 c true true 0x40 64).isNone &&
        (engineCheck s 0 c true false 0x40 64).isNone && (engineCheck s 0 c false true 0x40 64).isNone && placeOf 0 c 0x40 == 64 &&
        !protAt 0 c 0x40 && s.isCipher 1 == q.2) = true ∧
    (∀ p ∈ twoWords.pieces, (stateCipher false false twoWords).readable p) ∧
    ([Command.sealL 0x40 1 1 1, .openL 0x40 1 1 1].all fun q => (stateE (ctxE [q])).headCmd 0 0 == some ⟨0, [], q⟩ && q.cipher.isSome) =
      true :=
  ⟨by decide +kernel, fun p hp => by
      simp only [twoWords, List.mem_cons, List.not_mem_nil, or_false] at hp
      rcases hp with rfl | rfl <;> exact readable_of (by decide +kernel), by decide +kernel⟩

/-- A sealed line opens under the key of its world, and one with a bit of its tag changed does not. -/
def sealed0 : List Byte := sealLine (lineKey (stateCipher true true .empty) 1) 1 (List.replicate 40 7)
theorem wit_open :
    (openLine (lineKey (stateCipher true true .empty) 1) sealed0).isSome = true ∧
    openLine (lineKey (stateCipher true true .empty) 1) (sealed0.set 63 (sealed0.getD 63 0 ^^^ 1)) = none := by decide +kernel

/-! ## Fitting -/

/-- An entry of the region of desc1 in a state, with pairs in its training ring, and the request and pair that meet it. -/
def fitR (st : Nat) (accepted : Nat) (passes : Nat) : FitRegion :=
  { newRegion ⟨0, 0, 0, 0, 3, 5, 0, some desc1, 0⟩ 0 (State.reset.fitKey 0 5) 1 desc1 with
    state := st, accepted := accepted, passes := passes, train := [([0x3F800000], [0x3F800000])], serial := 1, eval := List.replicate 96 1 }
def request0 (hash : BitVec 256) (kind : Nat) : FitRequest := ⟨0, 0, 0, 0, 3, hash, 0, some desc1, kind⟩
def pair0 : FitSample := ⟨0, 3, [0x40000000], [0x3F800000], false⟩
def stateFit (c : Ctx) (rs : List FitRegion) (q : List FitRequest) (ps : List FitSample) : State :=
  { state c with dies := [(0, { Die.empty with regions := rs.map (fun r => (regionKey 0 3, r)), requests := q, ingress := ps })] }

theorem wit_requests :
    (let s := stateFit (ctxR 0 ⟨0, 0, 0, none, 0, 0, 1, []⟩) [] [request0 5 0] []
     (s.die 0).requests[0]? = some (request0 5 0) ∧ SMap.find (s.die 0).regions (regionKey 0 3) = none ∧
       (request0 5 0).kind = 0 ∧ (request0 5 0).desc = some desc1 ∧ (s.die 0).hasRoom desc1 = true) ∧
    ({ Die.empty with regions := (List.range 1024).map (fun i => (i + 64, fitR 1 0 0)) }.hasRoom desc1 = false) ∧
    ([(5, 0), (5, 1), (6, 0)].all fun q =>
      let s := stateFit ctx0 [fitR 1 0 0] [request0 q.1 q.2] []
      SMap.find (s.die 0).regions (regionKey 0 3) == some (fitR 1 0 0) && (fitR 1 0 0).hash == 5 && (fitR 1 0 0).state != 5) = true := by
  decide +kernel

/-- Pairs of both rings at their last places and at the step to state 2. -/
theorem wit_pairs :
    ([254, 255, 6, 7].all fun n =>
      let s := stateFit ctx0 [fitR 1 n 0] [] [pair0]
      let d := s.die 0
      d.paired ≤ s.now && d.requests.isEmpty && d.delivering.isEmpty && d.ingress == [pair0] && (fitR 1 n 0).train.length < 256 &&
        (fitR 1 n 0).held.length < 64) = true ∧ (254 % 8 ≠ 7 ∧ 255 % 8 = 7 ∧ 6 % 8 ≠ 7 ∧ 7 % 8 = 7) := by decide +kernel

/-- Training: no validation passes while the box is empty, and one whose held-out pairs are none passes; an ELEM entry of one
hidden unit, whose store opens or does not. -/
theorem wit_training :
    (fitR 2 9 0).step.passesNow = false ∧
    ({ fitR 2 9 1 with box := [some (0x3F800000, 0x3F800000)] } : FitRegion).step.passesNow = true ∧ (fitR 2 9 1).train ≠ [] ∧
    ([true, false].all fun b =>
      let r := { fitR 2 9 1 with spoilt := b }
      let s := stateFit ctx0 [r] [] []
      (s.die 0).ingress.isEmpty && (s.die 0).delivering.isEmpty && SMap.find (s.die 0).regions (regionKey 0 3) == some r && r.state == 2 && s.opens r == !b &&
        r.desc.elem && r.weights.length == 2 + 3 * 1 && r.momentum.length == 2 + 3 * 1) = true := by
  decide +kernel

/-- A version to be completed in the inactive buffer, from a store that opens or does not; a push; an AXQRY and an AXINV at the
head. -/
theorem wit_pushes :
    ([true, false].all fun b =>
     let r := { fitR 3 300 0 with spoilt := b }
     let s := stateFit (ctxR 0x10000 ⟨2, 0, 0, none, 0, 0, 1, []⟩) [r] [] []
     let c := s.ctx 0 0
     c.state == .running && s.regionOf 0 0 3 == some r && c.desc 3 == some desc1 && r.desc == desc1 && c.fits desc1 && s.opens r == !b &&
       !((c.region 3).meet r).complete r && ((linePoints (c.swBase + c.bufOff desc1 (1 - ((c.region 3).meet r).active)) desc1.bufBytes).all
         (fun a => !s.claimedPlace (s1Place 0 a)))) = true ∧
    (let s := stateFit (ctxR 0x10000 ⟨2, 0, 0, none, 0, 0, 1, []⟩) [fitR 4 300 0] [] []
     s.givenState 0 0 3 = some 4 ∧ ((s.ctx 0 0).region 3).state ≠ 4 ∧ (s.ctx 0 0).axinvWaits 3 = false ∧ ((s.ctx 0 0).desc 3).isSome = true) ∧
    ([Command.axqry 3 9, .axinv 3].all fun q =>
      let s := stateFit { ctxR 0x10000 ⟨2, 0, 0, none, 0, 0, 1, []⟩ with cmds := [⟨0, [], q⟩], nextId := 1 } [fitR 4 300 0] [] []
      s.headCmd 0 0 == some ⟨0, [], q⟩ && s.givenState 0 0 3 == some 4 && (s.die 0).requests == []) = true ∧
    (stateFit ctx0 [fitR 4 300 0] [] []).dies.all (fun d => d.2.regions.map (·.1) == [regionKey 0 3]) = true := by decide +kernel

/-! ## Gangs -/

/-- A kernel image of one context without data, of a world whose key is in the store. -/
def image0 : Image := ⟨0x9000, 1, 5, [], [⟨[0x54#512], [], [], [], true⟩]⟩
def entry0 : Placement := { ctx0.place with ibase := 16, ilen := 1, rank := 0, frec := 0x7C0000, bwin := 0xC000000000000000#64, plat := 0 }
def launchG (phase : Nat) (loaded gone : List Nat) : Launch := ⟨7, 0, default, 0, 0x9000, [entry0], phase, loaded, gone, 1⟩
def stateG (l : Launch) (cs : List (Nat × Core)) : State :=
  { State.reset with
    launches := [l], images := [image0], cores := cs, keys := { KeyStore.empty with keys := [(1, 5)] }
    partitions := [(0, { Partition.empty with phc := 1 })] }

theorem wit_gangs :
    (let s := stateG (launchG 0 [] []) []
     s.findLaunch 7 = some (launchG 0 [] []) ∧ s.findImage 0x9000 = some image0 ∧ s.admissible (launchG 0 [] []) image0 = true) ∧
    (let s := stateG (launchG 1 [] []) [(0, coreOf { Ctx.empty with state := .loading, gang := 7, world := 1 })]
     s.launches.find? (fun l => l.phase = 1 && (l.on 0 0).any (fun p => !l.loaded.contains p.2)) = some (launchG 1 [] []) ∧
       (launchG 1 [] []).on 0 0 = [(entry0, 0)] ∧ ((launchG 1 [] []).content image0 0).isSome = true ∧
       (s.makeCtx (launchG 1 [] []) image0 0 entry0).map (fun c => s.zeroing c.window) = some false) ∧
    (let s := stateG (launchG 1 [0] []) [(0, coreOf { Ctx.empty with state := .loading, gang := 7, world := 1 })]
     s.findLaunch 7 = some (launchG 1 [0] []) ∧ (s.ctx 0 0).gang = 7 ∧ (s.ctx 0 0).state = .loading ∧
       (launchG 1 [0] []).places = [(0, 0)] ∧ s.underWay 8 0 0 = none ∧ (s.ctx 0 0).killPending = false) := by decide +kernel

/-- A context that has halted, or is killed with its command under way or still to be stopped; a launch whose contexts have gone. -/
def stateEnd (halt kill : Bool) : State :=
  let c := { ctx0 with gang := 7, launch := 1, state := .blocked, why := some .halt, haltPending := halt, killPending := kill }
  { stateG (launchG 2 [0] []) [(0, { coreOf c with running := none })] with
    commands := [⟨3, 0, { (default : Packet) with op := 8 }, []⟩] }

theorem wit_ends :
    ([(true, false), (false, true)].all fun q =>
      let s := stateEnd q.1 q.2
      s.settledDown 0 0 && ((s.core 0).nextHeld 0).isNone && (s.ctx 0 0).haltPending == q.1 && (s.ctx 0 0).killPending == q.2 &&
        (s.ctx 0 0).state == .blocked) = true ∧
    (stateEnd false true).underWay 8 0 0 = some ⟨3, 0, { (default : Packet) with op := 8 }, []⟩ ∧
    SMap.sorted ((stateEnd true false).core 0).plats ∧ (stateEnd false false).stillLoading 0 0 = false ∧
    ((stateEnd false false).ctx 0 0).state = .blocked ∧ ((stateEnd false false).ctx 0 0).chan.stores = [] ∧
    ((launchG 2 [0] [0]).entries.length = 1 ∧ ((stateG (launchG 2 [0] [0]) []).ctx 0 0).state = .empty) :=
  ⟨by decide +kernel, by decide +kernel, List.pairwise_singleton _ _, by decide +kernel, by decide +kernel, by decide +kernel⟩

/-- A context that leaves its platform, for a rotation or a pre-emption; and one that a rotation brings back. -/
def stateSave (st : PlatState) (pre : Option (Nat × Nat × Packet)) : State :=
  stateG (launchG 2 [0] []) [(0, { coreOf { ctx0 with state := st, why := some (.leaving .ready), preempt := pre, gang := 7, launch := 1, image := 0x9000, world := 1, safe := none } with
    running := none })]
def heldBack : Held :=
  ⟨0, { ctx0 with state := .ready, gang := 7, launch := 1, image := 0x9000, world := 1, place := entry0 }, 0, false, 0, false⟩
def stateBack : State :=
  stateG (launchG 2 [0] []) [(0, { Core.empty with plats := [(0, { Ctx.empty with state := .loading })], held := [heldBack] })]

theorem wit_saves :
    (let s := stateSave .ready none
     s.savable 0 0 = true ∧ (s.ctx 0 0).killPending = false ∧ (s.ctx 0 0).resume = .none ∧ (s.ctx 0 0).state = .ready ∧
       (s.ctx 0 0).why = some (.leaving .ready) ∧ s.imageFits 0 0 .ready = true) ∧
    (let s := stateSave .ready (some (0, 0, default))
     s.savable 0 0 = true ∧ (s.ctx 0 0).killPending = false ∧ (s.ctx 0 0).resume = .none ∧ (s.ctx 0 0).state = .ready ∧
       (s.ctx 0 0).why = some (.leaving .ready) ∧ (s.ctx 0 0).preempt = some (0, 0, default) ∧ s.underWay 8 0 0 = none) ∧
    (let s := stateSave .saving none
     (s.ctx 0 0).state = .saving ∧ (s.ctx 0 0).why = some (.leaving .ready) ∧ s.underWay 8 0 0 = none ∧
       (s.ctx 0 0).killPending = false ∧ s.begunDone 0 0 = true ∧ (s.core 0).half0.owner ≠ some 0 ∧ (s.core 0).half1.owner ≠ some 0 ∧ (s.core 0).nextHeld 0 = none) ∧
    (let s := stateBack
     s.restores 0 0 true = [] ∧ (s.ctx 0 0).state = .loading ∧ s.launches.all (fun l => l.phase != 1) = true ∧
       s.underWay 8 0 0 = none ∧ (s.core 0).nextHeld 0 = some heldBack ∧
       (match s.checkHeld 0 heldBack with | .ok c => !s.zeroing (s.composeAll c) | .error _ => false) = true) := by decide +kernel

theorem writeGuest_isSome (part : Nat) (e : BitVec 32) (he : entV e = true ∧ entW e = true ∧ entHost e = false ∧ entFrame e = 0) :
    ∀ (l : List (List Byte)) (gpa : Nat) (s : State), (∀ b ∈ l, b.length ≤ 64) → gpa + 64 * l.length ≤ 2 ^ 21 →
      s.stage2 part 0 = some e → (s.writeGuest part gpa l).isSome = true := by
  intro l
  induction l with
  | nil => intros; rfl
  | cons b t ih =>
    intro gpa s hb hl hs
    have h0 : gpa / 2 ^ 21 = 0 := by simp only [List.length_cons] at hl; omega
    have hp : s.guestPlace part gpa true = some (2 ^ 60 + gpa) := by
      simp only [State.guestPlace, h0, hs, he, framePlace, hbmPlace]
      simp only [List.length_cons] at hl
      simp
      omega
    rw [State.writeGuest, hp]
    simp only
    apply ih
    · exact fun c hc => hb c (List.mem_cons_of_mem _ hc)
    · simp only [List.length_cons] at hl; omega
    · have hk : ∀ q, 2 ^ 62 ≤ q → (s.store (2 ^ 60 + gpa) b).word q 4 = s.word q 4 := by
        intro q hq
        have := hb b (List.mem_cons_self ..)
        simp only [List.length_cons] at hl
        simp only [State.word]
        rw [State.bytes_store_ne]
        omega
      have hpart : (s.store (2 ^ 60 + gpa) b).partition part = s.partition part := rfl
      rw [← hs]
      simp only [State.stage2, hpart]
      rw [hk _ (by simp only [hvPlace]; omega)]

theorem chunks_length {α : Type} (f n : Nat) (l : List α) : (chunks f n l).length ≤ f := by
  induction f generalizing l with
  | zero => simp [chunks]
  | succ k ih =>
    cases l with
    | nil => simp [chunks]
    | cons a t => simp only [chunks, List.length_cons]; exact Nat.succ_le_succ (ih _)

theorem chunks_each {α : Type} (f n : Nat) (l : List α) : ∀ b ∈ chunks f n l, b.length ≤ n := by
  induction f generalizing l with
  | zero => simp [chunks]
  | succ k ih =>
    cases l with
    | nil => simp [chunks]
    | cons a t =>
      simp only [chunks]
      intro b hb
      rcases List.mem_cons.mp hb with h | h
      · rw [h, List.length_take]; exact Nat.min_le_left ..
      · exact ih _ b h

theorem flatMap_length {α β : Type} (l : List α) (f : α → List β) (n : Nat) (h : ∀ a ∈ l, (f a).length ≤ n) :
    (l.flatMap f).length ≤ n * l.length := by
  induction l with
  | nil => simp
  | cons a t ih =>
    simp only [List.flatMap_cons, List.length_append, List.length_cons, Nat.mul_succ]
    have := h a (List.mem_cons_self ..)
    have := ih (fun c hc => h c (List.mem_cons_of_mem _ hc))
    omega

theorem gcmCrypt_length (rk : List (List Byte)) (iv data : List Byte) : (gcmCrypt rk iv data).length ≤ data.length + 16 := by
  simp only [gcmCrypt]
  refine Nat.le_trans (flatMap_length _ _ 16 ?_) ?_
  · intro p hp
    have h1 := chunks_each _ _ _ p.1 (List.fst_mem_of_mem_zipIdx hp)
    simp only [xorBytes, List.length_zipWith]
    omega
  · simp only [List.length_zipIdx]
    have := chunks_length (data.length / 16 + 1) 16 data
    omega

theorem sealImage_length (s : State) (core plat : Nat) (c : Ctx) (body : List Byte) :
    (sealImage s core plat c body).length ≤ body.length + 96 := by
  simp only [sealImage, gcmSeal, List.length_append, toBytes_length, List.length_replicate, gcmTag, xorBytes, List.length_zipWith]
  have h := fun rk iv => gcmCrypt_length rk iv body
  have h1 : ∀ v, (toBytesBE 16 v).length = 16 := fun v => by simp [toBytesBE, toBytes_length]
  rw [h1]
  have := h (roundKeys (imageKey s c.world ((s.findImage c.image).elim 0 (·.hash)) c.ctxid.toNat))
    (imageIv (SMap.get 0 s.keys.saves c.ctxid.toNat) plat)
  omega

theorem append_le {a b : List Byte} {n k : Nat} (hb : b.length ≤ n) (hn : n ≤ k) (ha : a.length ≤ k - n) : (a ++ b).length ≤ k := by
  rw [List.length_append]; omega
theorem wWords_le (n k : Nat) (f : Nat → Nat) : (wWords n k f).length ≤ k * n := by
  simp [wWords, List.length_flatMap, toBytes_length, List.map_const']
theorem toBytes_le (n v : Nat) : (toBytes n v).length ≤ n := Nat.le_of_eq (toBytes_length n v)
theorem wBool_le (b : Bool) : (wBool b).length ≤ 1 := toBytes_le ..
theorem wTemps_le (h : SMap Vec) (n : SMap (BitVec 16)) : (wTemps h n).length ≤ 6152 := by
  rw [wTemps, List.length_append]; exact Nat.add_le_add (wWords_le ..) (wWords_le ..)

/-- The parts of a context whose lengths vary are short. -/
def Short (c : Ctx) : Prop :=
  (wList wLoop c.flow.loops).length ≤ 4 ∧ (wList (toBytes 8) c.flow.rets).length ≤ 4 ∧
    (wOpt wXfer c.flow.xfer).length ≤ 1 ∧ (wOpt wAfter c.flow.after).length ≤ 1 ∧
    (wList (fun p => toBytes 2 p.1 ++ toBytes 8 p.2.toNat) (savedCregs c)).length ≤ 4000 ∧
    (wList (fun w => toBytes 384 w.toNat) c.queue).length ≤ 4 ∧ (wList (fun p => toBytes 8 p.1 ++ toBytes 32 p.2.toNat) c.oldKeys).length ≤ 4 ∧
    (wList wPair c.taken).length ≤ 4 ∧ (wList wPair c.units).length ≤ 4 ∧ (wMicro c.micro).length ≤ 100 ∧ (wOpt wShadow c.shadow).length ≤ 1 ∧
    (wOpt (fun l => toBytes 1 l.id ++ toBytes 384 l.input.toNat ++ wBool l.observed ++ wBool l.sampled) c.latch).length ≤ 1 ∧
    (wOpt wArgs c.saved).length ≤ 1 ∧ (wOpt wAfter c.recAfter).length ≤ 1 ∧ (wOpt (fun w => toBytes 384 w.toNat) c.word).length ≤ 1 ∧
    (wOpt (fun w => toBytes 384 w.toNat) c.wordAside).length ≤ 1 ∧ (wList wRegion c.regions).length ≤ 4 ∧
    (wList (toBytes 2) c.arrivals).length ≤ 4 ∧ (wList wPoison c.poison).length ≤ 4 ∧ (wList wFault c.asyncFaults).length ≤ 4 ∧
    (wOpt (toBytes 2) c.safe).length ≤ 3

/-- The fixed parts of an image are then short. -/
theorem fixed_length (c : Ctx) (own : Nat) (h : Short c) : (fixedPart c own).length ≤ 20000 := by
  obtain ⟨h1, h2, h3, h4, h5, h6, h7, h8, h9, h10, h11, h12, h13, h14, h15, h16, h17, h18, h19, h20, h21⟩ := h
  unfold fixedPart
  repeat with_reducible refine append_le (by with_reducible first | assumption | exact toBytes_le _ _ | exact wBool_le _ | exact wWords_le _ _ _ | exact wTemps_le _ _) (by decide) ?_
  with_reducible exact Nat.le_trans (toBytes_le _ _) (by decide)

theorem bytes_length (s : State) (p n : Nat) : (s.bytes p n).length = n := by
  unfold State.bytes
  induction n generalizing p with
  | zero => rfl
  | succ k ih => rw [Mem.read, List.length_cons, ih]
theorem one_le {α : Type} {f : α → List Byte} {a : α} {n : Nat} (h : (f a).length ≤ n) : ([a].flatMap f).length ≤ n := by
  rw [List.flatMap_singleton]
  exact h

/-- The live parts of a FAULTED context's image: every V and M register, and the record. -/
theorem faulted_length (s : State) (core : Nat) (c : Ctx) (r : Nat × Nat) (h : maskRows (c.accMask.getD 0 0) = [] ∧
    maskRows (c.accMask.getD 1 0) = []) (hr : r.2 - r.1 ≤ 20000) :
    (livePart s core c ⟨[(0, 2047)], [(0, 255)], [r]⟩).length ≤ 1010000 := by
  unfold livePart
  dsimp only
  rw [h.1, h.2]
  refine append_le (n := 0) (Nat.le_refl _) (by decide) ?_
  refine append_le (n := 0) (Nat.le_refl _) (by decide) ?_
  refine append_le (n := 24) (wWords_le _ _ _) (by decide) ?_
  refine append_le (n := 20000) (one_le (Nat.le_trans (Nat.le_of_eq (bytes_length ..)) hr)) (by decide) ?_
  refine append_le (n := 256 * 768) (one_le (wWords_le ..)) (by decide) ?_
  exact Nat.le_trans (one_le (wWords_le ..)) (by decide)

/-- A context that leaves its platform for an image, READY at a safe point without live ranges or FAULTED, in its state, and a
second stage whose first frame is the HBM's. -/
def statePre (st back : PlatState) (pre : Option (Nat × Nat × Packet)) : State :=
  let s := stateSave st pre
  let c := { s.ctx 0 0 with why := some (.leaving back), safe := some 0, points := [⟨0, 0, 0, 0, [], [], []⟩] }
  { (s.setCtx 0 0 c).store (2 ^ 62) (toBytes 4 0xE0000000) with
    partitions := [(0, { Partition.empty with phc := 1, xl2len := 1 })]
    commands := if back = .faulted then [⟨3, 0, { (default : Packet) with op := 6 }, []⟩] else [] }

theorem writeImage_isSome (s : State) (back : PlatState) (h0 : s.stage2 (s.ctx 0 0).part 0 = some 0xE0000000#32)
    (h1 : Short ((s.ctx 0 0).trim ((s.ctx 0 0).live back) back))
    (h2 : (livePart s 0 ((s.ctx 0 0).trim ((s.ctx 0 0).live back) back) ((s.ctx 0 0).live back)).length ≤ 1010000) :
    ∃ s2, s.writeImage 0 0 0 0 back = some s2 := by
  refine Option.isSome_iff_exists.mp (writeGuest_isSome _ 0xE0000000#32 (by decide) _ _ _ (chunks_each _ _ _) ?_ h0)
  have h3 := sealImage_length s 0 0 (s.ctx 0 0) (fixedPart ((s.ctx 0 0).trim ((s.ctx 0 0).live back) back) 0 ++
    livePart s 0 ((s.ctx 0 0).trim ((s.ctx 0 0).live back) back) ((s.ctx 0 0).live back))
  rw [List.length_append] at h3
  have h4 := fixed_length _ 0 h1
  have h := fun l : List Byte => chunks_length (l.length / 64 + 1) 64 l
  refine Nat.le_trans (Nat.add_le_add_left (Nat.mul_le_mul_left _ (h _)) _) ?_
  unfold State.imageOf
  dsimp only
  omega

theorem wit_preempt :
    (let s := statePre .saving .ready (some (0, 0, default))
     (s.ctx 0 0).state = .saving ∧ (s.ctx 0 0).why = some (.leaving .ready) ∧ (s.ctx 0 0).preempt = some (0, 0, default) ∧
      s.underWay 8 0 0 = none ∧ (s.ctx 0 0).killPending = false ∧ s.begunDone 0 0 = true ∧ (s.core 0).half0.owner ≠ some 0 ∧
      (s.core 0).half1.owner ≠ some 0 ∧ (s.core 0).nextHeld 0 = none) ∧
    (let s := statePre .saving .faulted none
     (s.ctx 0 0).state = .saving ∧ (s.ctx 0 0).why = some (.leaving .faulted) ∧ (s.ctx 0 0).preempt = none ∧
      s.underWay 8 0 0 = none ∧ (s.ctx 0 0).killPending = false ∧ s.begunDone 0 0 = true ∧ (s.core 0).half0.owner ≠ some 0 ∧
      (s.core 0).half1.owner ≠ some 0 ∧ (s.core 0).nextHeld 0 = none ∧
      s.underWay 6 0 0 = some ⟨3, 0, { (default : Packet) with op := 6 }, []⟩) ∧
    (∃ s2, (statePre .saving .ready (some (0, 0, default))).writeImage 0 0 0 0 .ready = some s2) ∧
    (∃ s2, (statePre .saving .faulted none).writeImage 0 0 0 0 .faulted = some s2) :=
  ⟨by decide +kernel, by decide +kernel, writeImage_isSome _ _ (by decide +kernel) (by unfold Short; decide +kernel) (by decide +kernel),
    writeImage_isSome _ _ (by decide +kernel) (by unfold Short; decide +kernel)
      (faulted_length _ _ _ (0x7C0000, 0x7C0800) (by decide +kernel) (by decide))⟩

theorem imageOf_ne (s : State) (core plat own : Nat) (back : PlatState) : s.imageOf core plat own back ≠ [] := by
  unfold State.imageOf sealImage
  dsimp only
  have h (n v : Nat) : toBytes (n + 1) v ≠ [] := fun e => by
    have := toBytes_length (n + 1) v
    rw [e] at this
    exact absurd this (by simp)
  simp only [ne_eq, List.append_eq_nil_iff, h, false_and, not_false_eq_true]

/-- A partition without a second stage has no place for an image. -/
theorem writeImage_none (s : State) (h : s.guestPlace (s.ctx 0 0).part 0 true = none) (own : Nat) (back : PlatState) :
    (s.writeImage 0 0 0 own back).isSome = false := by
  unfold State.writeImage
  dsimp only
  cases e : s.imageOf 0 0 own back with
  | nil => exact absurd e (imageOf_ne s 0 0 own back)
  | cons b t =>
    rw [chunks, State.writeGuest, h]
    · rfl
    · exact fun x => nomatch x

/-- A SAVE of a FAULTED context that its partition has a place for, and a pre-emption without one. -/
theorem wit_save_fits :
    (let s := statePre .faulted .faulted none
     s.savable 0 0 = true ∧ (s.ctx 0 0).killPending = false ∧ (s.ctx 0 0).resume = .none ∧ (s.ctx 0 0).state = .faulted ∧
      s.underWay 6 0 0 = some ⟨3, 0, { (default : Packet) with op := 6 }, []⟩ ∧ s.imageFits 0 0 .faulted = true) ∧
    (stateSave .ready (some (0, 0, default))).imageFits 0 0 .ready = false := by
  refine ⟨⟨by decide +kernel, by decide +kernel, by decide +kernel, by decide +kernel, by decide +kernel, ?_⟩, ?_⟩
  · obtain ⟨s2, h⟩ := writeImage_isSome (statePre .faulted .faulted none) .faulted (by decide +kernel) (by unfold Short; decide +kernel)
      (faulted_length _ _ _ (0x7C0000, 0x7C0800) (by decide +kernel) (by decide))
    have h1 : (statePre .faulted .faulted none).imageDest 0 0 .faulted = some 0 := by decide +kernel
    have h2 : ((statePre .faulted .faulted none).core 0).ownedBits 0 = 0 := by decide +kernel
    rw [State.imageFits, h1, h2]
    simp only [h, Option.isSome_some]
  · have h1 : (stateSave .ready (some (0, 0, default))).imageDest 0 0 .ready = some 0 := by decide +kernel
    rw [State.imageFits, h1]
    exact writeImage_none _ (by decide +kernel) _ _

/-! ## The host -/

def packet0 (op : Nat) (w0 w1 w2 : Word) : Packet := { (default : Packet) with op := BitVec.ofNat 8 op, w0 := w0, w1 := w1, w2 := w2 }
def packetBytes (k : Packet) : List Byte :=
  toBytes 1 k.op.toNat ++ toBytes 1 k.flags.toNat ++ toBytes 2 k.zero2.toNat ++ toBytes 4 k.pasid.toNat ++ toBytes 8 k.tag.toNat ++
    [k.w0, k.w1, k.w2, k.w3, k.w4, k.w5].flatMap (fun w => toBytes 8 w.toNat)

/-- A queue of function 1 whose next packet is given, on a package in RUN whose partition 0 holds core 0. -/
def queue0 : HostQueue := ⟨0x1000, 0x2000, 16, 0, true, 0, 0x800, 0, 1, 0, 0, [], false⟩
def stateP (k : Packet) (c : Ctx) : State :=
  { (state c).store (hostPlace 0x1000) (packetBytes k) with
    queues := [(queueKey 1 0, queue0)], partitions := [(0, { Partition.empty with phc := 1 })], hub := { Hub.empty with mbstate := 2 } }

theorem takes_of {s : State} {k : Packet} {op : Nat} (h : SMap.find s.queues (queueKey 1 0) = some queue0 ∧ s.up = true ∧
    s.hub.linkUp = true ∧ 1 ∉ s.resetting ∧ queue0.mayStart k = true ∧ s.headPacket queue0 = k ∧ s.deaf (queueKey 1 0) k = false ∧
    s.pasidAllowed 0x800 k.pasid.toNat = true ∧ k.op.toNat = op) : Takes s 1 0 k op queue0 :=
  ⟨h.1, h.2.1, h.2.2.1, h.2.2.2.1, h.2.2.2.2.1, h.2.2.2.2.2.1, h.2.2.2.2.2.2.1, h.2.2.2.2.2.2.2.1, h.2.2.2.2.2.2.2.2⟩

/-- The checks of Takes for a packet of an OP. -/
def takesOk (s : State) (k : Packet) (op : Nat) : Bool :=
  decide (SMap.find s.queues (queueKey 1 0) = some queue0 ∧ s.up = true ∧ s.hub.linkUp = true ∧ 1 ∉ s.resetting ∧
    queue0.mayStart k = true ∧ s.headPacket queue0 = k ∧ s.deaf (queueKey 1 0) k = false ∧
    s.pasidAllowed 0x800 k.pasid.toNat = true ∧ k.op.toNat = op)

theorem takes_of_ok {s : State} {k : Packet} {op : Nat} (h : takesOk s k op = true) : Takes s 1 0 k op queue0 :=
  takes_of (of_decide_eq_true h)

/-- A launch that its partition may hold and one that it may not, by the map's first entry: its length 1 or 0. -/
def mapBytes (len : Nat) : List Byte :=
  toBytes 6 0 ++ toBytes 2 len ++ toBytes 8 0 ++ toBytes 8 0x8000000000000000 ++ toBytes 56 0 ++ toBytes 8 0x7E0000 ++ toBytes 8 0 ++ toBytes 32 0
def stateLaunch (len : Nat) : State :=
  { (stateP (packet0 1 0x9000 0x4000 1) Ctx.empty).store (hostPlace 0x4000) (mapBytes len) with images := [image0] }

theorem wit_launch_packet :
    ([(1, none), (0, some (1, 0))].all fun q =>
      let s := stateLaunch q.1
      takesOk s (packet0 1 0x9000 0x4000 1) 0x01 && s.findImage 0x9000 == some image0 &&
        launchRefusal (s.partition 0) (s.readMap 0x4000 1) (s.entryTiles 0 image0 (s.readMap 0x4000 1)) == q.2) =
      true := by decide +kernel

/-- The context that each platform command finds: on its way to nothing; the recorded fault of a resume is one of slot 8, which goes
on at its bundle, or of no slot, which a RESUMESKIP passes. -/
def cFaulted : Ctx := { ctx0 with state := .faulted }
def stateRec (k : Packet) (slot : Nat) : State := (stateP k cFaulted).store (s1Place 0 0x7C0007) (toBytes 1 slot)
def commandOk (op : Nat) (c : Ctx) (w1 w2 : Nat) : Bool :=
  let k := packet0 op 0 (BitVec.ofNat 64 w1) (BitVec.ofNat 64 w2)
  let s := stateP k c
  takesOk s k op && (s.partition 0).ownsCore 0 && s.ctx 0 0 == c && (s.underWay 6 0 0).isNone && (s.underWay 8 0 0).isNone &&
    c.chan.stores == [] && s.bounces == [] && (s.core 0).world == none

theorem wit_platform_commands :
    (commandOk 0x02 ctx0 0x40 0 && commandOk 0x02 { ctx0 with state := .parked } 0x40 0 &&
      commandOk 0x02 { ctx0 with state := .ready, safe := some 0 } 0x40 0 && commandOk 0x03 cFaulted 0 0 && commandOk 0x04 cFaulted 0 0 &&
      commandOk 0x06 cFaulted 0x40 0 && commandOk 0x07 Ctx.empty 0x40 0 && commandOk 0x08 ctx0 0 0 && commandOk 0x09 ctx0 5 16379 &&
      commandOk 0x09 ctx0 0 16384) = true ∧
    ([0, 8].all fun slot => let s := stateRec (packet0 3 0 0 0) slot
      let r := readRecord s 0 0x7C0000
      (r.plan true == if slot = 8 then 5 else 4) && (r.plan false == if slot = 8 then 5 else 0) && r.xferB / 4 % 2 == 0 &&
        !(s.bundleIn 0 (s.ctx 0 0) r.mpc).bundle.hdr.sp) = true := by decide +kernel

/-- A refill whose two stages name a frame; a revocation under way whose accesses have performed; a restore not yet begun; a
platform of no partition. -/
def stateRefill : State :=
  let c := { ctx0 with place := { ctx0.place with xlat := 0 } }
  { ((stateP (packet0 5 0 3 0) c).store (2 ^ 62) (toBytes 4 0xE0000000)).store (2 ^ 60 + 12) (toBytes 4 0xE0000000) with
    partitions := [(0, { Partition.empty with phc := 1, xl2len := 1 })] }

theorem wit_refill_revoke :
    (takesOk stateRefill (packet0 5 0 3 0) 0x05 && (stateRefill.partition 0).ownsCore 0 &&
      (stateRefill.refillWaits (queueKey 1 0) (packet0 5 0 3 0)).isNone &&
      (match stateRefill.compose (stateRefill.ctx 0 0) 3 (stateRefill.refillVa 0 0 3) with
        | .entry e => !stateRefill.zeroing [(3, e)]
        | .invalid | .hv .. => false)) = true ∧
    (let r : Running := ⟨3, 0, packet0 9 0 0 0, [(0, 0, 5)]⟩
     let s := { state ctx0 with commands := [r] }
     s.commands.find? (·.id = 3) = some r ∧ r.packet.op = 0x09#8 ∧ s.isOutstanding 0 0 5 = false ∧ s.enginesUse 0 0 0 0 = false) ∧
    (let r : Running := ⟨3, queueKey 1 0, packet0 7 0 0x40 0, []⟩
     let s := { stateP (packet0 7 0 0x40 0) Ctx.empty with commands := [r] }
     s.restores 0 0 false = [r] ∧ (s.ctx 0 0).state = .empty ∧ (s.core 0).world = none) ∧
    ([0x02, 0x03, 0x04, 0x05, 0x06, 0x07, 0x08, 0x09].all fun op =>
      let k := packet0 op 4 0 0
      let s := { stateP k ctx0 with partitions := [] }
      takesOk s k op && !(s.partition 0).ownsCore k.core) = true := by decide +kernel

/-- CLAIM of slot 4095, free or taken; RESYNC of channel 65535 with a counter that is or is not the device's; ATTEST. -/
theorem wit_other_commands :
    ([true, false].all fun free =>
      let k := packet0 0x0A 4095 1 0
      let s := { stateP k ctx0 with partitions := [(0, { Partition.empty with slots := if free then [] else [(4095, ⟨0, 0, 0⟩)] })] }
      takesOk s k 0x0A && (SMap.find (s.partition 0).slots 4095).isNone == free) = true ∧
    ([5, 6].all fun n =>
      let k := packet0 0x0B 65535 (BitVec.ofNat 64 n) 0
      let s := { stateP k ctx0 with bounces := [(bounceKey (queueKey 1 0) 65535, ⟨7, 5, true, none, none⟩)] }
      takesOk s k 0x0B && (SMap.find s.bounces (bounceKey (queueKey 1 0) 65535)).isSome) = true ∧
    takesOk (stateP (packet0 0x0C 0 0x40 0x80) ctx0) (packet0 0x0C 0 0x40 0x80) 0x0C = true := by decide +kernel

/-- A packet of the queue of an aborted bounce channel; one whose PASID is none of the 32, which are 0. -/
theorem wit_turned_away :
    (let k := packet0 1 0 0 0
     let s := { stateP k ctx0 with bounces := [(bounceKey (queueKey 1 0) 0, ⟨7, 5, true, some (queueKey 1 0), none⟩)] }
     s.up && s.hub.linkUp && queue0.mayStart k && s.headPacket queue0 == k && s.deaf (queueKey 1 0) k) = true ∧
    (let k := { packet0 1 0 0 0 with pasid := 1 }
     let s := stateP k ctx0
     s.headPacket queue0 == k && !s.deaf (queueKey 1 0) k && !s.pasidAllowed queue0.pasids 1) = true := by decide +kernel

theorem wit_queues :
    (let s := stateP (packet0 1 0 0 0) ctx0
     s.up = true ∧ SMap.find s.queues (queueKey 1 0) = some queue0 ∧ (16#32 - queue0.head).toNat ≤ queue0.size ∧
       ¬ (17#32 - queue0.head).toNat ≤ queue0.size) ∧
    (let q := { queue0 with done := [(List.replicate 32 7, true, 0)] }
     let s := { state ctx0 with queues := [(queueKey 1 0, q)] }
     SMap.find s.queues (queueKey 1 0) = some q ∧ s.hub.linkUp = true) ∧
    ([(true, false), (true, true), (false, false)].all fun v =>
      let e : MsixEntry := ⟨64, 5, v.1, v.2, true⟩
      let s := { State.reset with irqs := [(1, 3)], remap := [(irqKey 1 3, e)] }
      s.irqs.contains (1, 3) && SMap.get MsixEntry.empty s.remap (irqKey 1 3) == e && SMap.find s.remap (irqKey 1 3) == some e) = true := by
  decide +kernel

/-! ## The hub -/

def stateHub (h : Hub) : State := { State.reset with hub := h }
def hubUp : Hub := { Hub.empty with mbstate := 2 }

/-- Boot from reset and the self-test meet each case by their operands; a sensor alarm finds BOOT or RUN. -/
theorem wit_boot : State.reset.hub.mbstate = 0 ∧ (stateHub { Hub.empty with mbstate := 1 }).hub.mbstate = 1 ∧ State.reset.hub.mbstate ≠ 3 ∧ (stateHub hubUp).hub.mbstate ≠ 4 := by decide +kernel

def message0 : Message := ⟨0, 0, 0, 0x40, 64, false, 1, 0, default⟩
/-- Partition 0's first guest frame is frame 0 of device HBM, and a filter of its own passes its message. -/
def stateMessage (fs : List FilterEntry) : State :=
  { (stateHub hubUp).store (hvPlace 0) (toBytes 4 0xE0000000) with partitions := [(0, { Partition.empty with xl2len := 1 })], filters := fs }

theorem wit_hub_serves :
    ([64, 4096].all fun size =>
     let m := { message0 with size := size % 4096 }
     let f : FilterEntry := ⟨0, 0, size, 1, 64, 1⟩
     let s := stateMessage [f]
     s.up && s.filters == [f] && f.src == m.src && f.dst == m.dst && decide (m.size ≤ Min.min f.maxSize 4096) && f.left != 0 &&
       !m.otherWorld && (size != 64 || s.messageRuns m == some ([(2 ^ 60, 64)], [(2 ^ 60 + 0x40, 64)])) && !s.isCipher (2 ^ 54)) = true ∧
    (stateMessage []).up = true ∧ (stateMessage []).hub.linkUp = true ∧ SMap.find (stateMessage []).functions 5 = none := by decide +kernel

/-- A HEAD that is read, of the last queue of a function. -/
theorem wit_reads :
    let s := { stateHub hubUp with functions := [(1, 0)], queues := [(queueKey 1 7, queue0)] }
    s.up = true ∧ (SMap.find s.functions 1).isSome = true ∧ SMap.find s.queues (queueKey 1 7) = some queue0 ∧ s.hub.linkUp = true := by
  decide +kernel

/-- Partition 0 gives up half-cluster 47 for 46, whose bit another partition holds in the second state. -/
def statePhc (other : Word) : State :=
  { stateHub hubUp with partitions := [(0, { Partition.empty with phc := 0x800000000000 }), (1, { Partition.empty with phc := other })] }

theorem wit_phc :
    (let s := statePhc 0
     let v : Word := 0x400000000000
     let gone := (s.partition 0).phc &&& ~~~(v &&& 0xFFFFFFFFFFFF#64)
     s.up && gone.getLsbD 47 && (List.range 48).all (fun j => !gone.getLsbD j || !s.halfInUse j) &&
       s.partitions.all (fun p => p.1 == 0 || p.2.phc &&& (v &&& 0xFFFFFFFFFFFF#64) == 0)) = true ∧
    ((statePhc 0x400000000000).partitions.any fun p => p.1 != 0 && p.2.phc &&& 0x400000000000#64 &&& 0xFFFFFFFFFFFF#64 != 0) = true := by
  decide +kernel

/-- The values of the other registers at the ends of their ranges: a range of 28,672 frames, quanta 1024, 1,048,576, 1023 and 1,048,577,
a tag region of stack 7 that ends at the last frame, and one of another stack. -/
theorem wit_registers :
    (let v : Word := 0x8000700000000000
     v.getLsbD 63 && (v.extractLsb' 32 16).toNat == 28672 && (Partition.empty.ps3r == []) && ((stateHub hubUp).partitions == [])) = true ∧
    ([1024, 1048576, 1023, 1048577].all fun n => ((BitVec.ofNat 64 (n * 65536)).extractLsb' 16 21).toNat == n) = true ∧
    ((stateHub hubUp).up && !(stateHub hubUp).protMapped 7 && tagEnd 262143 0 == 262143 && tagEnd 262135 3 == 262136 && 262135 % 8 == 7 &&
      262134 % 8 != 7) = true := by decide +kernel

/-- The ZERO command of the last frame; one under way with no tag region. -/
theorem wit_zero :
    (let h := { hubUp with hzframe := 262143, hzcount := 1 }
     h.hzbusy = none ∧ 0 < h.hzcount.toNat ∧ h.hzframe.toNat + h.hzcount.toNat ≤ 262144 ∧ (stateHub h).up = true) ∧
    (let s := stateHub { hubUp with hzbusy := some (0, 262144) }
     s.hub.hzbusy = some (0, 262144) ∧ ∀ p, s.metaFrame p = none) :=
  ⟨by decide +kernel, rfl, fun p => by simp [State.metaFrame, stateHub, hubUp, Hub.empty, SMap.get]⟩

/-- Function 1 holds partition 0, with half-cluster 47, a range of S3 and world 5, and function 2 none; a packet waits for
function 1. -/
def stateFlr (r m : List Nat) (c : Ctx) : State :=
  { stateHub hubUp with
    functions := [(1, 0)], resetting := r, removing := m, cores := [(0, coreOf c)]
    queues := [(queueKey 1 0, { queue0 with tail := queue0.head + 1 })], keys := { KeyStore.empty with keys := [(5, 9)] }
    partitions := [(0, { Partition.empty with phc := 0x800000000000, worlds := [5], ps3r := [(0, 0x8000000200000000)] })] }

/-- The reset of each begins; one whose packets are refused, with a context of the partition, one under a save, one of another;
one whose contexts have gone. -/
theorem wit_flr :
    (let s := stateFlr [] [] ctx0
     s.up = true ∧ SMap.find s.functions 2 = none ∧ SMap.find s.functions 1 = some 0 ∧ 1 ∉ s.resetting) ∧
    ([ctx0, { ctx0 with state := .saving }, { ctx0 with part := 1 }].all fun c =>
      let s := stateFlr [1, 2] [] c
      s.up && s.hub.linkUp && s.refusedAll 1 && s.refusedAll 2 && s.launches == [] && s.commands == [] && (coreOf c).held == [] &&
        (coreOf c).away == [] && c.chan.stores == [] && c.state != .empty && c.state != .loading && !c.killPending) = true ∧
    (let s := { stateFlr [1, 2] [1, 2] ctx0 with cores := [] }
     risingNat s.resetting = true ∧ risingNat s.removing = true ∧ s.emptied 0 = true ∧ s.keys.keys.map (·.1) = [5] ∧
       (∀ f ∈ s.functions, f.1 ≠ 1 → 5 ∉ (s.partition f.2).worlds) ∧ (s.partition 0).phc.getLsbD 47 = true ∧
       (s.partition 0).s3Ranges = [(0, 0, 2)]) := by decide +kernel


/-! ## The machine as a whole -/

/-- A core whose next bundle is ADD alone, as the host's words are placed: its step is due. -/
def iAdd : Instr := .add g 5 6 7
def stateAdd : State := State.reset.fetchBundle (encodeBundle (alone iAdd))

theorem wit_step :
    ((stateAdd.core 0).next stateAdd.now = some 0 ∧ iAdd.slot.isSome = true ∧ (stateAdd.ctx 0 0).resume = .none ∧
      (stateAdd.core 0).running = some 0 ∧ (stateAdd.ctx 0 0).state = .running) ∧
    stateAdd.bundleAt 0 (stateAdd.ctx 0 0).flow.pc = ⟨alone iAdd, []⟩ ∧ stateAdd.nextAct = .due (.bundleIssue 0) := by decide +kernel

/-- The first act after reset is boot. -/
theorem wit_due : ∃ i, State.reset.nextAct = .due i := ⟨_, rfl⟩

theorem wit_decoding : iAdd.slot.isSome = true ∧ iAdd.wf = true := by decide +kernel

/-- Where the next act is drawn: a core that waits and an input that may come about. -/
theorem wit_free :
    let s := { stateAdd with inputs := [.deviceReset], chosen := false, cores := [] }
    s.dueSteps.find? (enabled s) = none ∧ s.choices = [.input .deviceReset] := by decide +kernel

def stepsOn (s : State) : Bool := match step s with
  | .next _ => true
  | .fault _ | .refused _ => false

/-- A canonical state that steps, and a safe one, which a device reset may leave. -/
theorem wit_invariants :
    Mem.wf stateAdd.mem = true ∧ stepsOn stateAdd = true ∧
    (let s := stateHub { Hub.empty with mbstate := 3 }
     s.hub.mbstate = 3 ∧ stepsOn s = true) := by decide +kernel

end Sys2Proof.Tests
end

section
/-! ## Boot and device reset (R16, R347, R352 to R355) -/
namespace Sys2Proof.Machine

/-- Entries kept by a test of their keys: the value at a key that passes, the default at any other. -/
theorem SMap.get_filter_key {α : Type} (d : α) (m : SMap α) (keep : Nat → Bool) (k : Nat) :
    SMap.get d (m.filter (fun p => keep p.1)) k = if keep k then SMap.get d m k else d := by
  induction m with
  | nil => simp [SMap.get]
  | cons p t ih =>
    obtain ⟨j, v⟩ := p
    by_cases hj : keep j = true
    · rw [List.filter_cons_of_pos (by exact hj)]
      by_cases hk : k = j
      · subst hk; simp [SMap.get, hj]
      · simp only [SMap.get, if_neg hk, ih]
    · rw [List.filter_cons_of_neg (by exact hj), ih]
      by_cases hk : k = j
      · subst hk; simp [hj]
      · simp only [SMap.get, if_neg hk]

/-! ### Storage that survives, and the reset state -/

/-- Below the stacks every byte reads as zero; from there on every byte is as before. -/
theorem State.byte_keepStacks (s : State) (p : Nat) :
    Mem.byte s.keepStacks.mem p = if p < 2 ^ 60 then 0#8 else Mem.byte s.mem p := by
  have h := SMap.get_filter_key 0#8 s.mem (fun a => decide (2 ^ 60 ≤ a)) p
  by_cases hp : p < 2 ^ 60
  · rw [if_pos hp]
    rwa [decide_eq_false (Nat.not_le.2 hp), if_neg Bool.false_ne_true] at h
  · rw [if_neg hp]
    rwa [decide_eq_true (Nat.not_lt.1 hp), if_pos rfl] at h

@[simp] theorem State.reset_ctx (core plat : Nat) : State.reset.ctx core plat = Ctx.empty := rfl
@[simp] theorem State.reset_partition (part : Nat) : State.reset.partition part = Partition.empty := rfl

/-- x0 reads 0 by R85, every other register because none is listed. -/
@[simp] theorem Regs.getX_empty (n : Nat) : Regs.empty.getX n = 0 := by
  by_cases h : n = 0
  · simp [Regs.getX, h]
  · simp [Regs.getX, h, Regs.empty, SMap.get]

/-- Of the predicates only p0, which has no bit of its own, reads true (R85). -/
@[simp] theorem Regs.getP_empty (n : Nat) : Regs.empty.getP n = decide (n = 0) := by
  simp [Regs.getP, Regs.empty]

/-- Settles O59: nothing is listed in the reset state, so every register reads as its default. -/
theorem resetLeavesABootingPackage : Obligations.ResetLeavesABootingPackage := by
  refine ⟨rfl, rfl, rfl, rfl, rfl, fun part => ?_, fun core plat n => ?_⟩
  · rw [State.reset_partition]; decide
  · rw [State.reset_ctx]
    exact ⟨rfl, Regs.getX_empty n, rfl, rfl, rfl, rfl, Regs.getP_empty n⟩

/-! ### What each step of boot, a device reset and an alarm lead to -/

section
variable {s : State} {ok0 ok1 : Bool} {d0 d1 : BitVec 256} {fail : BitVec 46}

theorem exec_powerOn : exec (.powerOn ok0 ok1 d0 d1 fail) s = execPowerOn ok0 ok1 d0 d1 fail s := rfl
theorem exec_sensorAlarm : exec .sensorAlarm s = execSensorAlarm s := rfl

/-- In BOOT with an intact slot: SELFTEST, with the measurement of the first one (R352). -/
theorem exec_powerOn_intact (hb : s.hub.mbstate = 0) (hok : ok0 = true ∨ ok1 = true) :
    exec (.powerOn ok0 ok1 d0 d1 fail) s = .next { s with hub := { s.hub with
      boots := s.hub.boots + 1, mbstate := 1, firmware := if ok0 then d0 else d1 } } := by
  have hn : (!ok0 && !ok1) = false := by rcases hok with rfl | rfl <;> simp
  simp only [exec_powerOn, execPowerOn, if_pos hb, hn, Bool.false_eq_true, if_false]

/-- In BOOT with no intact slot: the safe state (R352, R354). -/
theorem exec_powerOn_noFirmware (hb : s.hub.mbstate = 0) :
    exec (.powerOn false false d0 d1 fail) s = .next { s with hub := { s.hub with
      boots := s.hub.boots + 1, mbstate := 3, mbcause := 1, linkUp := true } } := by
  simp only [exec_powerOn, execPowerOn, if_pos hb, Bool.not_false, Bool.and_self, if_true]

/-- The self-test of a package whose every block passes (R353). -/
theorem exec_powerOn_passed (ht : s.hub.mbstate = 1) :
    exec (.powerOn ok0 ok1 d0 d1 0) s = .next { s.zeroSrams with
      now := 0, functions := [], partitions := []
      hub := { Hub.empty with
        boots := s.hub.boots, firmware := s.hub.firmware, mbstate := 2, log := s.hub.log, eccS1 := s.hub.eccS1,
        eccS2 := s.hub.eccS2, eccS3 := s.hub.eccS3, eccHbm := s.hub.eccHbm, integHbm := s.hub.integHbm } } := by
  have hb : s.hub.mbstate ≠ 0 := by omega
  simp only [exec_powerOn, execPowerOn, if_neg hb, if_pos ht, bne_self_eq_false, Bool.false_eq_true, if_false]

/-- The self-test of a package with a failing block (R353, R354). -/
theorem exec_powerOn_failed (ht : s.hub.mbstate = 1) (hf : fail ≠ 0) :
    exec (.powerOn ok0 ok1 d0 d1 fail) s = .next { s.zeroSrams with
      hub := { s.hub with mbstate := 3, mbcause := 2, mbfail := fail, linkUp := true } } := by
  have hb : s.hub.mbstate ≠ 0 := by omega
  simp only [exec_powerOn, execPowerOn, if_neg hb, if_pos ht, bne_iff_ne.2 hf, if_true]

/-- A sensor alarm, unless the package is in the safe state or an alarm has been raised before (R347, R354). -/
theorem exec_sensorAlarm_live (h3 : s.hub.mbstate ≠ 3) (h4 : s.hub.mbstate ≠ 4) :
    exec .sensorAlarm s = .next { s with
      keys := { KeyStore.empty with erasures := s.keys.erasures + 1 }
      partitions := s.partitions.map (fun p => (p.1, { p.2 with slots := [] }))
      cores := [], clusters := [], dies := [], arrivals := [], reports := [], joins := [], collectives := []
      launches := [], commands := [], tablets := [], fullSince := [], irqs := []
      hub := { s.hub with mbstate := 4, mbcause := 3, linkUp := true } } := by
  simp only [exec_sensorAlarm, execSensorAlarm, if_neg h3, if_neg h4]

end

/-- Settles O51: each step leads to the one state that its branch names; what survives of memory is `State.byte_keepStacks`. -/
theorem deviceBootsAndResets : Obligations.DeviceBootsAndResets := by
  intro s ok0 ok1 d0 d1 fail
  have kept := State.byte_keepStacks s
  refine ⟨fun hb => ⟨fun hok => ?intact, ?noFirmware⟩, fun ht => ⟨?passed, fun hf => ?failed⟩, ?reset, fun h3 h4 => ?alarm⟩
  case intact => exact ⟨_, exec_powerOn_intact hb hok, rfl, rfl, rfl, rfl⟩
  case noFirmware =>
    rintro rfl rfl
    exact ⟨_, exec_powerOn_noFirmware hb, rfl, rfl, rfl⟩
  case passed =>
    rintro rfl
    exact ⟨_, exec_powerOn_passed ht, rfl, rfl, ⟨kept, rfl, rfl, rfl⟩, rfl, rfl, rfl, rfl, rfl, rfl⟩
  case failed => exact ⟨_, exec_powerOn_failed ht hf, rfl, rfl, rfl, kept, rfl, rfl, rfl⟩
  case reset => exact ⟨_, rfl, ⟨kept, rfl, rfl, rfl⟩, rfl, rfl, rfl, rfl, rfl, rfl⟩
  case alarm => exact ⟨_, exec_sensorAlarm_live h3 h4, rfl, rfl, rfl, rfl, rfl, rfl⟩

end Sys2Proof.Machine
end

section
/-! ## Bundles that hold one slot instruction (R70 to R72, R115) -/
namespace Sys2Proof.Laws.RoundTrip

/-- The round trip of every instruction, from the lemma of its constructor. -/
theorem statement (i : Instr) : Statement i := by
  cases i with
  | nop => exact nop
  | br => apply br | brx => apply brx | call => apply call | callx => apply callx | ret => apply ret
  | halt => apply halt | yield => apply yield | park => apply park | tret => apply tret
  | axleave => apply axleave | loop => apply loop | loopi => apply loopi | trap => apply trap
  | svc => apply svc | fence => apply fence | drain => apply drain | barc => apply barc
  | axenter => apply axenter | getc => apply getc | setc => apply setc | setci => apply setci
  | add => apply add | sub => apply sub | addi => apply addi | mul => apply mul | mulh => apply mulh
  | mulhu => apply mulhu | div => apply div | divu => apply divu | rem => apply rem
  | remu => apply remu | and => apply and | or => apply or | xor => apply xor | andi => apply andi
  | ori => apply ori | xori => apply xori | shl => apply shl | shr => apply shr | sra => apply sra
  | shli => apply shli | shri => apply shri | srai => apply srai | min => apply min | max => apply max
  | minu => apply minu | maxu => apply maxu | clz => apply clz | popc => apply popc | li => apply li
  | lih => apply lih | sel => apply sel | cmpeq => apply cmpeq | cmpne => apply cmpne
  | cmplt => apply cmplt | cmpltu => apply cmpltu | cmple => apply cmple | cmpleu => apply cmpleu
  | cmpeqi => apply cmpeqi | cmplti => apply cmplti | pand => apply pand | por => apply por
  | pxor => apply pxor | pnot => apply pnot | movxa => apply movxa | movax => apply movax
  | aadd => apply aadd | aaddi => apply aaddi | ali => apply ali | vld => apply vld | vst => apply vst
  | vlds => apply vlds | vsts => apply vsts | vldr => apply vldr | vstr => apply vstr
  | vgath => apply vgath | vscat => apply vscat | ldx => apply ldx | stx => apply stx
  | mld => apply mld | mst => apply mst | tld => apply tld | tst => apply tst | scopy => apply scopy
  | winset => apply winset | amoadd => apply amoadd | amoand => apply amoand | amoor => apply amoor
  | amomin => apply amomin | amomax => apply amomax | amoswap => apply amoswap | amocas => apply amocas
  | vadd => apply vadd | vsub => apply vsub | vmul => apply vmul | vfma => apply vfma
  | vfms => apply vfms | vmin => apply vmin | vmax => apply vmax | vcmpeq => apply vcmpeq
  | vcmplt => apply vcmplt | vcmple => apply vcmple | vperm => apply vperm | vrot => apply vrot
  | vshl => apply vshl | vshr => apply vshr | vsra => apply vsra | vand => apply vand
  | vor => apply vor | vxor => apply vxor | vnot => apply vnot | vmov => apply vmov
  | vsel => apply vsel | vabs => apply vabs | vneg => apply vneg | vcvt => apply vcvt
  | vbcst => apply vbcst | vinsx => apply vinsx | vextx => apply vextx | viota => apply viota
  | vradd => apply vradd | vrmax => apply vrmax | vrmin => apply vrmin | vscan => apply vscan
  | vexp => apply vexp | vlog => apply vlog | vrcp => apply vrcp | vrsq => apply vrsq
  | vtanh => apply vtanh | vsigm => apply vsigm | madd => apply madd | msub => apply msub
  | mmul => apply mmul | maff => apply maff | msqr => apply msqr | mmov => apply mmov
  | mrelu => apply mrelu | mexp => apply mexp | mform => apply mform | mcoll => apply mcoll
  | tmma => apply tmma | tmmb => apply tmmb | tmmm => apply tmmm | tzero => apply tzero
  | tdrain => apply tdrain | tfill => apply tfill | chstart => apply chstart | chstop => apply chstop
  | ringcfg => apply ringcfg | awaitf => apply awaitf | rels => apply rels | ringrd => apply ringrd
  | ysort => apply ysort | ygath => apply ygath | ycomb => apply ycomb | xa2av => apply xa2av
  | xar => apply xar | xag => apply xag | xrun => apply xrun | sendh => apply sendh
  | sealL => apply sealL | openL => apply openL | rqseed => apply rqseed | axinv => apply axinv
  | axqry => apply axqry | boundInstruction => apply boundInstruction
  | _ => exact nofun
end Sys2Proof.Laws.RoundTrip

namespace Sys2Proof

/-- The width of a slot in a bundle (R70). -/
def SlotId.width : SlotId → Nat
  | .c | .x => 48
  | .a => 64
  | .v0 | .v1 | .t | .e => 80

/-! ### The bits of an encoding lie within its slot's width -/

/-- The slot bits from n on are 0. -/
def Below (n : Nat) (raw : SlotBits) : Prop := raw.toNat < 2 ^ n

theorem below_80 (raw : SlotBits) : Below 80 raw := raw.isLt

theorem below_or {n : Nat} {a b : SlotBits} : Below n (a ||| b) ↔ Below n a ∧ Below n b := by
  simp only [Below, BitVec.toNat_or]
  exact ⟨fun h => ⟨Nat.lt_of_le_of_lt Nat.left_le_or h, Nat.lt_of_le_of_lt Nat.right_le_or h⟩, fun h => Nat.or_lt_two_pow h.1 h.2⟩

theorem below_put {n m lo : Nat} {v : BitVec m} (h : v.toNat < 2 ^ (n - lo)) (hlo : lo ≤ n) : Below n (put lo v) := by
  have : v.toNat <<< lo < 2 ^ n := by
    rw [Nat.shiftLeft_eq, ← Nat.sub_add_cancel hlo, Nat.pow_add]
    exact Nat.mul_lt_mul_of_pos_right h (Nat.two_pow_pos lo)
  simp only [Below, put, BitVec.toNat_shiftLeft, BitVec.toNat_setWidth]
  refine Nat.lt_of_le_of_lt (Nat.mod_le _ _) (Nat.lt_of_le_of_lt ?_ this)
  rw [Nat.shiftLeft_eq, Nat.shiftLeft_eq]
  exact Nat.mul_le_mul_right _ (Nat.mod_le _ _)

/-- A field that ends at or before bit n. -/
theorem below_field {n m : Nat} (lo : Nat) (v : BitVec m) (h : lo + m ≤ n) : Below n (put lo v) :=
  below_put (Nat.lt_of_lt_of_le v.isLt (Nat.pow_le_pow_right (by decide) (by omega))) (by omega)

theorem below_head {n : Nat} (op : BitVec 8) (g : Guard) (h : 13 ≤ n) : Below n (head op g) :=
  below_or.2 ⟨below_or.2 ⟨below_field 0 op (by omega), below_field 8 g.pg (by omega)⟩, below_field 12 _ (by omega)⟩

theorem below_zero (n : Nat) : Below n 0 := Nat.two_pow_pos n

theorem encode_below_c {i : Instr} (hs : i.slot = some .c) : Below 48 (encode i) := by
  cases i
  case boundInstruction g cls code raw => cases cls <;> cases hs
  all_goals cases hs
  all_goals delta encode; dsimp only; simp only [below_zero, below_or, below_head, below_field, Nat.reduceAdd, Nat.reduceLeDiff, and_self]

theorem encode_below_x {i : Instr} (hs : i.slot = some .x) : Below 48 (encode i) := by
  cases i
  case boundInstruction g cls code raw => cases cls <;> cases hs
  all_goals cases hs
  all_goals delta encode; dsimp only; simp only [below_or, below_head, below_field, Nat.reduceAdd, Nat.reduceLeDiff, and_self]

theorem encode_below_a {i : Instr} (hs : i.slot = some .a) (hw : i.wf = true) : Below 64 (encode i) := by
  cases i
  case boundInstruction g cls code raw =>
    cases cls <;> cases hs
    have hr : raw.toNat < 2 ^ (64 - 14) := of_decide_eq_true (show decide (raw.toNat < 2 ^ 50) = true from hw)
    delta encode; dsimp only; simp only [below_or, putB, below_put hr, below_field, Nat.reduceAdd, Nat.reduceLeDiff, and_self]
  all_goals cases hs
  all_goals delta encode; dsimp only; simp only [below_or, below_head, below_field, Nat.reduceAdd, Nat.reduceLeDiff, and_self]

theorem encode_below {i : Instr} {s : SlotId} (hs : i.slot = some s) (hw : i.wf = true) : Below s.width (encode i) := by
  cases s with
  | c => exact encode_below_c hs
  | x => exact encode_below_x hs
  | a => exact encode_below_a hs hw
  | v0 | v1 | t | e => exact below_80 _

/-! ### The fields of a bundle: its header and one slot (R70) -/

/-- A word placed at bit b reads back there. -/
theorem extract_placed {b n : Nat} {raw : SlotBits} (h : Below n raw) (hb : b + n ≤ 512) :
    ((raw.setWidth 512 <<< b).extractLsb' b n).setWidth 80 = raw := by
  apply BitVec.eq_of_getLsbD_eq
  intro i hi
  have hn : ¬ i < n → raw.getLsbD i = false := fun hi =>
    Nat.testBit_lt_two_pow (Nat.lt_of_lt_of_le h (Nat.pow_le_pow_right (by decide) (by omega)))
  by_cases hin : i < n
  · simp [hi, hin, show b + i < 512 by omega]
  · simp [hin, hn hin]

/-- Beside the word nothing stands. -/
theorem extract_beside {b n b' n' : Nat} {raw : SlotBits} (h : Below n raw) (hb : b + n ≤ b' ∨ b' + n' ≤ b) :
    (raw.setWidth 512 <<< b).extractLsb' b' n' = 0#n' := by
  apply BitVec.eq_of_getLsbD_eq
  intro i hi
  rcases hb with hb | hb
  · have : raw.getLsbD (b' + i - b) = false :=
      Nat.testBit_lt_two_pow (Nat.lt_of_lt_of_le h (Nat.pow_le_pow_right (by decide) (by omega)))
    simp [this]
  · simp [show b' + i < b by omega]

theorem extract_header {h : BitVec 32} {b n : Nat} (hb : 32 ≤ b) : (h.setWidth 512).extractLsb' b n = 0#n := by
  apply BitVec.eq_of_getLsbD_eq
  intro i hi
  simp [BitVec.getLsbD_of_ge h (b + i) (by omega)]

/-- The bits of a bundle that holds one instruction. -/
theorem encodeBundle_alone {hdr : Header} {s : SlotId} {i : Instr} :
    encodeBundle ⟨hdr, [(s, i)]⟩ = (writeHeader hdr).setWidth 512 ||| ((encode i).setWidth 512 <<< s.base) := rfl

/-- Its slots: the instruction's own, and six empty ones. -/
theorem slot_encodeBundle {hdr : Header} {s : SlotId} {i : Instr} (h : Below s.width (encode i)) (u : SlotId) :
    ((encodeBundle ⟨hdr, [(s, i)]⟩).extractLsb' u.base u.width).setWidth 80 = if u = s then encode i else 0 := by
  have hu : 32 ≤ u.base ∧ u.base + u.width ≤ 512 := by cases u <;> decide
  rw [encodeBundle_alone, BitVec.extractLsb'_or, extract_header hu.1, BitVec.zero_or]
  split
  case isTrue hus => subst hus; exact extract_placed h hu.2
  case isFalse hus =>
    rw [extract_beside h (by cases s <;> cases u <;> first | exact absurd rfl hus | decide)]
    exact BitVec.setWidth_zero ..

theorem header_encodeBundle {hdr : Header} {s : SlotId} {i : Instr} (h : Below s.width (encode i)) :
    (encodeBundle ⟨hdr, [(s, i)]⟩).extractLsb' 0 32 = writeHeader hdr := by
  rw [encodeBundle_alone, BitVec.extractLsb'_or, extract_beside h (by cases s <;> decide), BitVec.or_zero]
  apply BitVec.eq_of_getLsbD_eq
  intro i hi
  simp [hi, show i < 512 by omega]

/-! ### The header (R72, R74) -/

/-- The allotments fit their fields. -/
def Header.Fits (h : Header) : Prop := h.pe < 2 ∧ h.pt < 2 ∧ h.pa < 3 ∧ h.pv1 < 4 ∧ h.pv0 < 4

theorem readHeader_writeHeader {h : Header} (hf : h.Fits) : readHeader (writeHeader h) = h := by
  obtain ⟨pe, pt, pa, pv1, pv0, rq, sp⟩ := h
  obtain ⟨hpe, hpt, hpa, hpv1, hpv0⟩ := hf
  simp only at hpe hpt hpa hpv1 hpv0
  have hrq := Bool.toNat_lt rq
  have hsp := Bool.toNat_lt sp
  have bit (b : Bool) (n : Nat) (hn : n = b.toNat) : decide (n = 1) = b := by subst hn; cases b <;> rfl
  simp only [readHeader, writeHeader, BitVec.extractLsb'_toNat, BitVec.toNat_ofNat, Nat.shiftRight_eq_div_pow,
    BitVec.getLsbD_ofNat, Nat.testBit_eq_decide_div_mod_eq, Header.mk.injEq]
  refine ⟨by omega, by omega, by omega, by omega, by omega, ?_, ?_⟩
  · simpa using bit rq _ (by omega)
  · simpa using bit sp _ (by omega)

theorem headerBad_writeHeader {h : Header} (hf : h.Fits) : headerBad (writeHeader h) = [] := by
  obtain ⟨hpe, hpt, hpa, hpv1, hpv0⟩ := hf
  have hrq := Bool.toNat_lt h.rq
  have hsp := Bool.toNat_lt h.sp
  simp only [headerBad, writeHeader, BitVec.extractLsb'_toNat, BitVec.toNat_ofNat, Nat.shiftRight_eq_div_pow]
  rw [if_pos (by omega), if_neg (by omega), List.append_nil]

/-- The vector operands of a slot fit the allotment that its class has (R72, R74). -/
theorem vectorReads_le_slot {i : Instr} {s : SlotId} (hs : i.slot = some s) :
    (s = .e ∨ s = .t → i.vectorReads ≤ 1) ∧ (s = .a → i.vectorReads ≤ 2) := by
  unfold Instr.vectorReads
  split <;> first
    | exact ⟨fun _ => by decide, fun _ => by decide⟩
    | (constructor
       · intro h; exfalso; rcases h with rfl | rfl <;> cases hs
       · intro h; first | decide | (exfalso; subst h; cases hs))
    | (constructor <;> intro _ <;> split <;> decide)

theorem aloneHeader_fits {i : Instr} {s : SlotId} (hs : i.slot = some s) : (aloneHeader s i).Fits := by
  obtain ⟨h1, h2⟩ := vectorReads_le_slot hs
  have h3 := Machine.vectorReads_le i
  cases s <;> simp_all [Header.Fits, aloneHeader] <;> omega

theorem routineBad_one (p : SlotId × Instr) : routineBad [p] = [] := by
  cases hr : p.2.runsRoutine <;> cases ha : p.2.isAxenter <;> simp [routineBad, hr, ha]

/-! ### The bundle -/

theorem slotPlaces_eq : slotPlaces = [.c, .x, .a, .v0, .v1, .t, .e].map (fun s => (s, s.base, s.width)) := rfl

theorem decodeSlot_zero (s : SlotId) : decodeSlot s 0 = .empty := by simp [decodeSlot]

theorem readBundle_alone {i : Instr} {s : SlotId} (hs : i.slot = some s) (hn : i ≠ .nop) (hw : i.wf = true) :
    readBundle (encodeBundle ⟨aloneHeader s i, [(s, i)]⟩) = ⟨⟨aloneHeader s i, [(s, i)]⟩, []⟩ := by
  have hb := encode_below hs hw
  have hf := aloneHeader_fits hs
  have hd := (Laws.RoundTrip.statement i s hs hn hw).1
  have hrq : (!(aloneHeader s i).rq && i.needsRq) = false := by
    cases h : i.needsRq <;> simp [aloneHeader, h]
  have read (u : SlotId) : decodeSlot u (((encodeBundle ⟨aloneHeader s i, [(s, i)]⟩).extractLsb' u.base u.width).setWidth 80) =
      if u = s then .instr i [] else .empty := by
    rw [slot_encodeBundle hb]
    split
    case isTrue h => rw [h, hd]
    case isFalse => exact decodeSlot_zero u
  simp only [readBundle, slotPlaces_eq, List.map_map, Function.comp_def, read, header_encodeBundle hb,
    readHeader_writeHeader hf, headerBad_writeHeader hf]
  cases s <;> simp [routineBad_one, hrq]

/-- Settles O57: the header and the seven slots of the bundle read back one by one (`header_encodeBundle`,
`slot_encodeBundle`), the instruction's own slot by its round trip. -/
theorem decodingInvertsEncoding : Obligations.DecodingInvertsEncoding := by
  intro i hslot hw
  obtain ⟨s, hs⟩ := Option.isSome_iff_exists.1 hslot
  by_cases hn : i = .nop
  · subst hn; decide +kernel
  · rw [Machine.alone_eq hs hn]
    exact readBundle_alone hs hn hw

end Sys2Proof
end

section
/-! ## Words of the spec's encodings (R71, R99 to R106, R432, R439) -/
namespace Sys2Proof

/-- A word that is the encoding of a well-formed instruction decodes to it in the instruction's slot. -/
theorem decodeSlot_word {i : Instr} {s : SlotId} {w : SlotBits} (hs : i.slot = some s) (hn : i ≠ .nop) (hw : i.wf = true)
    (he : encode i = w) : decodeSlot s w = .instr i [] := by
  rw [← he]
  exact (Laws.RoundTrip.statement i s hs hn hw).1

/-- In slot V1 a V instruction has the encoding of slot V0. -/
theorem decodeSlot_word_v1 {i : Instr} {w : SlotBits} (hs : i.slot = some .v0) (hn : i ≠ .nop) (hw : i.wf = true)
    (he : encode i = w) : decodeSlot .v1 w = .instr i [] := by
  rw [decodeSlot_v1]
  exact decodeSlot_word hs hn hw he

/-- Settles O56: each word is the encoding of its instruction; the empty slot, the one ILLEGAL slot and the NOP bundle are
evaluated. -/
theorem wordsDecodeToTheirInstructions : Obligations.WordsDecodeToTheirInstructions := by
  refine ⟨decodeSlot_word rfl nofun rfl ?add, decodeSlot_word rfl nofun rfl ?sel, decodeSlot_word rfl nofun rfl ?trap,
    decodeSlot_word rfl nofun rfl ?ldx, decodeSlot_word rfl nofun rfl ?vadd, decodeSlot_word_v1 rfl nofun rfl ?vadd1,
    decodeSlot_word rfl nofun rfl ?bound, decodeSlot_word rfl nofun rfl ?axqry, decodeSlot_word rfl nofun rfl ?tmma,
    decodeSlot_zero .x, ?reserved, ?nop⟩
  all_goals decide +kernel

end Sys2Proof
end

section
/-! ## Compares, predicate logic, constants, moves and address arithmetic (R358 to R361, R381, R393, R408, R416) -/
namespace Sys2Proof.Machine

/-- p0 reads true (R85). -/
theorem pAt_zero (s : State) (core plat : Nat) : s.pAt core plat 0 = true := rfl

/-- A sign-extended immediate of 16 bits has the immediate's value. -/
theorem toInt_imm16 (imm : BitVec 16) : (imm.signExtend 64).toInt = imm.toInt :=
  BitVec.toInt_signExtend_of_le (by decide)

/-- The word of an address and a pitch field: the address modulo 2^48 below the pitch (R87). -/
theorem addrWord_eq (addr : Int) (pitch : BitVec 16) : addrWord addr pitch.toNat = pitch ++ BitVec.ofInt 48 addr := by
  apply BitVec.eq_of_toNat_eq
  have hp := pitch.isLt
  have ha := (BitVec.ofInt 48 addr).isLt
  have hw : wrap addr 48 = (BitVec.ofInt 48 addr).toNat := by simp [wrap]
  rw [addrWord, BitVec.toNat_append, hw, BitVec.toNat_ofNat, ← Nat.shiftLeft_add_eq_or_of_lt ha, Nat.shiftLeft_eq]
  omega

/-- ALI's immediate counts 8 bytes, so that its address fits 48 bits and the pitch is 0 (R361). -/
theorem aliWord_eq (imm : BitVec 45) : BitVec.ofNat 64 (imm.toNat * 8) = 0#16 ++ BitVec.ofInt 48 (imm.toNat * 8 : Int) := by
  have hi := imm.isLt
  have hw : wrap ((imm.toNat : Int) * 8) 48 = imm.toNat * 8 := by rw [wrap]; omega
  rw [← addrWord_eq, addrWord, hw, BitVec.toNat_zero, Nat.zero_mul, Nat.add_zero]

/-- Settles O4: each slot sends its value on its way for the next cycle (`exec_sends`), read from the registers of an undisturbed
context. -/
theorem comparesConstantsAndMovesLand : Obligations.ComparesConstantsAndMovesLand := by
  refine ⟨fun s core plat g pd pa pb xa xb imm h => ?_, fun s core plat g xd xa ad ab i28 i29 i45 h => ?_⟩
  all_goals
    have hx := rdX_calm h.calm
    have hp := rdP_calm h.calm
    have ha := rdA_calm h.calm
  · refine ⟨exec_sends h rfl rfl rfl (fits_of rfl nofun nofun nofun nofun) rfl (congrArg _ ?eq),
      exec_sends h rfl rfl rfl (fits_of rfl nofun nofun nofun nofun) rfl (congrArg _ ?ne),
      exec_sends h rfl rfl rfl (fits_of rfl nofun nofun nofun nofun) rfl (congrArg _ ?lt),
      exec_sends h rfl rfl rfl (fits_of rfl nofun nofun nofun nofun) rfl (congrArg _ ?ltu),
      exec_sends h rfl rfl rfl (fits_of rfl nofun nofun nofun nofun) rfl (congrArg _ ?le),
      exec_sends h rfl rfl rfl (fits_of rfl nofun nofun nofun nofun) rfl (congrArg _ ?leu),
      exec_sends h rfl rfl rfl (fits_of rfl nofun nofun nofun nofun) rfl (congrArg _ ?eqi),
      exec_sends h rfl rfl rfl (fits_of rfl nofun nofun nofun nofun) rfl (congrArg _ ?lti),
      exec_sends h rfl rfl rfl (fits_of rfl nofun nofun nofun nofun) rfl (congrArg _ ?and),
      exec_sends h rfl rfl rfl (fits_of rfl nofun nofun nofun nofun) rfl (congrArg _ ?or),
      exec_sends h rfl rfl rfl (fits_of rfl nofun nofun nofun nofun) rfl (congrArg _ ?xor),
      exec_sends h rfl rfl rfl (fits_of rfl nofun nofun nofun nofun) rfl (congrArg _ ?not),
      pAt_zero s core plat, rfl⟩
    all_goals simp only [loneEnv_c, hx, hp, ← BitVec.toInt_inj, toInt_imm16, ne_eq]
  · refine ⟨exec_sends h rfl rfl rfl (fits_of rfl nofun nofun nofun nofun) rfl rfl,
      exec_sends h rfl rfl rfl (fits_of rfl nofun nofun nofun nofun) rfl (congrArg _ ?lih),
      exec_sends h rfl rfl rfl (fits_of rfl nofun nofun nofun nofun) rfl (congrArg _ ?movax),
      exec_sends h rfl rfl rfl (fits_of rfl nofun nofun nofun nofun) rfl (congrArg _ ?movxa),
      exec_sends h rfl rfl rfl (fits_of rfl nofun nofun nofun nofun) rfl (congrArg _ ?aadd),
      exec_sends h rfl rfl rfl (fits_of rfl nofun nofun nofun nofun) rfl (congrArg _ ?aaddi),
      exec_sends h rfl rfl rfl (fits_of rfl nofun nofun nofun nofun) rfl (congrArg _ (aliWord_eq i45))⟩
    case lih => rw [loneEnv_c, hx]; rfl
    case movax => rw [loneEnv_c, ha]
    case movxa => rw [loneEnv_c, hx]
    case aadd => rw [loneEnv_c, hx, ha]; exact addrWord_eq _ _
    case aaddi => rw [loneEnv_c, ha]; exact addrWord_eq _ _

end Sys2Proof.Machine
end

section
/-! ## A slot instruction whose guard is false (R75, R77, R94) -/
namespace Sys2Proof.Machine

/-- The checks of R99 on a lone TRET that is guarded off: it needs no handler to be running (R314). -/
theorem encoding_ok_tret_off {c : Ctx} {g : Guard} {sem : SlotSem} (hf : c.flights = []) (hl : c.flow.loops = [])
    (hx : c.flow.xfer = none) (now : Nat) (reads : Part → List RegId) :
    encodingFault c now (aloneHeader .c (.tret g)) [⟨.c, .tret g, false, sem⟩] [] reads = none := by
  have hv : (Instr.tret g).vectorReads = 0 := rfl
  have hr : (Instr.tret g).reads = [] := rfl
  have hw : c.writes (.tret g) = [] := rfl
  have hp : ∀ b, c.portWrites b (.tret g) = [] := fun b => rfl
  have ho : (Instr.tret g).loopOffset = none := rfl
  have hd : (Instr.tret g).needsRqDyn = false := rfl
  have hg : (Instr.tret g).guard = some g := rfl
  have hb : (aloneHeader .c (.tret g)) = ⟨0, 0, 0, 0, 0, false, false⟩ := rfl
  have h8 : (List.range 8).find? (fun _ => false) = none := rfl
  simp [encodingFault, illegalOf, dynIllegal, unboundOf, delaybrOf, dupdestOf, portOf, shadowOf, inFlight_none hf, Header.allot,
    hl, hx, hv, hr, hw, hp, ho, hd, hg, hb, h8]

/-- The checks of R99 on a lone slot instruction that is guarded off. -/
theorem encoding_ok_off {c : Ctx} {i : Instr} {sl : SlotId} {sem : SlotSem} (hf : c.flights = []) (hl : c.flow.loops = [])
    (hx : c.flow.xfer = none) (hs : i.slot = some sl) (hn : i ≠ .nop)
    (hb : ∀ g cls code raw, i = .boundInstruction g cls code raw → (c.binding cls code).isSome)
    (ho : ∀ o, i.loopOffset = some o → 1 ≤ o) (now : Nat) (reads : Part → List RegId) :
    encodingFault c now (aloneHeader sl i) [⟨sl, i, false, sem⟩] [] reads = none := by
  by_cases ht : ∃ g, i = .tret g
  · obtain ⟨g, rfl⟩ := ht
    cases hs
    exact encoding_ok_tret_off hf hl hx now reads
  · exact encoding_ok hf hl hx (fits_of hs hn hb ho (fun g hg => absurd ⟨g, hg⟩ ht)) now reads

/-- Only a BARC that is marked has something to unmark (R374). -/
theorem unmark_eq {t : State} {core plat : Nat} {i : Instr} (h : ∀ g xa, i = .barc g xa → t.marked core plat = false) :
    t.unmark core plat i = t := by
  unfold State.unmark
  split
  · rw [if_neg (by rw [h _ _ rfl]; exact Bool.false_ne_true)]
  · rfl

theorem acting_marked (s : State) (core plat : Nat) (i : Instr) :
    (s.acting core plat i).marked core plat = s.marked core plat := by
  simp only [State.marked, acting_ctx]
  rfl

/-- The context that a lone guarded-off instruction leaves to the end of its bundle: the ports of its writes are counted (R75),
and the delay bundles of a transfer run (R94). -/
def Ctx.skipped (c : Ctx) (i : Instr) (now : Nat) (sl : SlotId) : Ctx :=
  { c.popped i with
    flights := portFlights c now ⟨sl, i, false, plain (fun _ s => .done s)⟩
    flow := { c.flow with xfer := if i.isTransfer then some ⟨0, false, 3, false⟩ else none } }

theorem runPart_off {s : State} {core plat : Nat} {i : Instr} {sl : SlotId} {sem : SlotSem} {hdr : Header} {word : Option Vec}
    (hc : Calm s core plat) (hm : ∀ g xa, i = .barc g xa → s.marked core plat = false) :
    runPart core plat hdr word (s.begun core) (s.acting core plat i, []) ⟨sl, i, false, sem⟩ =
      ((s.begun core).setCtx core plat ((s.ctx core plat).skipped i s.now sl), []) := by
  have hu := unmark_eq (t := s.acting core plat i) (fun g xa h => (acting_marked s core plat i).trans (hm g xa h))
  have hfl : ((s.ctx core plat).popped i).flights = [] := hc.flights
  have hx : ((s.ctx core plat).popped i).flow.xfer = none := hc.xfer
  simp only [runPart, Bool.not_false, if_true, hu, acting_ctx, acting_setCtx, State.begun_ctx, State.begun_now, hfl, hx,
    List.nil_append]
  rfl

/-- The end of its bundle. -/
theorem skipped_complete {s : State} {core plat : Nat} (hc : Calm s core plat) (i : Instr) (now : Nat) (sl : SlotId) :
    ((s.ctx core plat).skipped i now sl).flow.complete = { (s.ctx core plat).flow with
      pc := (s.ctx core plat).flow.pc + 1, xfer := if i.isTransfer then some ⟨0, false, 2, false⟩ else none } := by
  have hf : ((s.ctx core plat).skipped i now sl).flow = { (s.ctx core plat).flow with
    xfer := if i.isTransfer then some ⟨0, false, 3, false⟩ else none } := rfl
  rw [hf]
  cases i.isTransfer
  · exact complete_plain hc.loops rfl hc.after
  · exact complete_xfer rfl hc.after

theorem issueAlone_off {s : State} {core plat : Nat} {i : Instr} {sl : SlotId} {g : Guard} {sem : SlotSem}
    (hc : Calm s core plat) (hg : i.guard = some g) (hoff : (s.ctx core plat).guard g = false) (hs : i.slot = some sl)
    (hn : i ≠ .nop) (hq : i.pops = true → (s.ctx core plat).queue ≠ [])
    (hb : ∀ g cls code raw, i = .boundInstruction g cls code raw → ((s.ctx core plat).binding cls code).isSome)
    (ho : ∀ o, i.loopOffset = some o → 1 ≤ o) (hm : ∀ g xa, i = .barc g xa → s.marked core plat = false) :
    issueAlone i sem s = .next (((s.begun core).setCtx core plat ((s.ctx core plat).skipped i s.now sl)).closed core plat s.now) := by
  have hpend : pendingHits ((s.begun core).ctx core plat) [⟨sl, i, false, sem⟩] = [] := by
    rw [State.begun_ctx]; exact pending_none hc.pending _
  have hrq : ((aloneHeader sl i).rq && true && ((s.begun core).ctx core plat).queue.isEmpty) = false := by
    rw [State.begun_ctx]
    cases h : i.pops with
    | false => simp_all [aloneHeader, Instr.pops]
    | true => simp [hq h]
  have henc : encodingFault ((s.begun core).ctx core plat) (s.begun core).now (aloneHeader sl i) [⟨sl, i, false, sem⟩] []
      (partReads ((s.begun core).ctx core plat)) = none := by
    rw [State.begun_ctx]
    exact encoding_ok_off hc.flights hc.loops hc.xfer hs hn hb ho _ _
  have hword : popWord ((s.begun core).ctx core plat) (aloneHeader sl i).rq none =
      ((s.ctx core plat).popped i, ((s.ctx core plat).popped i).word) := by
    rw [State.begun_ctx]; exact popWord_alone _ _ _
  rw [alone_attempt hc hg hs hn, hoff, issueParts_ok hpend hrq henc rfl hword (runPart_off hc hm)
    (by simp [State.setCtx, State.begun, hc.routine]) rfl, State.begun_now]

/-- LOOP and LOOPI of a well-formed text have an offset of 1 or more (R95). -/
theorem loopOffset_pos {i : Instr} (hw : i.wf = true) (o : Int) (ho : i.loopOffset = some o) : 1 ≤ o := by
  unfold Instr.loopOffset at ho
  split at ho
  · cases ho; exact of_decide_eq_true hw
  · cases ho; exact of_decide_eq_true hw
  · cases ho

/-- The meaning of an instruction that has a guard is an attempt to issue it alone. -/
theorem exec_eq_issueAlone {i : Instr} {g : Guard} (hg : i.guard = some g) (s : State) :
    ∃ sem, exec i s = issueAlone i sem s := by
  cases i
  all_goals cases hg
  all_goals exact ⟨_, rfl⟩

/-- Settles O5: the bundle passes every check, its one part is off (`issueAlone_off`), and the flow of its context moves on
(`skipped_complete`). -/
theorem guardedOffInstructionsOnlyPass : Obligations.GuardedOffInstructionsOnlyPass := by
  intro s core plat i g sl h hg hs hw hq hb hm
  have hn : i ≠ .nop := by rintro rfl; cases hg
  have hm' : ∀ g' xa, i = .barc g' xa → s.marked core plat = false := by
    rintro g' xa rfl
    cases hg
    exact hm xa rfl
  have hb' : ∀ g' cls code raw, i = .boundInstruction g' cls code raw → ((s.ctx core plat).binding cls code).isSome := by
    rintro g' cls code raw rfl
    cases hg
    exact hb cls code raw rfl
  obtain ⟨sem, hx⟩ := exec_eq_issueAlone hg s
  have hafter : ((s.ctx core plat).skipped i s.now sl).flow.after = none := h.calm.after
  have hresume := h.calm.resume
  have hover := h.calm.override
  rw [hx, issueAlone_off h.calm hg h.off hs hn hq hb' (loopOffset_pos hw) hm', closed_setCtx hafter,
    skipped_complete h.calm]
  simp only [State.issued, Ctx.passed, Ctx.popped, Ctx.skipped, portFlights, ← hresume, ← hover]

end Sys2Proof.Machine
end

section
/-! ## NOP and the completion of a bundle (R94, R377, R394, R411) -/
namespace Sys2Proof.Machine

/-- The checks of R99 on a NOP bundle: it makes no transfer, so that a loop's end is no fault unless a transfer is pending (R96). -/
theorem encoding_ok_nop {c : Ctx} (h : c.flow.xfer = none ∨ ∀ l ∈ c.flow.loops, l.last ≠ c.flow.pc) (now : Nat)
    (reads : Part → List RegId) : encodingFault c now (aloneHeader .c .nop) [] [] reads = none := by
  have hd : delaybrOf c [] = none := by
    rcases h with h | h
    · simp [delaybrOf, h]
    · have hl : c.flow.loops.any (fun l => decide (l.last = c.flow.pc)) = false := by simpa using h
      cases hx : c.flow.xfer <;> simp [delaybrOf, hx, hl]
  have h8 : (List.range 8).find? (fun _ => false) = none := rfl
  have hb : aloneHeader .c .nop = ⟨0, 0, 0, 0, 0, false, false⟩ := rfl
  simp [encodingFault, illegalOf, dynIllegal, unboundOf, dupdestOf, portOf, shadowOf, hd, hb, h8]

/-- The attempt of a NOP bundle, down to its empty list of parts. -/
theorem nop_attempt {s : State} {core plat : Nat} (hq : Quiet s core plat) :
    exec .nop s = .next (issueParts core plat (aloneHeader .c .nop) [] [] none (s.begun core)) := by
  rw [show exec .nop s = issueAlone .nop (plain (fun _ s => .done s)) s from rfl]
  unfold issueAlone
  simp only [hq.focus, hq.running, hq.state, and_self, if_true]
  rw [attempt_ok hq.resume hq.inRange]
  rfl

/-- Its bundle passes every check and is closed. -/
theorem nop_closed {s : State} {core plat : Nat} (hq : Quiet s core plat)
    (h : (s.ctx core plat).flow.xfer = none ∨ ∀ l ∈ (s.ctx core plat).flow.loops, l.last ≠ (s.ctx core plat).flow.pc) :
    issueParts core plat (aloneHeader .c .nop) [] [] none (s.begun core) =
      (s.acting core plat .nop).closed core plat s.now := by
  have henc : encodingFault (s.ctx core plat) (s.begun core).now (aloneHeader .c .nop) [] []
    (partReads (s.ctx core plat)) = none := encoding_ok_nop h _ _
  have hrq : (aloneHeader .c .nop).rq = false := rfl
  have hw : popWord (s.ctx core plat) (aloneHeader .c .nop).rq none =
    ((s.ctx core plat).popped .nop, ((s.ctx core plat).popped .nop).word) := popWord_alone _ _ _
  have hc : (((s.begun core).setCtx core plat ((s.ctx core plat).popped .nop)).core core).routine = none := by
    simp [State.setCtx, State.begun, hq.routine]
  rw [hrq] at hw
  unfold issueParts
  simp only [pendingHits, List.flatMap_nil, List.append_nil, List.filter_nil, List.isEmpty_nil, Bool.not_true,
    Bool.false_eq_true, if_false, hrq, Bool.false_and, State.begun_ctx, henc, blockOf, List.findSome?_nil, hw, actOrder,
    List.foldl_nil, hc, Option.any_none]
  exact completeBundle_noSp _ _ _ _ _ _

/-- A NOP bundle leaves its context with its flow moved on, and does nothing else. -/
theorem exec_nop {s : State} {core plat : Nat} (hq : Quiet s core plat)
    (h : (s.ctx core plat).flow.xfer = none ∨ ∀ l ∈ (s.ctx core plat).flow.loops, l.last ≠ (s.ctx core plat).flow.pc) :
    exec .nop s = .next (s.issued core plat .nop (fun c => { c with flow := (s.ctx core plat).flow.complete })) := by
  have hafter : ((s.ctx core plat).popped .nop).flow.after = none := hq.after
  have hresume := hq.resume
  have hover := hq.override
  rw [nop_attempt hq, nop_closed hq h, State.acting, closed_setCtx hafter]
  simp only [State.issued, Ctx.passed, Ctx.popped, ← hresume, ← hover]

/-- Loops with no iteration left that end at the bundle are left, the innermost first (R394). -/
theorem loopNext_append {t : Nat} {inner : List LoopEntry} (h : ∀ d ∈ inner, d.last = t ∧ d.left = 0) (ls : List LoopEntry) :
    loopNext t (inner ++ ls) = loopNext t ls := by
  induction inner with
  | nil => rfl
  | cons d inner ih =>
    obtain ⟨hd, hi⟩ := List.forall_mem_cons.1 h
    rw [List.cons_append, loopNext, if_pos hd.1, if_neg (by omega), ih hi]

/-- The flow after a bundle, of which the transfer that is pending or the loops decide. -/
theorem complete_some {f : Flow} {x : Xfer} (hx : f.xfer = some x) :
    f.complete = { f.advance f.pc (some { x with left := x.left - 1 }) with after := none } := by
  rw [Flow.complete, hx]; rfl

theorem complete_none {f : Flow} (hx : f.xfer = none) :
    f.complete = { f with pc := (loopNext f.pc f.loops).1, loops := (loopNext f.pc f.loops).2, xfer := none, after := none } := by
  rw [Flow.complete, hx]; rfl

theorem complete_rets (f : Flow) : f.complete.rets = f.rets := by
  cases hx : f.xfer with
  | none => rw [complete_none hx]
  | some x =>
    rw [complete_some hx, Flow.advance]
    dsimp only
    split
    · split <;> rfl
    · rfl

/-- Settles O6: a NOP bundle leaves its context with its flow moved on (`exec_nop`), and the flow moves on as R94 and R394 say. -/
theorem completedBundlesMoveOn : Obligations.CompletedBundlesMoveOn := by
  intro s core plat hq f hf
  have hctx : (s.issued core plat .nop (fun c => { c with flow := f.complete })).ctx core plat =
      { (s.ctx core plat).passed .nop with flow := f.complete } := by simp [State.issued, State.ctx]
  refine ⟨_, exec_nop hq hf, rfl, ?_⟩
  rw [hctx]
  refine ⟨rfl, rfl, complete_rets f, fun x hx hl => ?delay, fun x hx hl => ?target, fun inner l rest hx hls hin => ?loop,
    fun hx hls => ?out⟩
  case delay =>
    have : ¬ x.left - 1 = 0 := by omega
    simp [complete_some hx, Flow.advance, this]
  case target =>
    cases ht : x.taken <;> cases hc : x.closes <;> simp [complete_some hx, Flow.advance, hl, ht, hc, closeLoops]
  case loop =>
    simp only [complete_none hx, hls, loopNext_append hin]
    exact ⟨fun hne => by rw [loopNext, if_neg (Ne.symm hne)]; exact ⟨rfl, rfl⟩,
      fun heq hl => by rw [loopNext, if_pos heq.symm, if_pos hl]; exact ⟨rfl, rfl⟩⟩
  case out =>
    have := loopNext_append hls []
    rw [List.append_nil] at this
    simp [complete_none hx, this, loopNext]

end Sys2Proof.Machine
end

section
/-! ## Transfers and hardware loops (R94, R95, R375, R394, R422) -/
namespace Sys2Proof.Machine

/-- What a C-slot instruction other than a bound one, a loop and TRET asks of its context to fit: nothing. -/
theorem fits_flow {c : Ctx} {i : Instr} (hs : i.slot = some .c) (hn : i ≠ .nop)
    (hb : ∀ g cls code raw, i ≠ .boundInstruction g cls code raw) (ho : ∀ o, i.loopOffset = some o → 1 ≤ o)
    (ht : ∀ g, i ≠ .tret g) : Fits c i .c :=
  fits_of hs hn (fun g cls code raw h => absurd h (hb g cls code raw)) ho (fun g h => absurd h (ht g))

/-- The context whose transfer has just been made, with the return stack that it leaves. -/
def Ctx.transferred (c : Ctx) (target : Nat) (closes : Bool) (rets : List Nat) : Ctx :=
  { c with flow := { c.flow with xfer := some ⟨target, true, 3, closes⟩, rets := rets } }

/-- A transfer leaves two delay bundles after its own (R94). -/
theorem exec_transfers {s : State} {core plat : Nat} {i : Instr} {g : Guard} {sem : SlotSem} {target : Nat}
    {closes : Bool} {rets : List Nat} (h : On s core plat g) (hx : exec i s = issueAlone i sem s) (hg : i.guard = some g)
    (fit : Fits (s.ctx core plat) i .c) (hp : i.pops = false)
    (hb : sem.block { loneEnv s core plat .c i with word := none } (s.begun core) = none)
    (hr : sem.run (loneEnv s core plat .c i) (s.acting core plat i) =
      .done ((s.begun core).setCtx core plat (((s.ctx core plat).popped i).transferred target closes rets))) :
    exec i s = .next (s.issued core plat i (fun d => { d with
      flow := { d.flow with xfer := some ⟨target, true, 2, closes⟩, rets := rets } })) := by
  refine exec_flows (fl := { (s.ctx core plat).flow with xfer := some ⟨target, true, 3, closes⟩, rets := rets })
    h hx hg fit hp hb hr h.calm.after ?_
  have hflow := complete_xfer
    (f := { (s.ctx core plat).flow with xfer := some ⟨target, true, 3, closes⟩, rets := rets }) rfl h.calm.after
  exact congrArg (fun fl : Flow => { (s.ctx core plat).passed i with flow := fl }) hflow

/-- The attempt of a transfer puts it on the context that it acts on. -/
theorem transfer_acting (s : State) (core plat : Nat) (i : Instr) (target : Nat) (closes : Bool) :
    (loneEnv s core plat .c i).transfer (s.acting core plat i) target closes =
      (s.begun core).setCtx core plat (((s.ctx core plat).popped i).transferred target closes (s.ctx core plat).flow.rets) :=
  upd_acting _ _ _ _ _ _

/-- A call that finds room on the core pushes its return index (R375). -/
theorem call_acting {s : State} {core plat : Nat} (i : Instr) (target : Nat)
    (h : (s.ctx core plat).flow.rets.length < 16) :
    (loneEnv s core plat .c i).call (s.acting core plat i) target =
      .done ((s.begun core).setCtx core plat (((s.ctx core plat).popped i).transferred target false
        (((s.ctx core plat).flow.pc + 3) :: (s.ctx core plat).flow.rets))) := by
  have hp : (s.ctx core plat).pushSpill = none := by rw [Ctx.pushSpill, if_neg (by omega)]
  simp only [Env.call, loneEnv_c, hp, transfer_acting, loneEnv_mpc]
  simp [Env.upd, loneEnv, Ctx.transferred]

theorem blockSpill_push {s : State} {core plat : Nat} {i : Instr} (h : (s.ctx core plat).flow.rets.length < 16) :
    blockSpill ({ loneEnv s core plat .c i with word := none } : Env).c.pushSpill true
      { loneEnv s core plat .c i with word := none } (s.begun core) = none := by
  have hp : (s.ctx core plat).pushSpill = none := by rw [Ctx.pushSpill, if_neg (by omega)]
  rw [show ({ loneEnv s core plat .c i with word := none } : Env).c = s.ctx core plat from loneEnv_c s core plat .c i, hp]
  rfl

/-- A return pops its target from the part of the return stack on the core (R422). -/
theorem ret_acting {s : State} {core plat r : Nat} {rest : List Nat} (i : Instr) (h : (s.ctx core plat).flow.rets = r :: rest) :
    (loneEnv s core plat .c i).ret (s.acting core plat i) =
      .done ((s.begun core).setCtx core plat (((s.ctx core plat).popped i).transferred r false rest)) := by
  simp only [Env.ret, loneEnv_c, h, transfer_acting]
  simp [Env.upd, loneEnv, Ctx.transferred]

theorem blockSpill_pop {s : State} {core plat r : Nat} {rest : List Nat} {i : Instr} (h : (s.ctx core plat).flow.rets = r :: rest) :
    blockSpill ({ loneEnv s core plat .c i with word := none } : Env).c.popSpill false
      { loneEnv s core plat .c i with word := none } (s.begun core) = none := by
  have hp : (s.ctx core plat).popSpill = none := by simp [Ctx.popSpill, h]
  rw [show ({ loneEnv s core plat .c i with word := none } : Env).c = s.ctx core plat from loneEnv_c s core plat .c i, hp]
  rfl

/-- A relative target is an index of 64 bits (R375). -/
theorem relative_eq (s : State) (core plat : Nat) (i : Instr) (off : BitVec 24) :
    (loneEnv s core plat .c i).relative off = (BitVec.ofInt 64 ((s.ctx core plat).flow.pc + off.toInt)).toNat := by
  rw [Env.relative, loneEnv_mpc, BitVec.toNat_ofInt, wrap]

/-! ### Loops -/

/-- The completion of a bundle whose C slot skips a loop's body (R394). -/
theorem completeWith_skip {t : State} {core plat a n : Nat} {b : Found} {f : State → State}
    (h : (t.ctx core plat).flow.after = some (.skipTo n)) :
    t.completeWith core plat false a b f = t.setCtx core plat { t.ctx core plat with
      flow := { (t.ctx core plat).flow.complete with pc := n, xfer := none }, resume := .none, override := [], safe := none } := by
  simp [State.completeWith, h, State.act]

/-- Closing the bundle of a context whose slot skips a loop's body. -/
theorem closed_skip {s : State} {core plat n t : Nat} {c : Ctx} (ha : c.flow.after = some (.skipTo t)) :
    ((s.begun core).setCtx core plat c).closed core plat n =
      s.setCore core ({ s.core core with acted := s.now + 1, last := plat }.setCtx plat
        { c.done with flow := { c.flow.complete with pc := t, xfer := none } }) := by
  have h : ∀ u : State, ((u.setCore core { u.core core with last := plat }).ctx core plat) = u.ctx core plat :=
    fun u => State.ctx_setCore_plats (k := { u.core core with last := plat }) rfl plat
  unfold State.closed State.counted State.completeBundle
  rw [completeWith_skip (by simpa only [h, State.ctx_setCtx] using ha)]
  simp only [h, State.ctx_setCtx, Ctx.done]
  simp only [State.setCtx, State.begun, State.core_setCore, State.setCore_setCore]
  simp [Core.setCtx]

/-- The end bundle of a loop of a positive offset (R95). -/
theorem lastBundle_eq (pc : Nat) {off : BitVec 16} (h : 1 ≤ off.toInt) : (pc + off.toInt).toNat = pc + off.toNat := by
  have hpos : off.toInt = off.toNat := by
    rw [BitVec.toInt_eq_toNat_cond] at h ⊢
    split at h
    · rw [if_pos ‹_›]
    · omega
  omega

/-- The context whose slot skips a loop's body. -/
def Ctx.skipping (c : Ctx) (target : Nat) : Ctx := { c with flow := { c.flow with after := some (.skipTo target) } }

/-- Its bundle is complete: it goes on at the target. -/
theorem skipping_done {s : State} {core plat target : Nat} {i : Instr} (hc : Calm s core plat) :
    ({ (((s.ctx core plat).popped i).skipping target).done with flow :=
        { (((s.ctx core plat).popped i).skipping target).flow.complete with pc := target, xfer := none } } : Ctx) =
      { (s.ctx core plat).passed i with flow := { ((s.ctx core plat).passed i).flow with pc := target } } := by
  have hflow : ({ (((s.ctx core plat).popped i).skipping target).flow.complete with pc := target, xfer := none } : Flow) =
      { ((s.ctx core plat).passed i).flow with pc := target } := by
    rw [complete_none (show (((s.ctx core plat).popped i).skipping target).flow.xfer = none from hc.xfer)]
    have hl : (((s.ctx core plat).popped i).skipping target).flow.loops = [] := hc.loops
    have hl' := hc.loops
    have ha := hc.after
    have hx := hc.xfer
    cases hf : (s.ctx core plat).flow
    simp_all [Ctx.skipping, Ctx.popped, Ctx.passed, loopNext]
  rw [hflow]
  have h1 := hc.resume
  have h2 := hc.override
  simp only [Ctx.done, Ctx.passed, ← h1, ← h2, Ctx.skipping, Ctx.popped]

/-- A loop of a count of 1 or more runs its body from the next bundle. -/
theorem exec_opens {s : State} {core plat : Nat} {i : Instr} {g : Guard} {sem : SlotSem} {count : Nat} {off : BitVec 16}
    (h : On s core plat g) (hx : exec i s = issueAlone i sem s) (hg : i.guard = some g) (fit : Fits (s.ctx core plat) i .c)
    (hp : i.pops = false) (hb : sem.block { loneEnv s core plat .c i with word := none } (s.begun core) = none)
    (hr : sem.run (loneEnv s core plat .c i) (s.acting core plat i) =
      .done ((loneEnv s core plat .c i).openLoop (s.acting core plat i) count off))
    (hoff : 1 ≤ off.toInt) (hc : count ≠ 0) :
    exec i s = .next (s.issued core plat i (fun d => { d with flow := { d.flow with
      loops := [⟨(s.ctx core plat).flow.pc + 1, (s.ctx core plat).flow.pc + off.toNat, count - 1⟩],
      pc := (s.ctx core plat).flow.pc + 1 } })) := by
  have hlast := lastBundle_eq (s.ctx core plat).flow.pc hoff
  have hne : (s.ctx core plat).flow.pc + off.toNat ≠ (s.ctx core plat).flow.pc := by omega
  refine exec_flows (fl := { (s.ctx core plat).flow with
      loops := [⟨(s.ctx core plat).flow.pc + 1, (s.ctx core plat).flow.pc + off.toNat, count - 1⟩] })
    h hx hg fit hp hb ?run h.calm.after ?flow
  case run =>
    rw [hr, Env.openLoop, upd_acting]
    simp [hc, hlast, Ctx.popped, h.calm.loops]
  case flow =>
    have hx : (s.ctx core plat).flow.xfer = none := h.calm.xfer
    have ha := h.calm.after
    rw [complete_none (by exact hx)]
    simp only [loopNext, if_neg hne, Ctx.passed, ← hx, ← ha]

/-- A loop of a count of 0 goes on after its end bundle. -/
theorem exec_skips {s : State} {core plat : Nat} {i : Instr} {g : Guard} {sem : SlotSem} {off : BitVec 16}
    (h : On s core plat g) (hx : exec i s = issueAlone i sem s) (hg : i.guard = some g) (fit : Fits (s.ctx core plat) i .c)
    (hp : i.pops = false) (hb : sem.block { loneEnv s core plat .c i with word := none } (s.begun core) = none)
    (hr : sem.run (loneEnv s core plat .c i) (s.acting core plat i) =
      .done ((loneEnv s core plat .c i).openLoop (s.acting core plat i) 0 off)) (hoff : 1 ≤ off.toInt) :
    exec i s = .next (s.issued core plat i (fun d => { d with flow := { d.flow with
      pc := (s.ctx core plat).flow.pc + off.toNat + 1 } })) := by
  have hpos : ((s.ctx core plat).flow.pc + off.toInt).toNat = (s.ctx core plat).flow.pc + off.toNat :=
    lastBundle_eq _ hoff
  have hopen : (loneEnv s core plat .c i).openLoop (s.acting core plat i) 0 off =
      (s.begun core).setCtx core plat (((s.ctx core plat).popped i).skipping ((s.ctx core plat).flow.pc + off.toNat + 1)) := by
    rw [Env.openLoop, upd_acting]
    simp [hpos, Ctx.skipping]
  rw [hx, issueAlone_calm h.calm hg h.on fit (by simp [hp]) hb (hr.trans (congrArg _ hopen))
    (by simp [State.setCtx, State.begun, h.calm.routine]), closed_skip rfl, skipping_done h.calm]
  rfl

/-- What LOOP and LOOPI do at their slot. -/
theorem loop_run {s : State} {core plat : Nat} (hc : Calm s core plat) (g : Guard) (xa : BitVec 6) (off : BitVec 16) :
    (slotLoop xa off).run (loneEnv s core plat .c (.loop g xa off)) (s.acting core plat (.loop g xa off)) =
      .done ((loneEnv s core plat .c (.loop g xa off)).openLoop (s.acting core plat (.loop g xa off))
        (s.xAt core plat xa).toNat off) := by
  rw [← rdX_calm hc xa, ← loneEnv_c s core plat .c (.loop g xa off)]
  rfl

theorem loopi_run (s : State) (core plat : Nat) (g : Guard) (n off : BitVec 16) :
    (slotLoopi n off).run (loneEnv s core plat .c (.loopi g n off)) (s.acting core plat (.loopi g n off)) =
      .done ((loneEnv s core plat .c (.loopi g n off)).openLoop (s.acting core plat (.loopi g n off)) n.toNat off) := rfl

/-- Settles O7: a transfer leaves its two delay bundles (`exec_transfers`), and a loop opens (`exec_opens`) or is skipped
(`exec_skips`). -/
theorem transfersAndLoopsAim : Obligations.TransfersAndLoopsAim := by
  refine ⟨fun s core plat g off xa h => ?transfers, fun s core plat g xa n off h hoff => ⟨⟨?loop, ?skip⟩, ?loopi, ?skipi⟩⟩
  case transfers =>
    dsimp only
    rw [← relative_eq s core plat (.br g off) off, ← rdX_calm h.calm xa]
    refine ⟨?br, ?brx, fun hr => ?call, fun hr => ?callx, fun r rest hr => ?ret⟩
    case br =>
      exact exec_transfers h rfl rfl (fits_flow rfl nofun nofun nofun nofun) rfl rfl
        (congrArg SlotOut.done (transfer_acting s core plat _ _ _))
    case brx =>
      refine exec_transfers h rfl rfl (fits_flow rfl nofun nofun nofun nofun) rfl rfl ?_
      exact congrArg SlotOut.done (by rw [loneEnv_c]; exact transfer_acting s core plat _ _ _)
    case call =>
      exact exec_transfers h rfl rfl (fits_flow rfl nofun nofun nofun nofun) rfl (blockSpill_push hr) (call_acting _ _ hr)
    case callx =>
      refine exec_transfers h rfl rfl (fits_flow rfl nofun nofun nofun nofun) rfl (blockSpill_push hr) ?_
      rw [← call_acting _ _ hr, ← loneEnv_c s core plat .c (.callx g xa)]
      rfl
    case ret =>
      exact exec_transfers h rfl rfl (fits_flow rfl nofun nofun nofun nofun) rfl (blockSpill_pop hr) (ret_acting _ hr)
  case loop =>
    intro hc
    exact exec_opens h rfl rfl (fits_flow rfl nofun nofun (by rintro o ⟨⟩; exact hoff) nofun) rfl rfl (loop_run h.calm g xa off) hoff hc
  case skip =>
    intro hc
    have hr := loop_run h.calm g xa off
    rw [hc] at hr
    exact exec_skips h rfl rfl (fits_flow rfl nofun nofun (by rintro o ⟨⟩; exact hoff) nofun) rfl rfl hr hoff
  case loopi =>
    intro hc
    exact exec_opens h rfl rfl (fits_flow rfl nofun nofun (by rintro o ⟨⟩; exact hoff) nofun) rfl rfl rfl hoff hc
  case skipi =>
    intro hc
    have hr := loopi_run s core plat g n off
    rw [hc] at hr
    exact exec_skips h rfl rfl (fits_flow rfl nofun nofun (by rintro o ⟨⟩; exact hoff) nofun) rfl rfl hr hoff

end Sys2Proof.Machine
end

section
/-! ## Results that land (R89, R92, R388, R424) -/
namespace Sys2Proof.Machine

theorem othersKept_setCtx (s : State) (core plat : Nat) (c : Ctx) : s.othersKept (s.setCtx core plat c) core plat := by
  intro n p h
  by_cases hn : n = core
  · subst hn
    exact State.ctx_setCtx_ne s n c (h.resolve_left (fun hne => hne rfl))
  · exact State.ctx_setCtx_other s plat p c hn

/-! ### What landing and arriving leave alone -/

@[simp] theorem land_out (c : Ctx) (w : RegWrite) : (c.land w).out = c.out := by cases w <;> rfl

/-- What a landing does to the registers does not depend on the accesses and replies still out. -/
theorem land_setOut (c : Ctx) (w : RegWrite) (os : List Outbound) (ws : List Awaited) :
    (({ c with out := os, awaited := ws } : Ctx).land w) = { c.land w with out := os, awaited := ws } := by
  cases w <;> rfl

/-- A result that writes a register clears its poison (R365). -/
theorem land_unpoisons {c : Ctx} {w : RegWrite} {r : RegId} (hr : w.reg? = some r) (hs : ∀ q, w ≠ .shadow q) :
    ∀ q ∈ (c.land w).poison, q.1 ≠ r := by
  have hx : ∀ (d : Ctx), ∀ q ∈ (d.unpoison r).poison, q.1 ≠ r := by
    intro d q hq
    simpa using (List.mem_filter.1 hq).2
  cases w with
  | x n v => rw [RegWrite.reg?] at hr; split at hr <;> cases hr; exact hx _
  | p n b => rw [RegWrite.reg?] at hr; split at hr <;> cases hr; exact hx _
  | a n v => cases hr; exact hx _
  | v n v => cases hr; exact hx _
  | m n v => cases hr; exact hx _
  | shadow q => exact absurd rfl (hs q)
  | creg | fpflags | mflags | replay | portV | portM => cases hr

/-- A value that arrives lands as a result does; it clears the pending mark of its register, and a poisoned one marks it. -/
theorem arrive_eq (c : Ctx) (w : RegWrite) (poison : Option (Nat × Nat)) :
    c.arrive w poison = match w.reg? with
      | none => c.land w
      | some r => { (c.land w).unpend r with
          poison := (poison.map (fun p => (r, p.1, p.2))).toList ++ (c.land w).poison } := by
  unfold Ctx.arrive
  cases w.reg? <;> cases poison <;> rfl

theorem arrive_regs (c : Ctx) (w : RegWrite) (poison : Option (Nat × Nat)) : (c.arrive w poison).regs = (c.land w).regs := by
  rw [arrive_eq]; cases w.reg? <;> rfl
theorem arrive_cregs (c : Ctx) (w : RegWrite) (poison : Option (Nat × Nat)) : (c.arrive w poison).cregs = (c.land w).cregs := by
  rw [arrive_eq]; cases w.reg? <;> rfl
theorem arrive_replays (c : Ctx) (w : RegWrite) (poison : Option (Nat × Nat)) :
    (c.arrive w poison).replays = (c.land w).replays := by
  rw [arrive_eq]; cases w.reg? <;> rfl
theorem arrive_out (c : Ctx) (w : RegWrite) (poison : Option (Nat × Nat)) : (c.arrive w poison).out = c.out := by
  rw [arrive_eq]; cases w.reg? <;> exact land_out c w

theorem arrive_notPending {c : Ctx} {w : RegWrite} {poison : Option (Nat × Nat)} {r : RegId} (hr : w.reg? = some r) :
    r ∉ (c.arrive w poison).pending := by
  rw [arrive_eq, hr]
  simp [Ctx.unpend]

theorem arrive_poison {c : Ctx} {w : RegWrite} {poison : Option (Nat × Nat)} {r : RegId} (hr : w.reg? = some r) :
    (c.arrive w poison).poison = (poison.map (fun p => (r, p.1, p.2))).toList ++ (c.land w).poison := by
  rw [arrive_eq, hr]

/-- A load's destination is a register, not the shadow of one. -/
theorem Dest.write_ne_shadow {d : Dest} {bytes : List Byte} {w : RegWrite} (h : d.write bytes = some w) (q : RegId) :
    w ≠ .shadow q := by
  cases d <;> cases h <;> exact nofun

/-- One result in flight that is due lands alone. -/
theorem landDue_one {c : Ctx} {f : Flight} {now : Nat} (hf : c.flights = [f]) (hd : f.land ≤ now) :
    c.landDue now = { c.land f.write with flights := [] } := by
  unfold Ctx.landDue Ctx.landAll
  cases h : f.write.isCreg <;> simp [hf, hd, h]

/-! ### Sampled values -/

theorem sample_hub {s : State} {core plat n : Nat} {a : Awaited} (h : a.reply = .hub n) :
    s.sample core plat a = some (BitVec.ofNat 64 (s.now * 24 / 35)) := by
  rw [State.sample, h]; rfl

theorem sample_ring {s : State} {core plat n k : Nat} {a : Awaited} (h : a.reply = .ring n k)
    (hd : s.allDone core plat a.waits = true)
    (hc : ∀ q ∈ (s.ctx core plat).cmds, q.id < a.id → ∀ r cap, q.cmd ≠ .ringcfg r cap) :
    s.sample core plat a = some (BitVec.ofNat 64 ((((s.ctx core plat).ring k).wp - ((s.ctx core plat).ring k).rp).toNat +
      ((s.ctx core plat).ring k).status * 2 ^ 32 + ((s.ctx core plat).ring k).src * 2 ^ 40)) := by
  rw [State.sample, h]
  dsimp only
  refine if_neg ?_
  rw [hd, Bool.not_true, Bool.or_false, List.any_eq_true]
  rintro ⟨q, hq, hcfg⟩
  have hne := hc q hq
  cases hcmd : q.cmd <;> simp_all

/-! ### The two steps -/

theorem exec_fixedResultLanding_one {s : State} {core plat : Nat} {f : Flight} (hf : (s.ctx core plat).flights = [f])
    (hd : f.land ≤ s.now) :
    exec (.fixedResultLanding core plat) s =
      .next (s.setCtx core plat { (s.ctx core plat).land f.write with flights := [] }) := by
  have hdue : (s.ctx core plat).flights.any (fun g => g.land ≤ s.now) = true := by simp [hf, hd]
  rw [show exec (.fixedResultLanding core plat) s = execFixedResultLanding core plat s from rfl, execFixedResultLanding]
  simp only [if_pos hdue, landDue_one hf hd]

section
variable {s : State} {core plat id : Nat}

/-- The value of an access that has performed arrives. -/
theorem exec_loadResultArrival_out {o : Outbound} {w : RegWrite}
    (ho : (s.ctx core plat).out.find? (fun o => o.id = id && o.pieces.isEmpty) = some o) (hw : o.dest.write o.data = some w) :
    exec (.loadResultArrival core plat id) s = .next (s.setCtx core plat
      (({ s.ctx core plat with out := (s.ctx core plat).out.filter (·.id != id) } : Ctx).arrive w o.poison)) := by
  rw [show exec (.loadResultArrival core plat id) s = execLoadResultArrival core plat id s from rfl, execLoadResultArrival]
  simp only [ho, hw]

variable {a : Awaited} {v : Word} (ho : (s.ctx core plat).out.find? (fun o => o.id = id && o.pieces.isEmpty) = none)
  (ha : (s.ctx core plat).awaited.find? (·.id = id) = some a)
include ho ha

/-- A value that has been sampled arrives. -/
theorem exec_loadResultArrival_reply (hv : a.value = some v) :
    exec (.loadResultArrival core plat id) s = .next (s.setCtx core plat
      (({ s.ctx core plat with awaited := (s.ctx core plat).awaited.filter (·.id != id) } : Ctx).arrive
        (.x a.reply.reg v) none)) := by
  rw [show exec (.loadResultArrival core plat id) s = execLoadResultArrival core plat id s from rfl, execLoadResultArrival]
  simp only [ho, ha, hv]

/-- A value that has not been sampled is sampled, and stays awaited. -/
theorem exec_loadResultArrival_sample (hv : a.value = none) (hs : s.sample core plat a = some v) :
    exec (.loadResultArrival core plat id) s = .next (s.setCtx core plat { s.ctx core plat with
      awaited := (s.ctx core plat).awaited.map (fun b => if b.id = id then { b with value := some v } else b) }) := by
  rw [show exec (.loadResultArrival core plat id) s = execLoadResultArrival core plat id s from rfl, execLoadResultArrival]
  simp only [ho, ha, hv, hs]

end

/-- Settles O32: each step changes its context by a landing (`landDue_one`), an arrival (`arrive_eq`) or a sampled value. -/
theorem resultsLandInTheirRegisters : Obligations.ResultsLandInTheirRegisters := by
  intro s core plat id c after holds
  have hholds : ∀ {w : RegWrite} {d : Ctx}, d.regs = (c.land w).regs → d.cregs = (c.land w).cregs →
      d.replays = (c.land w).replays → holds w d := by
    intro w d h1 h2 h3
    cases w with
    | replay => exact ⟨h1, h2, h3⟩
    | _ => exact ⟨h1, h2⟩
  have harrives : ∀ {os : List Outbound} {ws : List Awaited} {w : RegWrite} {p : Option (Nat × Nat)},
      holds w (({ c with out := os, awaited := ws } : Ctx).arrive w p) := by
    intro os ws w p
    have hset := land_setOut c w os ws
    exact hholds (by rw [arrive_regs, hset]) (by rw [arrive_cregs, hset]) (by rw [arrive_replays, hset])
  refine ⟨fun f hf hd => ?lands, fun o w ho hw => ?arrives, fun a v ho ha => ⟨fun hv => ?replied, fun hv hs => ?sampled⟩⟩
  case lands =>
    refine ⟨_, exec_fixedResultLanding_one hf hd, rfl, othersKept_setCtx s core plat _, ?_⟩
    rw [State.ctx_setCtx]
    exact ⟨rfl, hholds rfl rfl rfl⟩
  case arrives =>
    refine ⟨_, exec_loadResultArrival_out ho hw, rfl, othersKept_setCtx s core plat _, ?_⟩
    rw [State.ctx_setCtx]
    refine ⟨harrives, fun q hq => ?_, fun r hr => ⟨arrive_notPending hr, fun a code hp => ?_, fun hp => ?_⟩⟩
    · rw [arrive_out] at hq
      simpa using (List.mem_filter.1 hq).2
    · rw [arrive_poison hr, hp]
      exact List.mem_append_left _ (List.mem_singleton.2 rfl)
    · rw [arrive_poison hr, hp]
      exact land_unpoisons hr (Dest.write_ne_shadow hw)
  case replied =>
    refine ⟨_, exec_loadResultArrival_reply ho ha hv, rfl, othersKept_setCtx s core plat _, ?_⟩
    rw [State.ctx_setCtx]
    exact ⟨harrives (os := c.out) (w := .x a.reply.reg v), fun hne => arrive_notPending (by rw [RegWrite.reg?, if_neg hne])⟩
  case sampled =>
    have hsample : s.sample core plat a = some v := by
      rcases hs with ⟨n, hr, rfl⟩ | ⟨n, k, hr, hd, hc, rfl⟩
      · exact sample_hub hr
      · exact sample_ring hr hd hc
    refine ⟨_, exec_loadResultArrival_sample ho ha hv hsample, rfl, othersKept_setCtx s core plat _, ?_⟩
    rw [State.ctx_setCtx]
    exact ⟨rfl, rfl, rfl, rfl⟩

end Sys2Proof.Machine
end

section
/-! ## Own S1 of a core that the package does not have

The statements of the A slot quantify over every core number. The package has 384 cores (R19), and a place past the S1 of the
last of them belongs to no core: its bytes are not read as own S1. -/
namespace Sys2Proof.Machine

/-- A running context with the registers and control registers given, which may fetch any bundle. -/
def runningCtx (regs : Regs) (cregs : List (Nat × Word)) : Ctx :=
  { Ctx.empty with state := .running, place := { Placement.empty with ilen := 8192 }, regs := regs, cregs := cregs }

/-- A core of that number runs the context on platform 0, and nothing else in the package runs. -/
def runningAt (core : Nat) (c : Ctx) (mem : List Host.Cell) : State :=
  { State.reset with
    cores := [(core, { Core.empty with plats := [(0, c)], running := some 0 })], focus := (core, 0), mem := mem }

/-- The state after a step that answers one. -/
def nextState (o : Host.Outcome State Fault Refusal) : State :=
  match o with
  | .next t => t
  | .fault _ | .refused _ => State.reset

/-- BWIN of a context that may reach all of its own S1. -/
def wholeS1 : Nat × Word := (0x020, 0xFFFFFFFFFFFFFFFF#64)

/-- Core 384, past the last of the package, whose first byte of what would be its own S1 holds 1. -/
def byteHeld : State := runningAt 384 (runningCtx Regs.empty [wholeS1]) [(s1Place 384 0, 1#8)]

theorem on_byteHeld : On byteHeld 384 0 ⟨0, false⟩ :=
  ⟨⟨⟨rfl, rfl, rfl, rfl, rfl, by decide +kernel, rfl, rfl, rfl, rfl, rfl⟩, rfl, rfl⟩, by decide +kernel⟩

/-- LDX of the byte at address 0 into x1. -/
def loadByte : Instr := .ldx ⟨0, false⟩ .b 1 0 0

/-- The load lands 0 in x1, not the byte that memory holds. -/
theorem loadByte_lands_zero : ((nextState (exec loadByte byteHeld)).ctx 384 0).flights = [⟨0, 3, 4, .x 1 0#64⟩] := by
  decide +kernel

/-- The access of the load, as its context forms it. -/
def loadByteAccess : Access := accessOf loadByte { loneEnv byteHeld 384 0 .a loadByte with word := none }

theorem loadByteAccess_eq : (byteHeld.ctx 384 0).access loadByte = some loadByteAccess := by decide +kernel

/-- It meets the hypotheses of O14: it passes its checks, lies in own S1 and conflicts with no move. -/
theorem loadByteAccess_own : checkAccess byteHeld byteHeld 384 (byteHeld.ctx 384 0) loadByteAccess = none ∧
    loadByteAccess.own = true ∧ (byteHeld.ctx 384 0).moveConflict 384 false loadByteAccess.spans = false := by
  decide +kernel

/-- Refutes O14: it lacks the hypothesis that the core is one of the 384 of the package. On core 384 the LDX of a byte that
memory holds as 1 lands 0 (`loadByte_lands_zero`). -/
theorem not_ownAccessesMoveTheirBytesOnly : ¬ Obligations.OwnAccessesMoveTheirBytesOnly := by
  rintro ⟨loads, -⟩
  obtain ⟨-, -, -, ⟨acc, hacc, hspans, hlands⟩, -⟩ := loads byteHeld 384 0 ⟨0, false⟩ .b 0 0 0 1 0 0 on_byteHeld
  obtain rfl : loadByteAccess = acc := Option.some.inj (loadByteAccess_eq.symm.trans hacc)
  obtain ⟨hcheck, hown, hmoves⟩ := loadByteAccess_own
  have hnext := hlands hcheck hown (hspans ▸ hmoves)
  have hflights : ((nextState (exec loadByte byteHeld)).ctx 384 0).flights = [⟨0, 3, 4, .x 1 1#64⟩] := by
    rw [show exec loadByte byteHeld = _ from hnext]
    decide +kernel
  rw [loadByte_lands_zero] at hflights
  exact absurd hflights (by decide)

end Sys2Proof.Machine
end

section
/-! ## A scatter from a core that the package does not have -/
namespace Sys2Proof.Machine

/-- Element offsets of which the first stays at address 0 and the other 47 reach S2, at 8 * 2^30. -/
def scatterOffsets : Vec := BitVec.ofNat 3072 (((List.range 47).map (fun i => 2 ^ (32 * (i + 1) + 30))).sum)

/-- Core 384, past the last of the package, runs a context whose windows hold its own S1 and S2 whole: v1 holds 1 in its first
element, v2 the offsets. -/
def scatterState : State := runningAt 384
  (runningCtx { Regs.empty with v := [(1, 1#3072), (2, scatterOffsets)] } [wholeS1, (0x021, 0xFFFFFFFF00000000#64)]) []

theorem on_scatterState : On scatterState 384 0 ⟨0, false⟩ :=
  ⟨⟨⟨rfl, rfl, rfl, rfl, rfl, by decide +kernel, rfl, rfl, rfl, rfl, rfl⟩, rfl, rfl⟩, by decide +kernel⟩

/-- VSCAT of the elements of v1 to the offsets in v2. -/
def scatter : Instr := .vscat ⟨0, false⟩ .d 1 0 2

def scatterAccess : Access := accessOf scatter { loneEnv scatterState 384 0 .a scatter with word := none }

theorem scatterAccess_eq : (scatterState.ctx 384 0).access scatter = some scatterAccess := by decide +kernel

/-- It meets the hypotheses of O15: it passes its checks, no piece of it lies in the S1 of a core of that number, it is not all
in own S1, and it conflicts with no move. -/
theorem scatterAccess_remote :
    checkAccess scatterState scatterState 384 (scatterState.ctx 384 0) scatterAccess = none ∧
    (scatterAccess.pieces 384 (scatterState.ctx 384 0)).all (fun p => !isOwnPiece 384 p) = true ∧
    scatterAccess.own = false ∧
    (scatterState.ctx 384 0).moveConflict 384 scatterAccess.wr scatterAccess.spans = false ∧
    (scatterState.ctx 384 0).outLive.length < 32 ∧
    ∀ p ∈ scatterAccess.pieces 384 (scatterState.ctx 384 0), isHostPlace p.place = false := by
  decide +kernel

/-- The element at address 0 is stored at the order point. -/
theorem scatter_writes : (nextState (exec scatter scatterState)).mem = [(s1Place 384 0, 1#8)] := by decide +kernel

/-- Refutes O15: it lacks the hypothesis that the core is one of the 384 of the package. On core 384 a VSCAT with one element at
its address 0 has no piece that counts as own S1, and yet it stores that element at its issue (`scatter_writes`). -/
theorem not_remoteAccessesEnterTheOutboundPath : ¬ Obligations.RemoteAccessesEnterTheOutboundPath := by
  intro h
  obtain ⟨-, -, -, -, -, -, -, ⟨acc, hacc, henters⟩, -⟩ :=
    h scatterState 384 0 ⟨0, false⟩ .d false 0 1 2 0 0 0 0 0 0 on_scatterState
  obtain rfl : scatterAccess = acc := Option.some.inj (scatterAccess_eq.symm.trans hacc)
  obtain ⟨hcheck, hpieces, hown, hmoves, hlive, hhost⟩ := scatterAccess_remote
  obtain ⟨o, -, -, -, ho, -, -, -, -, -, hnext, -⟩ := henters hcheck hpieces hown hmoves hlive
  have hdevice : ¬ (AccClass.w = AccClass.w ∧ ∃ p ∈ o.pieces, isHostPlace p.place = true) := by
    rintro ⟨-, p, hp, hplace⟩
    rw [ho] at hp
    exact Bool.false_ne_true ((hhost p hp).symm.trans hplace)
  have hmem : (nextState (exec scatter scatterState)).mem = [] := by
    rw [show exec scatter scatterState = _ from hnext hdevice]
    rfl
  rw [scatter_writes] at hmem
  exact List.cons_ne_nil _ _ hmem

end Sys2Proof.Machine
end

section
/-! ## A bound instruction that pops an empty queue -/
namespace Sys2Proof.Machine

/-- The routine that a V instruction of code 4 is bound to. -/
def boundRoutine : Binding := ⟨1, 0xC4, 0, 1, 0, 0, false, false⟩

/-- A context on core 0 with that binding, whose random queue is empty. -/
def boundState : State := runningAt 0 { runningCtx Regs.empty [wholeS1] with bindings := [boundRoutine] } []

theorem on_boundState : On boundState 0 0 ⟨0, false⟩ :=
  ⟨⟨⟨rfl, rfl, rfl, rfl, rfl, by decide +kernel, rfl, rfl, rfl, rfl, rfl⟩, rfl, rfl⟩, by decide +kernel⟩

/-- A bound V instruction of code 4 that rounds stochastically, and so pops a random word (R97). -/
def boundPop : Instr := .boundInstruction ⟨0, false⟩ .v 4 (BitVec.ofNat 66 (2 ^ 48))

/-- What O25 asks of its binding: it is the context's, and no outstanding move touches its groups. -/
theorem boundState_binding : (boundState.ctx 0 0).binding .v 4 = some boundRoutine ∧
    (boundState.ctx 0 0).moveInGroups 0 boundRoutine.groups = false := by
  decide +kernel

/-- The bundle pops a word from the empty queue: it blocks, and no routine starts. -/
theorem boundPop_blocks : ((nextState (exec boundPop boundState)).core 0).routine = none := by decide +kernel

/-- Refutes O25: its clause of bound instructions lacks the hypothesis, which its ROM clauses have, that an instruction that pops
a random word finds one. Where the queue is empty the context blocks instead of starting the routine (`boundPop_blocks`). -/
theorem not_routinesAndRegionsStart : ¬ Obligations.RoutinesAndRegionsStart := by
  rintro ⟨hstarts, -⟩
  obtain ⟨-, -, -, -, -, -, -, -, -, hbound⟩ :=
    hstarts boundState 0 0 ⟨0, false⟩ 0 0 0 0 .v 4 (BitVec.ofNat 66 (2 ^ 48)) boundRoutine on_boundState
  obtain ⟨t, r, hnext, hroutine, -⟩ := hbound boundState_binding.1 boundState_binding.2
  have ht : nextState (exec boundPop boundState) = t := congrArg nextState hnext
  rw [← ht, boundPop_blocks] at hroutine
  exact nomatch hroutine

end Sys2Proof.Machine
end

section
/-! ## An atomic from a core that the package does not have (R216, R363) -/
namespace Sys2Proof.Machine

/-- AMOSWAP of the word at address 0, its old value to x1. -/
def swapWord : Instr := .amoswap ⟨0, false⟩ false 1 0 2

/-- Its access, as the context of `byteHeld` forms it: own S1 of core 384, past the last of the package. -/
def swapWordAccess : Access := accessOf swapWord { loneEnv byteHeld 384 0 .a swapWord with word := none }

theorem swapWordAccess_eq : (byteHeld.ctx 384 0).access swapWord = some swapWordAccess := by decide +kernel

/-- It meets the hypotheses of O16: it passes its checks, lies in own S1, conflicts with no move, and its word is correct and in
plaintext. -/
theorem swapWordAccess_own : checkAccess byteHeld byteHeld 384 (byteHeld.ctx 384 0) swapWordAccess = none ∧
    swapWordAccess.own = true ∧ (byteHeld.ctx 384 0).moveConflict 384 true swapWordAccess.spans = false ∧
    byteHeld.badRead (s1Place 384 0) 4 = false ∧ byteHeld.isCipher (s1Place 384 0 / 64) = false := by
  decide +kernel

/-- The swap leaves its word in the outbound path, as one still to perform. -/
theorem swapWord_outstanding :
    ((nextState (exec swapWord byteHeld)).ctx 384 0).out.map (fun o => o.pieces.length) = [1] := by
  decide +kernel

/-- Refutes O16: it lacks the hypothesis that the core is one of the 384 of the package. On core 384 an AMOSWAP at an address of
own S1 is still to perform at its home after its issue (`swapWord_outstanding`). -/
theorem not_ownAtomicsPerformAtIssue : ¬ Obligations.OwnAtomicsPerformAtIssue := by
  intro h
  obtain ⟨-, -, -, -, -, ⟨acc, hacc, hperforms⟩, -⟩ := h byteHeld 384 0 ⟨0, false⟩ false 1 2 0 on_byteHeld
  obtain rfl : swapWordAccess = acc := Option.some.inj (swapWordAccess_eq.symm.trans hacc)
  obtain ⟨hcheck, hown, hmoves, hread, hplain⟩ := swapWordAccess_own
  obtain ⟨t, o, hnext, -, -, -, hout, hpieces, -⟩ := hperforms hcheck hown hmoves hread hplain
  have ht : nextState (exec swapWord byteHeld) = t := congrArg nextState hnext
  have hperformed : (t.ctx 384 0).out.map (fun o => o.pieces.length) = [0] := by
    rw [hout, show (byteHeld.ctx 384 0).out = [] from rfl, List.nil_append, List.map_singleton, hpieces, List.length_nil]
  rw [← ht, swapWord_outstanding] at hperformed
  exact absurd hperformed (by decide)

end Sys2Proof.Machine
end

section
/-! ## Commands of the E slot (R221, R229, R285, R286) -/
namespace Sys2Proof.Machine

/-! ### What the beginning of an attempt leaves alone -/

/-- An attempt that begins changes of its core only the cycle in which it acts next. -/
theorem begun_keeps {α : Type} {f : Core → α} (hf : ∀ (k : Core) n, f { k with acted := n } = f k) (s : State) (core n : Nat) :
    f ((s.begun core).core n) = f (s.core n) := by
  by_cases hn : n = core
  · subst hn; rw [State.begun, State.core_setCore, hf]
  · rw [State.begun, State.core_setCore_ne _ _ hn]

theorem begun_inWindows (s : State) (core n : Nat) (c : Ctx) : inWindows (s.begun core) n c = inWindows s n c := by
  funext addr
  have howner : ∀ q off, (s.begun core).bankOwner q off c.gang = s.bankOwner q off c.gang := fun q off =>
    begun_keeps (f := fun k => k.all.any (fun o => o.state != .empty && o.gang == c.gang && inBwin (o.creg 0x020) off) ||
      k.away.any (fun a => a.gang == c.gang && inBwin a.bwin off)) (fun _ _ => rfl) s core q
  unfold inWindows
  split <;> simp only [howner]

theorem begun_claimed (s : State) (core n group : Nat) : (s.begun core).claimed n group = s.claimed n group :=
  begun_keeps (f := fun k => (k.half0.claims ++ k.half1.claims).any (fun c => c.group = group && s.now < c.till))
    (fun _ _ => rfl) s core n

theorem begun_checkAccess (s : State) (core n : Nat) (c : Ctx) (a : Access) :
    checkAccess (s.begun core) (s.begun core) n c a = checkAccess s s n c a := by
  have hform : a.formPoints (s.begun core) n c = a.formPoints s n c := rfl
  have hhw : a.hwPoints (s.begun core) n = a.hwPoints s n := rfl
  simp only [checkAccess, begun_inWindows, begun_claimed, hform, hhw]

theorem begun_engineRead (s : State) (core : Nat) (c : Ctx) (addr n : Nat) :
    engineRead (s.begun core) core c addr n = engineRead s core c addr n := begun_checkAccess _ _ _ _ _

theorem begun_target (s : State) (core n plat gang : Nat) :
    ((s.begun core).core n).target plat gang = (s.core n).target plat gang :=
  begun_keeps (f := fun k => k.target plat gang) (fun _ _ => rfl) s core n

theorem begun_outstanding (s : State) (core plat : Nat) (cs : ClassSet) (scope : Scope) :
    (s.begun core).outstanding core plat cs scope = s.outstanding core plat cs scope := by
  have hhbm := begun_keeps (f := fun k => k.hbmIds plat) (fun _ _ => rfl) s core core
  have hdrain := begun_keeps (f := fun k => k.drainIds plat) (fun _ _ => rfl) s core core
  have hout : (s.begun core).isOutstanding core plat = s.isOutstanding core plat := by
    funext id
    simp only [State.isOutstanding, State.begun_ctx, hhbm, hdrain]
  simp only [State.outstanding, State.begun_ctx, hhbm, hdrain, hout]

/-! ### Entry into the queue -/

/-- What a command waits for: the reads and writes outstanding at its issue and what the fences in force put before it (R221,
R229). -/
def State.cmdWaits (s : State) (core plat : Nat) : List Nat :=
  s.outstanding core plat ⟨true, true, false, false⟩ .package ++ (s.ctx core plat).fenceWaits .e

/-- The context with one command more. -/
def Ctx.queued (c : Ctx) (waits : List Nat) (cmd : Command) : Ctx :=
  { c with nextId := c.nextId + 1, cmds := c.cmds ++ [⟨c.nextId, waits, cmd⟩] }

/-- The slot of an E instruction sees the state in which its bundle began. -/
structure Sees (e : Env) (s : State) (core plat : Nat) : Prop where
  pre_eq : e.pre = s.begun core
  core_eq : e.core = core
  plat_eq : e.plat = plat
  ctx_eq : e.c = s.ctx core plat

theorem sees_loneEnv (s : State) (core plat : Nat) (sl : SlotId) (i : Instr) : Sees (loneEnv s core plat sl i) s core plat :=
  ⟨rfl, rfl, rfl, State.begun_ctx s core plat⟩

theorem sees_loneEnv_block (s : State) (core plat : Nat) (sl : SlotId) (i : Instr) :
    Sees { loneEnv s core plat sl i with word := none } s core plat := ⟨rfl, rfl, rfl, State.begun_ctx s core plat⟩

/-- A queue below its capacity takes a command last, and its siding stays as it is (R285, R327). -/
theorem enqueue_acting {s : State} {core plat : Nat} {i : Instr} (hlen : (s.ctx core plat).cmds.length < 8) (cmd : Command) :
    (loneEnv s core plat .e i).enqueue (s.acting core plat i) cmd =
      ((s.begun core).setCtx core plat (((s.ctx core plat).popped i).queued (s.cmdWaits core plat) cmd)).admitted
        (.cmd core plat) := by
  have hl : ¬ 8 ≤ ((s.ctx core plat).popped i).cmds.length := Nat.not_le.2 hlen
  simp only [Env.enqueue, loneEnv_core, loneEnv_plat, loneEnv_pre, acting_ctx, acting_setCtx, begun_outstanding, if_neg hl]
  rfl

/-- A change of the issuing context behind an admission. -/
theorem upd_admitted (s : State) (core plat : Nat) (i : Instr) (c : Ctx) (q : QueueId) (f : Ctx → Ctx) :
    (loneEnv s core plat .e i).upd (((s.begun core).setCtx core plat c).admitted q) f =
      ((s.begun core).setCtx core plat (f c)).admitted q := by
  have hctx : (((s.begun core).setCtx core plat c).admitted q).ctx core plat = c := State.ctx_setCtx _ _ _ _
  have hset : ∀ d, (((s.begun core).setCtx core plat c).admitted q).setCtx core plat d =
    (((s.begun core).setCtx core plat c).setCtx core plat d).admitted q := fun _ => rfl
  simp only [Env.upd, loneEnv_core, loneEnv_plat, hctx, hset, State.setCtx_setCtx]

/-- Closing a bundle whose slot has admitted a message to a queue. -/
theorem closed_admitted {t : State} {core plat n : Nat} (q : QueueId)
    (h : ((t.counted core plat).ctx core plat).flow.after = none) :
    (t.admitted q).closed core plat n = (t.closed core plat n).admitted q := by
  have h' : (((t.admitted q).counted core plat).ctx core plat).flow.after = none := h
  unfold State.closed State.completeBundle
  rw [completeWith_plain h, completeWith_plain h']
  rfl

/-- Counting a bundle leaves its context's flow. -/
theorem counted_flow (t : State) (core plat : Nat) : ((t.counted core plat).ctx core plat).flow = (t.ctx core plat).flow := by
  have hlast : ∀ u : State, (u.setCore core { u.core core with last := plat }).ctx core plat = u.ctx core plat := fun u =>
    State.ctx_setCore_plats (k := { u.core core with last := plat }) rfl plat
  simp only [State.counted, hlast, State.ctx_setCtx]

/-- A slot instruction that leaves its own context as `c1` and admits a message to a queue. -/
theorem exec_admits {s : State} {core plat : Nat} {i : Instr} {sl : SlotId} {g : Guard} {sem : SlotSem} {c1 : Ctx} {q : QueueId}
    (h : On s core plat g) (hx : exec i s = issueAlone i sem s) (hg : i.guard = some g)
    (fit : Fits (s.ctx core plat) i sl) (hp : i.pops = false)
    (hb : sem.block { loneEnv s core plat sl i with word := none } (s.begun core) = none)
    (hr : sem.run (loneEnv s core plat sl i) (s.acting core plat i) = .done (((s.begun core).setCtx core plat c1).admitted q))
    (hf : c1.flow.after = none) :
    exec i s = .next
      ((s.setCore core ({ s.core core with acted := s.now + 1, last := plat }.setCtx plat c1.done)).admitted q) := by
  have hro : ((((s.begun core).setCtx core plat c1).admitted q).core core).routine = none := by
    have hcore : (((s.begun core).setCtx core plat c1).admitted q).core core = ((s.begun core).setCtx core plat c1).core core := rfl
    rw [hcore]
    simp [State.begun, h.calm.routine]
  have hflow : ((((s.begun core).setCtx core plat c1).counted core plat).ctx core plat).flow.after = none := by
    rw [counted_flow, State.ctx_setCtx, hf]
  rw [hx, issueAlone_calm h.calm hg h.on fit (by simp [hp]) hb hr hro, closed_admitted q hflow, closed_setCtx hf]
  rfl

/-- A command that passes its checks enters a queue below its capacity. -/
theorem exec_command {s : State} {core plat : Nat} {i : Instr} {g : Guard} {check : Env → Option (Nat × Nat)}
    {cmd : Env → Command} {v : Command} (h : On s core plat g) (hx : exec i s = issueAlone i (commandSem check cmd) s)
    (hg : i.guard = some g) (fit : Fits (s.ctx core plat) i .e) (hp : i.pops = false)
    (hlen : (s.ctx core plat).cmds.length < 8) (hc : ∀ e, Sees e s core plat → check e = none)
    (hv : ∀ e, Sees e s core plat → cmd e = v) :
    exec i s = .next ((s.issued core plat i (fun c => c.queued (s.cmdWaits core plat) v)).admitted (.cmd core plat)) := by
  have hroom : (s.ctx core plat).cmdRoom = true := by simp [Ctx.cmdRoom, hlen]
  have hdone := done_of (c1 := ((s.ctx core plat).popped i).queued (s.cmdWaits core plat) v) (i := i) h.calm rfl rfl rfl
  have hnext := exec_admits (c1 := ((s.ctx core plat).popped i).queued (s.cmdWaits core plat) v) (q := .cmd core plat)
    h hx hg fit hp ?block ?run h.calm.after
  case block =>
    have hs := sees_loneEnv_block s core plat .e i
    simp only [commandSem, hs.ctx_eq, hroom, Bool.or_true, if_true]
  case run =>
    have hs := sees_loneEnv s core plat .e i
    simp only [commandSem, hc _ hs, hv _ hs, enqueue_acting hlen]
  rw [hnext, hdone]
  rfl

/-- An instruction that enters a command unchecked, and then changes its context. -/
theorem exec_enqueues {s : State} {core plat : Nat} {i : Instr} {g : Guard} {sem : SlotSem} {cmd : Env → Command} {v : Command}
    {f : Env → Ctx → Ctx} (h : On s core plat g) (hx : exec i s = issueAlone i sem s) (hg : i.guard = some g)
    (fit : Fits (s.ctx core plat) i .e) (hp : i.pops = false) (hlen : (s.ctx core plat).cmds.length < 8)
    (hb : ∀ e t, sem.block e t = if e.c.cmdRoom then none else some (.cmdQueue, t))
    (hr : ∀ e t, sem.run e t = .done (e.upd (e.enqueue t (cmd e)) (f e)))
    (hv : ∀ e, Sees e s core plat → cmd e = v) (hf : ∀ e c, (f e c).flow.after = c.flow.after) :
    ∃ t, exec i s = .next t ∧ t.mem = s.mem ∧ t.ctx core plat =
      (f (loneEnv s core plat .e i) (((s.ctx core plat).popped i).queued (s.cmdWaits core plat) v)).done := by
  have hroom : (s.ctx core plat).cmdRoom = true := by simp [Ctx.cmdRoom, hlen]
  refine ⟨_, exec_admits (c1 := f (loneEnv s core plat .e i) (((s.ctx core plat).popped i).queued (s.cmdWaits core plat) v))
    (q := .cmd core plat) h hx hg fit hp ?block ?run ((hf _ _).trans h.calm.after), rfl, ?_⟩
  case block => rw [hb, (sees_loneEnv_block s core plat .e i).ctx_eq, if_pos hroom]
  case run => rw [hr, hv _ (sees_loneEnv s core plat .e i), enqueue_acting hlen, upd_admitted]
  exact (congrArg (Core.ctx · plat) (State.core_setCore s core _)).trans (Core.ctx_setCtx _ _ _)

/-! ### What RQSEED, AXINV and AXQRY leave beside their commands (R371, R373, R425) -/

section
variable (c : Ctx) (i : Instr) (waits : List Nat) (cmd : Command)

theorem seed_done (key : BitVec 256) (counter : Word) :
    let d := (((c.popped i).queued waits cmd).seed key counter).done
    d.regs = c.regs ∧ d.cmds = c.cmds ++ [⟨c.nextId, waits, cmd⟩] ∧ d.key = key ∧ d.qcount = counter ∧ d.queue = [] ∧
      d.seeds = c.seeds + 1 ∧ d.seeding = true := ⟨rfl, rfl, rfl, rfl, rfl, rfl, rfl⟩

theorem setRegion_done (id : Nat) :
    let q := (c.popped i).queued waits cmd
    let d := (q.setRegion id { q.region id with state := 0 }).done
    d.regs = c.regs ∧ d.cmds = c.cmds ++ [⟨c.nextId, waits, cmd⟩] ∧
      ∀ n, d.region n = if n = id then { c.region n with state := 0 } else c.region n := by
  refine ⟨rfl, rfl, fun n => ?_⟩
  split
  case isTrue hn => rw [hn]; exact SMap.get_put _ _ _ _
  case isFalse hn => exact SMap.get_put_ne _ _ _ hn

theorem pending_done (hp : c.pending = []) (xd : BitVec 6) :
    let q := (c.popped i).queued waits cmd
    let d := ({ q with pending := if xd = 0 then q.pending else .x xd.toNat :: q.pending } : Ctx).done
    d.regs = c.regs ∧ d.cmds = c.cmds ++ [⟨c.nextId, waits, cmd⟩] ∧ d.pending = if xd = 0 then [] else [.x xd.toNat] :=
  ⟨rfl, rfl, congrArg (fun l : List RegId => if xd = 0 then l else .x xd.toNat :: l) hp⟩

end

/-! ### A full queue -/

/-- The bundle does not issue for want of room in the command queue: the context is BLOCKED, its command queue, flow and
registers and memory stay, and nothing issues in this cycle and the next (R53, R285). -/
def State.heldBack (s t : State) (core plat : Nat) : Prop :=
  (t.ctx core plat).state = .blocked ∧ (t.ctx core plat).why = some .cmdQueue ∧
    (t.ctx core plat).cmds = (s.ctx core plat).cmds ∧ (t.ctx core plat).flow = (s.ctx core plat).flow ∧
    (t.ctx core plat).regs = (s.ctx core plat).regs ∧ t.mem = s.mem ∧ (t.core core).running = none ∧
    s.now + 2 ≤ (t.core core).nextIssue

/-- A platform that leaves RUNNING keeps its contexts, and its core waits at least until the earlier of its two cycles. -/
theorem yieldCore_core (s : State) (core plat next switch : Nat) :
    ((s.yieldCore core plat next switch).core core).plats = (s.core core).plats ∧
    ((s.core core).running = some plat → ((s.yieldCore core plat next switch).core core).running = none) ∧
    min next switch ≤ ((s.yieldCore core plat next switch).core core).nextIssue := by
  unfold State.yieldCore
  rw [State.core_setCore]
  refine ⟨rfl, fun h => if_pos h, ?_⟩
  dsimp only
  split <;> omega

theorem blockCtx_begun {s : State} {core plat : Nat} (hr : (s.core core).running = some plat) :
    s.heldBack ((s.begun core).blockCtx core plat .cmdQueue) core plat := by
  unfold State.blockCtx
  dsimp only
  rw [State.begun_ctx, State.begun_now]
  generalize hu : (s.begun core).setCtx core plat { s.ctx core plat with state := .blocked, why := some .cmdQueue } = u
  have hctx : u.ctx core plat = { s.ctx core plat with state := .blocked, why := some .cmdQueue } := by
    rw [← hu, State.ctx_setCtx]
  have hmem : u.mem = s.mem := by rw [← hu]; rfl
  have hrun : (u.core core).running = some plat := by rw [← hu, State.core_setCtx, State.begun, State.core_setCore]; exact hr
  obtain ⟨hplats, hnone, hnext⟩ := yieldCore_core u core plat (s.now + 2) (s.now + 2)
  have hkept : (u.yieldCore core plat (s.now + 2) (s.now + 2)).ctx core plat = u.ctx core plat :=
    congrArg (fun ps => SMap.get Ctx.empty ps plat) hplats
  rw [Nat.min_self] at hnext
  refine ⟨?_, ?_, ?_, ?_, ?_, hmem, hnone hrun, hnext⟩
  all_goals rw [hkept, hctx]

/-- An E instruction that finds its queue full is held back. -/
theorem exec_heldBack {s : State} {core plat : Nat} {i : Instr} {g : Guard} {sem : SlotSem} (h : On s core plat g)
    (hx : exec i s = issueAlone i sem s) (hg : i.guard = some g) (fit : Fits (s.ctx core plat) i .e) (hp : i.pops = false)
    (hb : sem.block { loneEnv s core plat .e i with word := none } (s.begun core) = some (.cmdQueue, s.begun core)) :
    ∃ t, exec i s = .next t ∧ s.heldBack t core plat :=
  ⟨_, hx.trans (issueAlone_blocks h.calm hg h.on fit (by simp [hp]) hb), blockCtx_begun h.calm.running⟩

/-- A full queue, whose siding is not free, has no room. -/
theorem cmdRoom_false {c : Ctx} (h8 : 8 ≤ c.cmds.length) (hs : c.cmds.length = 8 → c.cmdSiding ≠ 1) : c.cmdRoom = false := by
  have hlt : ¬ c.cmds.length < 8 := Nat.not_lt.2 h8
  by_cases he : c.cmds.length = 8
  · simp [Ctx.cmdRoom, hlt, hs he]
  · simp [Ctx.cmdRoom, hlt, he]

/-- A command that passes its checks is held back by a full queue. -/
theorem exec_command_heldBack {s : State} {core plat : Nat} {i : Instr} {g : Guard} {check : Env → Option (Nat × Nat)}
    {cmd : Env → Command} (h : On s core plat g) (hx : exec i s = issueAlone i (commandSem check cmd) s)
    (hg : i.guard = some g) (fit : Fits (s.ctx core plat) i .e) (hp : i.pops = false)
    (hroom : (s.ctx core plat).cmdRoom = false) (hc : ∀ e, Sees e s core plat → check e = none) :
    ∃ t, exec i s = .next t ∧ s.heldBack t core plat := by
  have hs := sees_loneEnv_block s core plat .e i
  refine exec_heldBack h hx hg fit hp ?_
  simp only [commandSem, hc _ hs, hs.ctx_eq, hroom, Option.isSome_none, Bool.or_self, Bool.false_eq_true, if_false]

/-- An instruction that enters a command unchecked is held back by a full queue. -/
theorem exec_enqueues_heldBack {s : State} {core plat : Nat} {i : Instr} {g : Guard} {sem : SlotSem} (h : On s core plat g)
    (hx : exec i s = issueAlone i sem s) (hg : i.guard = some g) (fit : Fits (s.ctx core plat) i .e) (hp : i.pops = false)
    (hroom : (s.ctx core plat).cmdRoom = false)
    (hb : ∀ e t, sem.block e t = if e.c.cmdRoom then none else some (.cmdQueue, t)) :
    ∃ t, exec i s = .next t ∧ s.heldBack t core plat := by
  refine exec_heldBack h hx hg fit hp ?_
  rw [hb, (sees_loneEnv_block s core plat .e i).ctx_eq, hroom]
  rfl

/-! ### The checks of commands (R286, R378, R379, R433) -/

section
variable {s : State} {core plat : Nat} {e : Env} (hs : Sees e s core plat)
include hs

theorem Sees.channel {ch : BitVec 6} (hch : ch.toNat = plat) : channelBad e.plat ch = none := by
  rw [hs.plat_eq, channelBad, if_pos hch]

theorem Sees.ring {ring : BitVec 6} (hr : (s.ctx core plat).place.ringmask.getLsbD ring.toNat = true) :
    ringBad e.c ring.toNat = none := by
  simp [ringBad, Ctx.hasRing, hs.ctx_eq, ring.isLt, hr]

theorem Sees.addr (hc : Calm s core plat) (aa : BitVec 5) :
    addrOf (e.c.rdA aa) = ((s.aAt core plat aa).extractLsb' 0 48).toNat := by
  rw [hs.ctx_eq, rdA_calm hc, addrOf]

theorem Sees.x (hc : Calm s core plat) (xa : BitVec 6) : e.c.rdX xa = s.xAt core plat xa := by rw [hs.ctx_eq, rdX_calm hc]
theorem Sees.v (hc : Calm s core plat) (va : BitVec 11) : e.c.rdV va = s.vAt core plat va := by rw [hs.ctx_eq, rdV_calm hc]

theorem Sees.read (hc : Calm s core plat) {aa : BitVec 5} {n : Nat}
    (hr : engineRead s core (s.ctx core plat) ((s.aAt core plat aa).extractLsb' 0 48).toNat n = none) :
    engineRead e.pre e.core e.c (addrOf (e.c.rdA aa)) n = none := by
  rw [hs.addr hc, hs.ctx_eq, hs.pre_eq, hs.core_eq, begun_engineRead, hr]

theorem Sees.described (hc : Calm s core plat) {aa : BitVec 5} {ring : BitVec 6}
    (hring : (s.ctx core plat).place.ringmask.getLsbD ring.toNat = true)
    (hr : engineRead s core (s.ctx core plat) ((s.aAt core plat aa).extractLsb' 0 48).toNat 128 = none) :
    descCheck aa ring e = none := by
  simp only [descCheck, hs.ring hring, hs.read hc hr]

theorem Sees.target (hc : Calm s core plat) (xa : BitVec 6) :
    (e.pre.core (clusterOf e.core * 16 + (e.c.rdX xa).toNat / 4)).target ((e.c.rdX xa).toNat % 4) e.c.gang =
      (s.core (clusterOf core * 16 + (s.xAt core plat xa).toNat / 4)).target ((s.xAt core plat xa).toNat % 4)
        (s.ctx core plat).gang := by
  rw [hs.x hc, hs.pre_eq, hs.core_eq, hs.ctx_eq, begun_target]

theorem Sees.sendh (hc : Calm s core plat) {aa : BitVec 5} {xa : BitVec 6} {ctxid bwin : Word}
    (hx : (s.xAt core plat xa).toNat < 64)
    (ht : (s.core (clusterOf core * 16 + (s.xAt core plat xa).toNat / 4)).target ((s.xAt core plat xa).toNat % 4)
      (s.ctx core plat).gang = some (ctxid, bwin))
    (hal : ((s.aAt core plat aa).extractLsb' 0 48).toNat % 64 = 0)
    (hend : ((s.aAt core plat aa).extractLsb' 0 48).toNat + 384 ≤ 0x800000)
    (hbw : (linePoints ((s.aAt core plat aa).extractLsb' 0 48).toNat 384).all (inBwin bwin) = true) :
    sendhCheck aa xa e = none := by
  have hin : ∀ p ∈ linePoints ((s.aAt core plat aa).extractLsb' 0 48).toNat 384, inBwin bwin p = true := by simpa using hbw
  have hany : (linePoints ((s.aAt core plat aa).extractLsb' 0 48).toNat 384).any (fun p => !inBwin bwin p) = false := by
    simpa using hin
  simp only [sendhCheck, hs.target hc, ht]
  simp only [hs.x hc, hs.addr hc, if_neg (Nat.not_le.2 hx), hal, hany, spanOwn, hend]
  rfl

end

/-- Settles O19: a command whose checks pass at its slot (`Sees.…`) enters the queue (`exec_command`, `exec_enqueues`) or is held
back by a full one (`exec_command_heldBack`, `exec_enqueues_heldBack`). -/
theorem commandsEnterTheQueue : Obligations.CommandsEnterTheQueue := by
  refine ⟨fun s core plat g aa xa ring ch inc h hlen => ?commands, fun s core plat g va aa xa xd id handler h hlen => ?others,
    fun s core plat g ring ch xa xd id aa va inc handler h => ?full⟩
  case commands =>
    have hc := h.calm
    intro c a x readable hasRing enters
    refine ⟨fun hch hread => ?chstart, fun hch => ?chstop, fun hring => ?ringcfg, fun hring hread =>
      ⟨?ysort, ?ygath, ?ycomb, ?xa2av, ?xar, ?xag, ?xrun, ?sealL, ?openL⟩⟩
    case chstart =>
      refine exec_command h rfl rfl (fits_of rfl nofun nofun nofun nofun) rfl hlen (fun e hs => ?_) (fun e hs => ?_)
      · simp only [hs.channel hch, hs.read hc hread]
      · rw [hs.addr hc, hs.ctx_eq]
    case chstop =>
      exact exec_command h rfl rfl (fits_of rfl nofun nofun nofun nofun) rfl hlen (fun e hs => hs.channel hch) (fun _ _ => rfl)
    case ringcfg =>
      exact exec_command h rfl rfl (fits_of rfl nofun nofun nofun nofun) rfl hlen (fun e hs => hs.ring hring)
        (fun e hs => by rw [hs.x hc])
    case ysort | ygath | ycomb | xa2av | xar | xag =>
      exact exec_command h rfl rfl (fits_of rfl nofun nofun nofun nofun) rfl hlen (fun e hs => hs.described hc hring hread)
        (fun e hs => by rw [hs.addr hc])
    case xrun | sealL | openL =>
      exact exec_command h rfl rfl (fits_of rfl nofun nofun nofun nofun) rfl hlen (fun e hs => hs.described hc hring hread)
        (fun e hs => by rw [hs.addr hc, hs.x hc])
  case others =>
    have hc := h.calm
    intro c a x v waits target
    refine ⟨fun ctxid bwin hx ht hal hend hbw => ?sendh, ?rqseed, ?axinv, ?axqry⟩
    case sendh =>
      refine exec_command h rfl rfl (fits_of rfl nofun nofun nofun nofun) rfl hlen
        (fun e hs => hs.sendh hc hx ht hal hend hbw) (fun e hs => ?_)
      have htarget := (hs.target hc xa).trans ht
      simp only [htarget, hs.v hc, hs.addr hc]
      rw [hs.x hc, hs.core_eq]
      rfl
    case rqseed =>
      have hs := sees_loneEnv s core plat .e (.rqseed g va xa)
      have hkey : BitVec.ofNat 256 (s.vAt core plat va).toNat = (s.vAt core plat va).extractLsb' 0 256 := by
        apply BitVec.eq_of_toNat_eq
        simp
      obtain ⟨t, hx, hm, ht⟩ := exec_enqueues (i := .rqseed g va xa)
        (v := .rqseed ((s.vAt core plat va).extractLsb' 0 256) (s.xAt core plat xa)) h rfl rfl
        (fits_of rfl nofun nofun nofun nofun) rfl hlen (fun _ _ => rfl) (fun _ _ => rfl)
        (fun e hs => by dsimp only; rw [hs.v hc, hs.x hc, hkey]) (fun _ _ => rfl)
      dsimp only at ht
      rw [hs.v hc, hs.x hc, hkey] at ht
      exact ⟨t, hx, hm, ht ▸ seed_done _ _ _ _ _ _⟩
    case axinv =>
      obtain ⟨t, hx, hm, ht⟩ := exec_enqueues (i := .axinv g id) h rfl rfl (fits_of rfl nofun nofun nofun nofun) rfl hlen
        (fun _ _ => rfl) (fun _ _ => rfl) (fun _ _ => rfl) (fun _ _ => rfl)
      exact ⟨t, hx, hm, ht ▸ setRegion_done _ _ _ _ _⟩
    case axqry =>
      obtain ⟨t, hx, hm, ht⟩ := exec_enqueues (i := .axqry g xd id) h rfl rfl (fits_of rfl nofun nofun nofun nofun) rfl hlen
        (fun _ _ => rfl) (fun _ _ => rfl) (fun _ _ => rfl) (fun _ _ => rfl)
      exact ⟨t, hx, hm, ht ▸ pending_done _ _ _ _ hc.pending xd⟩
  case full =>
    have hc := h.calm
    intro c a x hasRing described blocks h8 hsiding
    have hroom := cmdRoom_false h8 hsiding
    refine ⟨fun hch hread => ?chstartFull, fun hch => ?chstopFull, fun hring => ?ringcfgFull, fun hd =>
      ⟨?ysortFull, ?ygathFull, ?ycombFull, ?xa2avFull, ?xarFull, ?xagFull, ?xrunFull, ?sealLFull, ?openLFull⟩,
      fun ctxid bwin hx ht hal hend hbw => ?sendhFull, ?rqseedFull, ?axinvFull, ?axqryFull⟩
    case chstartFull =>
      refine exec_command_heldBack h rfl rfl (fits_of rfl nofun nofun nofun nofun) rfl hroom (fun e hs => ?_)
      simp only [hs.channel hch, hs.read hc hread]
    case chstopFull =>
      exact exec_command_heldBack h rfl rfl (fits_of rfl nofun nofun nofun nofun) rfl hroom (fun e hs => hs.channel hch)
    case ringcfgFull =>
      exact exec_command_heldBack h rfl rfl (fits_of rfl nofun nofun nofun nofun) rfl hroom (fun e hs => hs.ring hring)
    case ysortFull | ygathFull | ycombFull | xa2avFull | xarFull | xagFull | xrunFull | sealLFull | openLFull =>
      exact exec_command_heldBack h rfl rfl (fits_of rfl nofun nofun nofun nofun) rfl hroom
        (fun e hs => hs.described hc hd.1 hd.2)
    case sendhFull =>
      exact exec_command_heldBack h rfl rfl (fits_of rfl nofun nofun nofun nofun) rfl hroom
        (fun e hs => hs.sendh hc hx ht hal hend hbw)
    case rqseedFull | axinvFull | axqryFull =>
      exact exec_enqueues_heldBack h rfl rfl (fits_of rfl nofun nofun nofun nofun) rfl hroom (fun _ _ => rfl)

end Sys2Proof.Machine
end

section
/-! ## Rings that engines wait for and advance (R230, R289, R291) -/
namespace Sys2Proof.Machine

/-- What a change of one context keeps of that context, it keeps of every context. -/
theorem State.setCtx_keeps {α : Type} {s : State} {core plat : Nat} {d : Ctx} {f : Ctx → α} (h : f d = f (s.ctx core plat))
    (n p : Nat) : f ((s.setCtx core plat d).ctx n p) = f (s.ctx n p) := by
  by_cases hn : n = core
  · subst hn
    by_cases hp : p = plat
    · subst hp; rw [State.ctx_setCtx, h]
    · rw [State.ctx_setCtx_ne s n d hp]
  · rw [State.ctx_setCtx_other s plat p d hn]

/-- What a change of one core keeps of its contexts, it keeps of every context. -/
theorem State.ctx_setCore_all {s : State} {core : Nat} {k : Core} (h : k.plats = (s.core core).plats) (n p : Nat) :
    (s.setCore core k).ctx n p = s.ctx n p := by
  by_cases hn : n = core
  · subst hn; exact State.ctx_setCore_plats h p
  · exact State.ctx_setCore_ne s k p hn

/-- What every step of a fold keeps, the fold keeps. -/
theorem foldl_keeps {α β γ : Type} (g : α → γ) {f : α → β → α} (h : ∀ a b, g (f a b) = g a) (l : List β) (a : α) :
    g (l.foldl f a) = g a := by
  induction l generalizing a with
  | nil => rfl
  | cons b l ih => rw [List.foldl_cons, ih, h]

/-! ### A report to a ring -/

@[simp] theorem Ctx.ring_setRing (c : Ctx) (n : Nat) (r : Ring) : (c.setRing n r).ring n = r := SMap.get_put _ _ _ _

/-- A report changes its receiver's rings, or waits at the router. -/
theorem reportTo_eq (s : State) (id : Word) (ring n st src : Nat) :
    ∃ cores reports, s.reportTo id ring n st src = { s with cores := cores, reports := reports } := by
  unfold State.reportTo State.reportTo.wait
  dsimp only
  split
  · split <;> exact ⟨_, _, rfl⟩
  · split <;> exact ⟨_, _, rfl⟩

section
variable (s : State) (id : Word) (ring n st src : Nat)

@[simp] theorem reportTo_mem : (s.reportTo id ring n st src).mem = s.mem := by
  obtain ⟨cores, reports, h⟩ := reportTo_eq s id ring n st src
  rw [h]
@[simp] theorem reportTo_collectives : (s.reportTo id ring n st src).collectives = s.collectives := by
  obtain ⟨cores, reports, h⟩ := reportTo_eq s id ring n st src
  rw [h]

/-- No field of a context but its rings is changed by a report. -/
theorem reportTo_keeps {α : Type} {f : Ctx → α} (hf : ∀ c rs, f { c with rings := rs } = f c) (core plat : Nat) :
    f ((s.reportTo id ring n st src).ctx core plat) = f (s.ctx core plat) := by
  unfold State.reportTo State.reportTo.wait
  dsimp only
  split
  · split
    · rfl
    · exact State.setCtx_keeps (hf _ _) core plat
  · split <;> rfl

/-- A report reaches the ring of its receiver, where that is on a platform. -/
theorem reported_reportTo : s.reported (s.reportTo id ring n st src) id ring n st src := by
  intro core plat hw hl hs
  have hne : ¬ ((s.ctx core plat).state = .loading ∨ (s.ctx core plat).state = .saving) := by
    rintro (h | h)
    · exact hl h
    · exact hs h
  simp only [State.reportTo, hw, if_neg hne, State.ctx_setCtx, Ctx.report, Ctx.ring_setRing]

end

/-- A report stands where nothing after it changes a ring. -/
theorem State.reported.of_rings {s t u : State} {id : Word} {ring n st src : Nat} (h : s.reported t id ring n st src)
    (hu : ∀ core plat, (u.ctx core plat).rings = (t.ctx core plat).rings) : s.reported u id ring n st src := by
  intro core plat hw hl hs
  rw [← h core plat hw hl hs, Ctx.ring, Ctx.ring, hu]

/-! ### The copy engine -/

@[simp] theorem setChan_ctx (s : State) (core plat : Nat) (f : Channel → Channel) :
    (s.setChan core plat f).ctx core plat = { s.ctx core plat with chan := f (s.ctx core plat).chan } := State.ctx_setCtx _ _ _ _

/-- A change of a channel keeps every other field of every context. -/
theorem setChan_keeps {α : Type} {f : Ctx → α} (hf : ∀ c h, f { c with chan := h } = f c) (s : State) (core plat : Nat)
    (g : Channel → Channel) (n p : Nat) : f ((s.setChan core plat g).ctx n p) = f (s.ctx n p) :=
  State.setCtx_keeps (hf _ _) n p

/-- A context that is on its platform can be acted for. -/
theorem issuer_self {s : State} {core plat : Nat} (he : (s.ctx core plat).state ≠ .empty)
    (hl : (s.ctx core plat).state ≠ .loading) (hs : (s.ctx core plat).state ≠ .saving) :
    s.issuer core plat (s.ctx core plat).ctxid = some (s.ctx core plat) := by
  simp [State.issuer, he, hl, hs]

/-- The report on a waybill whose ring passes its check. -/
theorem waybillReport_eq {s : State} {core plat : Nat} {c : Ctx} {w : Waybill} {o : Word} (hr : w.rv = true)
    (ho : s.waybillRing core c w = some o) (n st : Nat) :
    s.waybillReport core plat c w n st = s.reportTo o w.ring n st (sourceOf 0 core plat) := by
  simp only [State.waybillReport, hr, if_true, ho]

@[simp] theorem completePacket_mem (s : State) (key : Nat) (k : Packet) (st n d : Nat) :
    (s.completePacket key k st n d).mem = s.mem := by
  unfold State.completePacket; split <;> rfl
@[simp] theorem completePacket_cores (s : State) (key : Nat) (k : Packet) (st n d : Nat) :
    (s.completePacket key k st n d).cores = s.cores := by
  unfold State.completePacket; split <;> rfl

theorem slotDone_keeps (s : State) (n : Nat) (b : Bounce) : (s.slotDone n b).mem = s.mem ∧ (s.slotDone n b).cores = s.cores := by
  unfold State.slotDone
  dsimp only
  split
  · exact ⟨completePacket_mem _ _ _ _ _ _, completePacket_cores _ _ _ _ _ _⟩
  · exact ⟨rfl, rfl⟩

/-- The end of the copies of bounce slots concerns their packets and channels alone. -/
theorem slotsDone_keeps (s : State) (core plat : Nat) :
    (s.slotsDone core plat).mem = s.mem ∧ (s.slotsDone core plat).cores = s.cores := by
  have h : ((s.slotsDone core plat).mem, (s.slotsDone core plat).cores) = (s.mem, s.cores) := by
    unfold State.slotsDone
    refine foldl_keeps (fun t : State => (t.mem, t.cores)) (fun t p => ?_) s.bounces s
    obtain ⟨hm, hk⟩ := slotDone_keeps t p.1 p.2
    split
    · split
      · rw [hm, hk]
      · rfl
    · rfl
  exact Prod.mk.inj h

section
variable {s : State} {core plat row : Nat} {w : Waybill} {o : Word} (he : (s.ctx core plat).state ≠ .empty)
  (hl : (s.ctx core plat).state ≠ .loading) (hs : (s.ctx core plat).state ≠ .saving)
  (hc : (s.ctx core plat).chan.cur = some (w, row)) (ho : s.waybillRing core (s.ctx core plat) w = some o)
include he hl hs hc ho

/-- A waybill that waits starts. -/
theorem exec_ringSpaceAvailable_copy (hrun : (s.ctx core plat).chan.state = .run)
    (hst : (s.ctx core plat).chan.started = false) (hroom : s.ringRoom o w.ring w.inc = true) :
    exec (.ringSpaceAvailable (.copy core plat)) s = .next (s.setChan core plat (fun h => { h with started := true })) := by
  have h : s.copyRoom core plat = some (s.setChan core plat (fun h => { h with started := true })) := by
    simp [State.copyRoom, issuer_self he hl hs, hrun, hc, ho, hst, hroom]
  exact congrArg outcomeOf h

/-- A finished waybill is reported, and its channel follows its NEXT; of the rest only bounce slots change. -/
theorem exec_ringAdvance_copy (hrow : w.rows < row) (hrv : w.rv = true) :
    ∃ t, exec (.ringAdvance (.copy core plat)) s = .next t ∧ t.mem = s.mem ∧
      t.cores = ((s.reportTo o w.ring w.inc rOK (sourceOf 0 core plat)).setChan core plat (fun h => h.follow w.next)).cores := by
  have h : s.copyAdvance core plat = some (if w.next = 0 then
      ((s.reportTo o w.ring w.inc rOK (sourceOf 0 core plat)).setChan core plat (fun h => h.follow w.next)).slotsDone core plat
      else (s.reportTo o w.ring w.inc rOK (sourceOf 0 core plat)).setChan core plat (fun h => h.follow w.next)) := by
    simp only [State.copyAdvance, issuer_self he hl hs, Option.bind_some, hc, if_pos hrow, waybillReport_eq hrv ho]
  refine ⟨_, congrArg outcomeOf h, ?_⟩
  split
  · obtain ⟨hm, hk⟩ := slotsDone_keeps
      ((s.reportTo o w.ring w.inc rOK (sourceOf 0 core plat)).setChan core plat (fun h => h.follow w.next)) core plat
    exact ⟨hm.trans (reportTo_mem s _ _ _ _ _), hk⟩
  · exact ⟨reportTo_mem s _ _ _ _ _, rfl⟩

end

/-! ### The marshalling engine -/

@[simp] theorem setMarshal_marshal (s : State) (cluster : Nat) (j : Option MarshalJob) :
    ((s.setMarshal cluster j).cluster cluster).marshal = j :=
  congrArg Cluster.marshal (State.cluster_setCluster s cluster _)

section
variable {s : State} {cluster k d ring inc : Nat} {j : MarshalJob} (hj : (s.cluster cluster).marshal = some j)
  (hm : j.cmd.marshal = some (k, d, ring, inc))
include hj hm

theorem exec_ringSpaceAvailable_marshal (hp : j.phase = 2) (hroom : s.ringRoom j.ctxid ring inc = true) :
    exec (.ringSpaceAvailable (.marshal cluster)) s = .next (s.setMarshal cluster (some { j with phase := 3 })) := by
  have h : s.marshalRoom cluster = some (s.setMarshal cluster (some { j with phase := 3 })) := by
    simp [State.marshalRoom, hj, hm, hp, hroom]
  exact congrArg outcomeOf h

theorem exec_ringAdvance_marshal (hp : j.phase = 4) (hst : j.stores = []) :
    exec (.ringAdvance (.marshal cluster)) s =
      .next ((s.reportTo j.ctxid ring inc rOK (sourceOf 1 j.core j.plat)).setMarshal cluster none) := by
  have h : s.marshalAdvance cluster =
      some ((s.reportTo j.ctxid ring inc rOK (sourceOf 1 j.core j.plat)).setMarshal cluster none) := by
    simp [State.marshalAdvance, hj, hm, hp, hst]
  exact congrArg outcomeOf h

end

/-! ### The cipher engine -/

@[simp] theorem setCipher_cipher (s : State) (core : Nat) (j : Option CipherJob) :
    ((s.setCipher core j).core core).cipher = j := congrArg Core.cipher (State.core_setCore s core _)

@[simp] theorem setCipher_ctx (s : State) (core : Nat) (j : Option CipherJob) (n p : Nat) :
    (s.setCipher core j).ctx n p = s.ctx n p := State.ctx_setCore_all (k := { s.core core with cipher := j }) rfl n p

section
variable {s : State} {core : Nat} {j : CipherJob} (hj : (s.core core).cipher = some j)
include hj

theorem exec_ringSpaceAvailable_cipher (hst : j.started = false) (hroom : s.ringRoom j.ctxid j.ring j.inc = true) :
    exec (.ringSpaceAvailable (.cipher core)) s = .next (s.setCipher core (some { j with started := true })) := by
  have h : s.cipherRoom core = some (s.setCipher core (some { j with started := true })) := by
    simp [State.cipherRoom, hj, hst, hroom]
  exact congrArg outcomeOf h

theorem exec_ringAdvance_cipher (hst : j.started = true) (hleft : j.left = 0) :
    exec (.ringAdvance (.cipher core)) s =
      .next ((s.reportTo j.ctxid j.ring j.inc rOK (sourceOf 3 core j.plat)).setCipher core none) := by
  have h : s.cipherAdvance core = some ((s.reportTo j.ctxid j.ring j.inc rOK (sourceOf 3 core j.plat)).setCipher core none) := by
    simp [State.cipherAdvance, hj, hst, hleft]
  exact congrArg outcomeOf h

end

/-! ### The collective engine -/

/-- The operation with the phase of a member's command changed. -/
def Collective.withPhase (o : Collective) (rank phase : Nat) : Collective :=
  { o with joined := o.joined.map (fun k => if k.rank = rank then { k with phase := phase } else k) }

theorem member_withPhase {o : Collective} {rank : Nat} {j : Joined} (h : o.member rank = some j) (phase : Nat) :
    (o.withPhase rank phase).member rank = some { j with phase := phase } := by
  have hf : (fun k : Joined => decide ((if k.rank = rank then { k with phase := phase } else k).rank = rank)) =
      fun k => decide (k.rank = rank) := by
    funext k; split <;> rfl
  have hj : j.rank = rank := by simpa using List.find?_some h
  unfold Collective.member at h
  simp only [Collective.member, Collective.withPhase, List.find?_map, Function.comp_def, hf, h, Option.map_some, if_pos hj]

/-- An operation that has been put back is found as it is now, unless all of its members here have been answered. -/
theorem findColl_putColl {s : State} {op : Nat} {o p : Collective} (h : s.findColl op = some o) (hp : p.id = o.id) :
    (s.putColl p).findColl op = some p ∨ ((s.putColl p).findColl op = none ∧ ∀ j ∈ p.joined, j.phase = 2) := by
  have hop : p.id = op := hp.trans (by simpa using List.find?_some h)
  have hput : (s.putColl p).collectives =
      if p.joined.all (fun j => decide (j.phase = 2)) && p.local.all p.ranks.contains then s.collectives.filter (·.id != p.id)
      else s.collectives.map (fun q => if q.id = p.id then p else q) := rfl
  rw [State.findColl] at h
  rw [State.findColl, hput]
  split
  case isTrue hgone =>
    refine Or.inr ⟨List.find?_eq_none.2 fun q hq => ?_, fun j hj => ?_⟩
    · have hne := (List.mem_filter.1 hq).2
      simpa [hop] using hne
    · simpa using List.all_eq_true.1 (Bool.and_eq_true_iff.1 hgone).1 j hj
  case isFalse =>
    have hid : ((fun q : Collective => decide (q.id = op)) ∘ fun q => if q.id = p.id then p else q) =
        fun q => decide (q.id = op) := by
      funext q
      simp only [Function.comp_apply]
      split
      case isTrue hq => rw [hq]
      case isFalse => rfl
    exact Or.inl (by rw [List.find?_map, hid, h, Option.map_some, if_pos hp.symm])

section
variable {s : State} {op rank : Nat} {o : Collective} {j : Joined} (ho : s.findColl op = some o) (hj : o.member rank = some j)
include ho hj

theorem exec_ringSpaceAvailable_collective (hp : j.phase = 0) (hroom : s.ringRoom j.ctxid j.ring j.inc = true) :
    exec (.ringSpaceAvailable (.collective op rank)) s = .next (s.putColl (o.withPhase rank 1)) := by
  have h : s.collRoom op rank = some (s.putColl (o.withPhase rank 1)) := by
    simp [State.collRoom, ho, hj, hp, hroom, Collective.withPhase]
  exact congrArg outcomeOf h

theorem exec_ringAdvance_collective (hs : o.stage = 1) (hp : j.phase = 1) (hq : o.quiet rank = true)
    (he : o.ended (s.stepsOf o j.prog) = true) :
    exec (.ringAdvance (.collective op rank)) s = .next
      ((if o.beyond.contains rank then s.collReport j 0 rOVER else s.collReport j j.inc rOK).putColl (o.withPhase rank 2)) := by
  have h : s.collAdvance op rank = some
      ((if o.beyond.contains rank then s.collReport j 0 rOVER else s.collReport j j.inc rOK).putColl (o.withPhase rank 2)) := by
    simp only [State.collAdvance, ho, hj, Option.bind_some, hs, hp, hq, he, decide_true, Bool.and_self, if_true,
      Collective.withPhase]
  exact congrArg outcomeOf h

end

theorem findColl_congr {s t : State} (h : t.collectives = s.collectives) (op : Nat) : t.findColl op = s.findColl op := by
  rw [State.findColl, State.findColl, h]

/-- Settles O39: each engine's own record goes on (`exec_ringSpaceAvailable_…`), or its report reaches the ring
(`reported_reportTo`) and nothing after it changes a ring (`exec_ringAdvance_…`). -/
theorem enginesWaitForAndAdvanceRings : Obligations.EnginesWaitForAndAdvanceRings := by
  intro s core plat cluster op rank c h goes
  refine ⟨fun w row o he hl hs hc ho => ⟨fun hrun hst hroom => ?copyStarts, fun hrow hrv => ?copyAdvances⟩,
    fun j k d ring inc hj hm => ⟨fun hp hroom => ?marshalStarts, fun hp hst => ?marshalAdvances⟩,
    fun o j ho hj => ⟨fun hp hroom => ?collectiveStarts, fun hs hp hq he => ?collectiveAdvances⟩,
    fun j hj => ⟨fun hst hroom => ?cipherStarts, fun hst hleft => ?cipherAdvances⟩⟩
  case copyStarts =>
    exact ⟨_, exec_ringSpaceAvailable_copy he hl hs hc ho hrun hst hroom, rfl, congrArg Ctx.chan (setChan_ctx s core plat _)⟩
  case copyAdvances =>
    obtain ⟨t, ht, hmem, hcores⟩ := exec_ringAdvance_copy he hl hs hc ho hrow hrv
    have hctx : ∀ n p, t.ctx n p = _ := fun n p => congrArg (fun cores => (SMap.get Core.empty cores n).ctx p) hcores
    refine ⟨t, ht, hmem, (reported_reportTo s _ _ _ _ _).of_rings fun n p => ?_, ?_⟩
    · rw [hctx]
      exact setChan_keeps (f := Ctx.rings) (fun _ _ => rfl) _ _ _ _ n p
    · have hchan := reportTo_keeps s o w.ring w.inc rOK (sourceOf 0 core plat) (f := Ctx.chan) (fun _ _ => rfl) core plat
      rw [hctx]
      exact (congrArg Ctx.chan (setChan_ctx _ core plat _)).trans (congrArg (Channel.follow · w.next) hchan)
  case marshalStarts =>
    exact ⟨_, exec_ringSpaceAvailable_marshal hj hm hp hroom, rfl, setMarshal_marshal s cluster _⟩
  case marshalAdvances =>
    exact ⟨_, exec_ringAdvance_marshal hj hm hp hst, reportTo_mem s _ _ _ _ _,
      (reported_reportTo s _ _ _ _ _).of_rings fun _ _ => rfl, setMarshal_marshal _ cluster _⟩
  case collectiveStarts =>
    refine ⟨_, exec_ringSpaceAvailable_collective ho hj hp hroom, rfl, ?_⟩
    have hmem := member_withPhase hj 1
    rcases findColl_putColl ho (p := o.withPhase rank 1) rfl with hf | ⟨-, hall⟩
    · exact (congrArg (fun r : Option Collective => r.bind (·.member rank)) hf).trans hmem
    · exact absurd (hall _ (List.mem_of_find?_eq_some hmem)) (show (1 : Nat) ≠ 2 by decide)
  case collectiveAdvances =>
    refine ⟨_, exec_ringAdvance_collective ho hj hs hp hq he, ?_, fun hb => ?_, fun hb => ?_, fun m hm => ?_⟩
    · split <;> exact reportTo_mem s _ _ _ _ _
    · rw [hb]
      exact (reported_reportTo s _ _ _ _ _).of_rings fun _ _ => rfl
    · rw [hb]
      exact (reported_reportTo s _ _ _ _ _).of_rings fun _ _ => rfl
    · have hkept : ∀ n st, (s.collReport j n st).findColl op = some o := fun n st =>
        (findColl_congr (reportTo_collectives s _ _ _ _ _) op).trans ho
      have hfound : (if o.beyond.contains rank then s.collReport j 0 rOVER else s.collReport j j.inc rOK).findColl op = some o := by
        split <;> exact hkept _ _
      rcases findColl_putColl hfound (p := o.withPhase rank 2) rfl with hf | ⟨hf, -⟩
      · rw [hf] at hm
        exact Option.some.inj (hm.symm.trans (member_withPhase hj 2))
      · rw [hf] at hm; cases hm
  case cipherStarts =>
    exact ⟨_, exec_ringSpaceAvailable_cipher hj hst hroom, rfl, setCipher_cipher s core _⟩
  case cipherAdvances =>
    exact ⟨_, exec_ringAdvance_cipher hj hst hleft, reportTo_mem s _ _ _ _ _,
      (reported_reportTo s _ _ _ _ _).of_rings fun n p => congrArg Ctx.rings (setCipher_ctx _ core _ n p),
      setCipher_cipher _ core _⟩

end Sys2Proof.Machine
end

section
/-! ## A channel that stops in a state whose cores are not in order (R293) -/
namespace Sys2Proof.Machine

/-- A waybill that reports to ring 0 of its own core. -/
def reportingWaybill : Waybill := { (default : Waybill) with rv := true, rows := 1 }

/-- A context of gang 1 whose channel copies that waybill, and whose command queue holds a CHSTOP. -/
def stoppingCtx : Ctx := { Ctx.empty with
  state := .ready, gang := 1, cmds := [⟨0, [], .chstop⟩]
  chan := { Channel.empty with state := .run, cur := some (reportingWaybill, 0) } }

/-- The launch of gang 1: its one context, of CTXID 0, owns ring 0 of core 0. -/
def ringLaunch : Launch :=
  ⟨1, 0, default, 0, 0, [{ Placement.empty with ringmask := 1 }], 2, [], [], 0⟩

/-- A state that lists core 1 before core 0, each with a context of CTXID 0 on platform 0. -/
def unorderedState : State := { State.reset with
  cores := [(1, { Core.empty with plats := [(0, { Ctx.empty with state := .ready })] }),
    (0, { Core.empty with plats := [(0, stoppingCtx)] })]
  launches := [ringLaunch] }

/-- It meets the hypotheses of O38 on a CHSTOP: core 0 has one at its head, no write of a line has begun, and the waybill's ring is
that of CTXID 0, found on core 1. -/
theorem unorderedState_stops : unorderedState.headCmd 0 0 = some ⟨0, [], .chstop⟩ ∧
    (∀ x ∈ (unorderedState.ctx 0 0).chan.stores, x.begun = false) ∧
    (unorderedState.ctx 0 0).chan.state = .run ∧ (unorderedState.ctx 0 0).chan.cur = some (reportingWaybill, 0) ∧
    unorderedState.waybillRing 0 (unorderedState.ctx 0 0) reportingWaybill = some 0 ∧
    unorderedState.whereIs 0 = some (1, 0) ∧ (unorderedState.ctx 1 0).state = .ready := by
  decide +kernel

/-- Once core 0 has been written, it is listed first: the ring on core 1 gets no report. -/
theorem unorderedState_unreported :
    (((nextState (exec (.chstopAccept 0 0) unorderedState)).ctx 1 0).ring 0).status = rOK := by
  decide +kernel

/-- Refutes O38: it lacks the hypothesis that the cores, and the platforms of each, are listed in rising order. Where core 1 stands
before core 0 and a context on each has the CTXID of the ring's owner, the ABORT of a CHSTOP on core 0 does not reach the ring on
core 1, where the owner was found before (`unorderedState_unreported`). -/
theorem not_channelsCopyWaybills : ¬ Obligations.ChannelsCopyWaybills := by
  intro h
  obtain ⟨-, hstops, -⟩ := h unorderedState 0 0 0 0 []
  obtain ⟨hhead, hbegun, hrun, hcur, hring, hwhere, hready⟩ := unorderedState_stops
  obtain ⟨t, ⟨hnext, -⟩, -, -, hreports⟩ := hstops hhead hbegun
  have hreported := hreports reportingWaybill 0 0 hrun hcur (by decide) rfl hring 1 0 hwhere
    (by rw [hready]; decide) (by rw [hready]; decide)
  have ht : nextState (exec (.chstopAccept 0 0) unorderedState) = t := congrArg nextState hnext
  have hstatus : ((t.ctx 1 0).ring 0).status = rABORT := congrArg Ring.status hreported
  rw [← ht, unorderedState_unreported] at hstatus
  exact absurd hstatus (by decide)

end Sys2Proof.Machine
end
